-- ==== Sys2Proof/Word.lean ====
section
/-! DEFINITION. The words of the TN-4810: bytes, the 32-bit and 64-bit words of registers and packets.
Byte order is little-endian (R3) and bit 0 is the least significant (R4); the helpers that follow those
rules stand in `Machine/Bits.lean`. -/

namespace Sys2Proof

/-- One byte of memory, of a packet or of a record. -/
abbrev Byte := BitVec 8

/-- A 64-bit register, scalar register or packet word. -/
abbrev Word64 := BitVec 64

/-- A 32-bit register or vector word. -/
abbrev Word32 := BitVec 32

end Sys2Proof
end

