-- ==== Sys2Proof/Syntax/Params.lean ====
section
/-! DEFINITION. The parameters of the Spaog commands (R89), one structure for each layout that an engine
chapter's "Command encodings" gives, and the fields of a VX instruction word. A field holds the value of the
bits the table names; the byte places are in `Machine/Operands.lean`. -/

namespace Sys2Proof

/-- LOAD (0x0101) and STORE (0x0102), R161. -/
structure CopyParams where
  va : Nat
  tsAddr : Nat
  rowBytes : Nat
  rows : Nat
  tsStride : Nat
  vaStride : Nat
  hint : Nat
  useCount : Nat
  deriving DecidableEq, Repr

/-- MATMUL (0x0103), R111. -/
structure MatmulParams where
  aAddr : Nat
  bAddr : Nat
  saAddr : Nat
  sbAddr : Nat
  m : Nat
  n : Nat
  k : Nat
  fmtA : Nat
  fmtB : Nat
  sfmtA : Nat
  sfmtB : Nat
  g : Nat
  group : Nat
  rowOff : Nat
  nMajor : Bool
  resetBusy : Bool
  aStride : Nat
  bStride : Nat
  deriving DecidableEq, Repr

/-- VKERN (0x0104), R183. -/
structure VkernParams where
  codeVa : Nat
  codeWords : Nat
  imemAddr : Nat
  entry : Nat
  nargs : Nat
  resetBusy : Bool
  vregIn : Bool
  rdLo : Nat
  rdHi : Nat
  wrLo : Nat
  wrHi : Nat
  maxCycles : Nat
  args : List Nat
  deriving DecidableEq, Repr

/-- ACC_OPEN (0x0105), R137, R144. -/
structure AccOpenParams where
  group : Nat
  entry : Nat
  init : Nat
  firstRow : Nat
  rows : Nat
  initAddr : Nat
  deriving DecidableEq, Repr

/-- ACC_CLOSE (0x0106), R141. -/
structure AccCloseParams where
  group : Nat
  discard : Bool
  forbidSpecial : Bool
  slot : Nat
  dest : Nat
  destStride : Nat
  deriving DecidableEq, Repr

/-- FENCE (0x0107), R156. -/
structure FenceParams where
  mask : Nat
  deriving DecidableEq, Repr

/-- SIGNAL (0x0108), R157. -/
structure SignalParams where
  kind : Nat
  index : Nat
  flag : Nat
  deriving DecidableEq, Repr

/-- WAIT (0x0109), R158. -/
structure WaitParams where
  flag : Nat
  value : Nat
  timeoutUs : Nat
  deriving DecidableEq, Repr

/-- MBX_ACCESS (0x010A), R160. -/
structure MbxAccessParams where
  op : Nat
  mbx : Nat
  value : Nat
  resultAddr : Nat
  deriving DecidableEq, Repr

/-- LOOKUP_POOL (0x0201), R279. -/
structure LookupParams where
  listVa : Nat
  count : Nat
  badSkip : Bool
  relaxed : Bool
  stats : Bool
  hint : Nat
  group : Nat
  epoch : Nat
  bucket : Nat
  workVa : Nat
  workBytes : Nat
  statsVa : Nat
  deriving DecidableEq, Repr

/-- SORT_DEDUP (0x0202), R283. -/
structure SortParams where
  listVa : Nat
  count : Nat
  mode : Nat
  badSkip : Bool
  gradBf16 : Bool
  stats : Bool
  outVa : Nat
  outBytes : Nat
  invVa : Nat
  workVa : Nat
  workBytes : Nat
  statsVa : Nat
  deriving DecidableEq, Repr

/-- EXCHANGE (0x0203), R286. -/
structure ExchangeParams where
  inVa : Nat
  outVa : Nat
  outBytes : Nat
  group : Nat
  epoch : Nat
  bucket : Nat
  outBf16 : Bool
  deriving DecidableEq, Repr

/-- SCATTER_UPDATE (0x0204), R288. -/
structure ScatterParams where
  inVa : Nat
  workVa : Nat
  workBytes : Nat
  forbidSpecial : Bool
  stats : Bool
  hint : Nat
  statsVa : Nat
  deriving DecidableEq, Repr

/-- TABLE_DEFINE (0x0208), R274. -/
structure TableParams where
  table : Nat
  fmt : Nat
  stateFmt : Nat
  width : Nat
  rule : Nat
  master : Bool
  writeRna : Bool
  undefine : Bool
  rows : Nat
  baseVa : Nat
  localRows : Nat
  group : Nat
  shard : Nat
  owner : Nat
  hyperVa : Nat
  deriving DecidableEq, Repr

/-- PROMOTE (0x0205) and DEMOTE (0x0206), R314, R317. -/
structure PromoteParams where
  group : Nat
  epoch : Nat
  explicit : Bool
  stats : Bool
  out : Bool
  bucket : Nat
  cand : Nat
  maxNew : Nat
  heat : Nat
  keys : Nat
  keyVa : Nat
  outVa : Nat
  statsVa : Nat
  deriving DecidableEq, Repr

/-- REFRESH (0x0207), R318. -/
structure RefreshParams where
  group : Nat
  epoch : Nat
  stats : Bool
  forceAll : Bool
  bucket : Nat
  statsVa : Nat
  deriving DecidableEq, Repr

/-- SHARD_DEFINE (0x0301), R329. -/
structure ShardParams where
  shard : Nat
  wfmt : Nat
  stateFmt : Nat
  rule : Nat
  mode : Nat
  depth : Nat
  isLocal : Bool
  seed : Bool
  undefine : Bool
  elems : Nat
  baseVa : Nat
  hyperVa : Nat
  tgroup : Nat
  group : Nat
  owner : Nat
  seedFmt : Nat
  seedG : Nat
  trustElems : Nat
  seedSrc : Nat
  deriving DecidableEq, Repr

/-- UPDATE (0x0302) and NORM_REDUCE (0x0305), R342, R347. -/
structure UpdateParams where
  listVa : Nat
  count : Nat
  clip : Nat
  clipSlot : Nat
  cstep : Nat
  group : Nat
  epoch : Nat
  waitTag : Bool
  forbidSpecial : Bool
  monitor : Bool
  bucket : Nat
  deriving DecidableEq, Repr

/-- FETCH (0x0303), R344. -/
structure FetchParams where
  shard : Nat
  parts : Nat
  wait : Bool
  version : Nat
  destVa : Nat
  timeoutUs : Nat
  hint : Nat
  useCount : Nat
  deriving DecidableEq, Repr

/-- REVERT (0x0304), R340. -/
structure RevertParams where
  shard : Nat
  version : Nat
  deriving DecidableEq, Repr

/-- GROUP_DEFINE (0x0401), R361. -/
structure GroupParams where
  group : Nat
  epoch : Nat
  undefine : Bool
  members : Nat
  listVa : Nat
  deriving DecidableEq, Repr

/-- ALL_REDUCE, REDUCE_SCATTER, ALL_GATHER and BROADCAST (0x0402 to 0x0405). -/
structure CollParams where
  group : Nat
  epoch : Nat
  forbidSpecial : Bool
  wireBf16 : Bool
  bucketLast : Bool
  mean : Bool
  shardSrc : Bool
  bucket : Nat
  algo : Nat
  fmt : Nat
  outFmt : Nat
  bytes : Nat
  pass : Nat
  passes : Nat
  srcFmt : Nat
  hint : Nat
  bucketVa : Nat
  srcVa : Nat
  outVa : Nat
  useCount : Nat
  root : Nat
  deriving DecidableEq, Repr

/-- ALL_TO_ALL_V (0x0406), R384. -/
structure A2aParams where
  group : Nat
  epoch : Nat
  bucket : Nat
  sendCountsVa : Nat
  sendVa : Nat
  recvVa : Nat
  recvBytes : Nat
  recvCountsVa : Nat
  deriving DecidableEq, Repr

/-- PERMUTE (0x0407), R386. -/
structure PermuteParams where
  group : Nat
  epoch : Nat
  moves : Nat
  movesVa : Nat
  baseVa : Nat
  workVa : Nat
  workBytes : Nat
  deriving DecidableEq, Repr

/-- BUCKET_CANCEL (0x0408), R389. -/
structure CancelParams where
  group : Nat
  epoch : Nat
  allEpoch : Bool
  bucket : Nat
  deriving DecidableEq, Repr

/-- ATTEND (0x0501), R400. -/
structure AttendParams where
  mode : Nat
  qFmt : Nat
  kvFmt : Nat
  outFmt : Nat
  causal : Bool
  win : Bool
  block : Bool
  forbidSpecial : Bool
  checkGen : Bool
  ropeSplit : Bool
  d : Nat
  rDim : Nat
  gqa : Nat
  hPage : Nat
  head0 : Nat
  hCmd : Nat
  scale : Nat
  window : Nat
  nseq : Nat
  seqVa : Nat
  ropeVa : Nat
  tiles : Nat
  tsLo : Nat
  workVa : Nat
  workBytes : Nat
  deriving DecidableEq, Repr

/-- PAGE_EDIT (0x0502), R402. -/
structure PageEditParams where
  slot : Nat
  op : Nat
  first : Nat
  count : Nat
  srcVa : Nat
  deriving DecidableEq, Repr

/-- MAP (0x0601), R244. -/
structure MapParams where
  va : Nat
  size : Nat
  obj : Nat
  write : Bool
  small : Bool
  guarded : Bool
  cache : Bool
  droppable : Bool
  tier : Nat
  lend : Nat
  deriving DecidableEq, Repr

/-- UNMAP, PIN and UNPIN (0x0602, 0x0604, 0x0605): the object. -/
structure ObjParams where
  obj : Nat
  deriving DecidableEq, Repr

/-- MIGRATE (0x0603), R259. -/
structure MigrateParams where
  obj : Nat
  tier : Nat
  lend : Nat
  deriving DecidableEq, Repr

/-- LEND (0x0606), R252. -/
structure LendParams where
  rank : Nat
  lendId : Nat
  guarded : Nat
  pages : Nat
  deriving DecidableEq, Repr

/-- REVOKE (0x0607), R253. -/
structure RevokeParams where
  lendId : Nat
  deriving DecidableEq, Repr

/-- SNAPSHOT (0x0608), R266. -/
structure SnapshotParams where
  obj : Nat
  count : Nat
  tier : Nat
  lend : Nat
  version : Nat
  dest : Nat
  manifest : Nat
  deriving DecidableEq, Repr

/-- CONTEXT_CREATE (0x0701), R489. -/
structure CtxCreateParams where
  ctx : Nat
  tiles : Nat
  deriving DecidableEq, Repr

/-- CONTEXT_DESTROY (0x0702), R490. -/
structure CtxDestroyParams where
  ctx : Nat
  deriving DecidableEq, Repr

/-- CONFIG_READ (0x0703), R491. -/
structure ConfigReadParams where
  item : Nat
  destVa : Nat
  capacity : Nat
  deriving DecidableEq, Repr

/-- TELEMETRY_READ (0x0704), R520. -/
structure TelemetryParams where
  blocks : Nat
  destVa : Nat
  capacity : Nat
  deriving DecidableEq, Repr

/-- ERRLOG_READ (0x0705), R504. -/
structure ErrlogReadParams where
  firstSeq : Nat
  count : Nat
  destVa : Nat
  deriving DecidableEq, Repr

/-- TRACE_CONTROL (0x0706), R532. -/
structure TraceParams where
  op : Nat
  marker : Nat
  value : Nat
  deriving DecidableEq, Repr

/-- TILE_RETIRE (0x0707), R497. -/
structure TileRetireParams where
  tile : Nat
  deriving DecidableEq, Repr

/-- REMOUNT_PREPARE (0x0708), R506, R507. -/
structure RemountParams where
  role : Nat
  rank : Nat
  deriving DecidableEq, Repr

/-- SEND (0x0801), R442. -/
structure SendParams where
  dest : Nat
  queue : Nat
  hint : Nat
  srcVa : Nat
  bytes : Nat
  deriving DecidableEq, Repr

/-- RECV_POST (0x0802), R442. -/
structure RecvParams where
  src : Nat
  queue : Nat
  hint : Nat
  bufVa : Nat
  bufBytes : Nat
  deriving DecidableEq, Repr

/-- ROUTE_SET (0x0803), R438. -/
structure RouteParams where
  first : Nat
  count : Nat
  srcVa : Nat
  deriving DecidableEq, Repr

/-- LINK_CONTROL (0x0804), R431, R443, R425. -/
structure LinkParams where
  engine : Nat
  op : Nat
  deriving DecidableEq, Repr

/-- MAC_FILTER_SET (0x0805), R452. -/
structure FilterParams where
  mac : Nat
  table : Nat
  first : Nat
  count : Nat
  srcVa : Nat
  deriving DecidableEq, Repr

/-- STATS_READ (0x0806), R467. -/
structure StatsParams where
  mac : Nat
  destVa : Nat
  deriving DecidableEq, Repr

/-- The parameters of a packet, by opcode (R89). A reserved opcode has `bad` (R8, detail 0x0001). -/
inductive Params where
  | load (p : CopyParams)
  | store (p : CopyParams)
  | matmul (p : MatmulParams)
  | vkern (p : VkernParams)
  | accOpen (p : AccOpenParams)
  | accClose (p : AccCloseParams)
  | fence (p : FenceParams)
  | signal (p : SignalParams)
  | wait (p : WaitParams)
  | mbxAccess (p : MbxAccessParams)
  | lookupPool (p : LookupParams)
  | sortDedup (p : SortParams)
  | exchange (p : ExchangeParams)
  | scatterUpdate (p : ScatterParams)
  | promote (p : PromoteParams)
  | demote (p : PromoteParams)
  | refresh (p : RefreshParams)
  | tableDefine (p : TableParams)
  | shardDefine (p : ShardParams)
  | update (p : UpdateParams)
  | fetch (p : FetchParams)
  | revert (p : RevertParams)
  | normReduce (p : UpdateParams)
  | groupDefine (p : GroupParams)
  | allReduce (p : CollParams)
  | reduceScatter (p : CollParams)
  | allGather (p : CollParams)
  | broadcast (p : CollParams)
  | allToAllV (p : A2aParams)
  | permute (p : PermuteParams)
  | bucketCancel (p : CancelParams)
  | attend (p : AttendParams)
  | pageEdit (p : PageEditParams)
  | map (p : MapParams)
  | unmap (p : ObjParams)
  | migrate (p : MigrateParams)
  | pin (p : ObjParams)
  | unpin (p : ObjParams)
  | lend (p : LendParams)
  | revoke (p : RevokeParams)
  | snapshot (p : SnapshotParams)
  | nop
  | contextCreate (p : CtxCreateParams)
  | contextDestroy (p : CtxDestroyParams)
  | configRead (p : ConfigReadParams)
  | telemetryRead (p : TelemetryParams)
  | errlogRead (p : ErrlogReadParams)
  | traceControl (p : TraceParams)
  | tileRetire (p : TileRetireParams)
  | remountPrepare (p : RemountParams)
  | send (p : SendParams)
  | recvPost (p : RecvParams)
  | routeSet (p : RouteParams)
  | linkControl (p : LinkParams)
  | macFilterSet (p : FilterParams)
  | statsRead (p : StatsParams)
  | bad
  deriving DecidableEq, Repr

/-- The fields of a VX instruction word below its opcode (bits [63:8] of the word, chapter 06). -/
structure VxFields where
  d : BitVec 6
  a : BitVec 6
  b : BitVec 6
  c : BitVec 6
  fmt : BitVec 4
  rnd : BitVec 2
  sat : BitVec 1
  bs : BitVec 1
  imm : BitVec 24
  deriving DecidableEq, Repr

end Sys2Proof
end

