-- ==== Sys2Proof/Syntax/Wire.lean ====
section
/-! DEFINITION. Messages between modules, as plain data. The spec gives the transport header (chapter 15) and says
what each message carries; the byte layout of a payload that it does not give is left abstract here. -/

namespace Sys2Proof

/-- What a transport message carries. -/
inductive Msg where
  /-- a recipe message: queue, number on the queue, bytes (R442) -/
  | recipe (queue num : Nat) (body : List Byte)
  /-- a lend is given (R252): lend number, class, pages -/
  | lendOffer (lend : Nat) (guarded : Bool) (pages : Nat)
  /-- a lend is revoked (R253) -/
  | revoke (lend : Nat)
  /-- a read of a lent line (R249): lend number, page, offset, bytes -/
  | lendRead (lend page off n : Nat)
  /-- the answer to a read -/
  | lendData (body : List Byte)
  /-- a write into a lent line -/
  | lendWrite (lend page off : Nat) (body : List Byte)
  /-- a credit of units for a tag with the digest of the sender's command (R368, R369) -/
  | credit (tag digest units : Nat)
  /-- the refusal of a credit (R370) -/
  | refuse (tag : Nat)
  /-- a unit of a collective (R368, R392): tag, leg, index in its stream, whether it is the last one, bytes -/
  | unit (tag leg index : Nat) (last : Bool) (body : List Byte)
  /-- a unit is asked for again (R392) -/
  | again (tag leg index : Nat)
  /-- a cancel of one bucket or of an epoch (R389) -/
  | cancel (group epoch bucket : Nat) (all : Bool)
  /-- a member has drained its epoch (R386), and whether its staging area is too small (R387) -/
  | drained (group epoch : Nat) (small : Bool)
  /-- a member's moves are complete (R386) -/
  | movesDone (group epoch : Nat)
  /-- a replica asks for a record (R316) -/
  | fillRequest (group slot key : Nat)
  /-- the owner's answer: its VERSION and the record (R316) -/
  | fillReply (group slot key version : Nat) (record : List Byte)
  /-- a FETCH asks the owner for a version (R344) -/
  | fetchRequest (tag shard parts version : Nat) (wait : Bool)
  /-- the owner's answer, with its status -/
  | fetchReply (tag status version : Nat) (body : List Byte)
  /-- an acknowledgement (R439): the next PSN expected, ECN echo, and by the PSN of a packet the recipe messages that no
  RECV_POST took (none) or that were too long for their buffer, with the bytes written (R442) -/
  | ack (apsn : Nat) (ecn : Bool) (short : List (Nat × Option Nat))
  /-- a selective acknowledgement (R456): the next PSN expected, the marked bits, ECN echo -/
  | sack (apsn : Nat) (marks : List Nat) (ecn : Bool)
  deriving DecidableEq, Repr

/-- How a packet reached the transport: over the fabric, or in a datagram of a MAC. -/
abbrev Via := Option (Fin 16)

/-- A packet as the transport receives it (chapter 15): source rank, context, PSN, what it carries, the offset of its payload
in its message and the message's length. -/
structure Packet where
  src : Nat
  ctx : Nat
  psn : Nat
  msg : Msg
  offset : Nat
  length : Nat
  deriving DecidableEq, Repr

/-- A flit as a receiver finds it (chapter 15): whether its CRC passes, its fields SEQ, KIND (0 data, 1 idle, 2 control), VC, ACK
and DST. -/
structure Flit where
  crcOk : Bool
  seq : Nat
  kind : Nat
  vc : Nat
  ack : Nat
  dst : Nat
  deriving DecidableEq, Repr

/-- The four time-stamps of an exchange in sixteenths of a ns (R443). -/
structure Exchange where
  t1 : Nat
  t2 : Nat
  t3 : Nat
  t4 : Nat
  deriving DecidableEq, Repr

/-- What the two ends exchange in training (R431): rank, engine and serial number of the peer, the lanes on which both have
locked, and the exchanges of the offset measurement (R443). -/
structure Trained where
  rank : Nat
  engine : Nat
  serial : Nat
  lanes : BitVec 8
  exchanges : List Exchange
  deriving DecidableEq, Repr

/-- What reaches a MAC (R449, R450, R459): the frame's bytes from the destination address through the FCS, its continuation
fragments, whether its reassembly failed, SMD errors, a verify mPacket (1) or its response (2) beside it, the bytes of its
priority that have left the receive buffer since the last frame. -/
structure FrameIn where
  bytes : List Byte
  frags : Nat
  asmErr : Bool
  smdErrs : Nat
  verify : Nat
  drained : Nat
  deriving DecidableEq, Repr

/-- The bytes of a message that count as payload. -/
def Msg.body : Msg → List Byte
  | .recipe _ _ b => b
  | .lendData b => b
  | .lendWrite _ _ _ b => b
  | .unit _ _ _ _ b => b
  | .fillReply _ _ _ _ b => b
  | .fetchReply _ _ _ b => b
  | .lendOffer _ _ _ => []
  | .revoke _ => []
  | .lendRead _ _ _ _ => []
  | .credit _ _ _ => []
  | .refuse _ => []
  | .again _ _ _ => []
  | .cancel _ _ _ _ => []
  | .drained _ _ _ => []
  | .movesDone _ _ => []
  | .fillRequest _ _ _ => []
  | .fetchRequest _ _ _ _ _ => []
  | .ack _ _ _ => []
  | .sack _ _ _ => []

/-- What a Vat slice finds when an access reaches it (R240). -/
inductive VatFault where
  /-- nothing -/
  | none
  /-- one tag copy fails its parity -/
  | oneTag
  /-- both tag copies fail -/
  | bothTags
  /-- the line fails its CRC-32C word -/
  | data
  deriving DecidableEq, Repr

/-- What INIT's self-tests and stack training report (R475, R224): tiles, Vat slices, pseudo-channels (stack, number) and
optical lanes (engine, lane) that fail, and the DRAM rows (slot tags) of repair entries whose bank has no spare row. -/
structure InitReport where
  tiles : List (Fin 64)
  slices : List (Fin 128)
  pcs : List (Fin 8 × Fin 32)
  lanes : List (Fin 8 × Fin 8)
  noSpare : List Nat
  deriving DecidableEq, Repr

/-- A sideband transfer (R552, R553): a read or write of 4 bytes at an offset, or an address assignment. -/
inductive SbOp where
  | read (offset : Nat)
  | write (offset : Nat) (value : BitVec 32)
  | setdasa (addr : Nat)
  | setaasa
  deriving DecidableEq, Repr

/-- A host configuration request (R56): a read or a write of a dword, the MSI-X enable and function mask bits, which the
spec names without their place, and the size of BAR2 as its power of two. -/
inductive CfgReq where
  | read (dword : Nat)
  | write (dword : Nat) (value : BitVec 32)
  | msix (enable mask : Bool)
  | bar2Size (k : Nat)
  deriving DecidableEq, Repr

/-- A host access through BAR2 (`win` 0) or HDM decoder `win` − 1 at a window offset (R32): `size` bytes read, or the bytes
of a write; `atomicOp` for a PCIe AtomicOp (R35). -/
structure WinOp where
  win : Fin 5
  offset : Nat
  size : Nat
  data : Option (List (BitVec 8))
  atomicOp : Bool
  deriving DecidableEq, Repr

/-- One access at a home slice (R228): the MPA and length within one line, the bytes of a write, hint and use count,
context, source, the command it belongs to, whether it is the parity line's slot that is reached, what the slice
finds. -/
structure VatOp where
  mpa : Nat
  size : Nat
  data : Option (List (BitVec 8))
  hint : Nat
  uses : Nat
  ctx : Nat
  src : Nat
  cmd : Option Nat
  parity : Bool
  fault : VatFault
  deriving DecidableEq, Repr

/-- One atomic at a home slice (R236): code, format code, operand bytes, compare bytes. -/
structure AtomicOp where
  mpa : Nat
  op : Nat
  fmt : Nat
  value : List (BitVec 8)
  cmp : List (BitVec 8)
  hint : Nat
  uses : Nat
  ctx : Nat
  src : Nat
  cmd : Option Nat
  deriving DecidableEq, Repr

end Sys2Proof
end

