-- ==== Sys2Proof/Syntax.lean ====
section
/-! DEFINITION. The commands of the block: one constructor for each row of the opcode table, with the row's operands.
A row of an engine's command carries the number of the command in flight and its parameters (`Params.lean`); a row of
the vector engine carries the tile and the fields of its instruction word; every other row carries what happened. -/

namespace Sys2Proof

/-- The commands, in the order of `spec/opcode_table.json`. -/
inductive Instr where
  /-- Copies rows of device virtual memory unchanged into the tile store (R161). -/
  | load (id : Nat) (p : CopyParams)
  /-- Copies rows from the tile store unchanged into device virtual memory (R161). -/
  | store (id : Nat) (p : CopyParams) (par : Option Nat)
  /-- Streams A rows through the weight-stationary array and adds the chunked, scaled products into an open group or slot (R111). -/
  | matmul (id : Nat) (p : MatmulParams) (par : Option Nat) (upset : List (Nat × Nat × BitVec 32))
  /-- Optionally loads code into instruction memory, sets the scalar registers and runs a VX kernel from ENTRY to HALT (R183). -/
  | vkern (id : Nat) (p : VkernParams)
  /-- Opens an accumulation group or legacy slot, zeroing its entries or copying them from the tile store (R137). -/
  | accOpen (id : Nat) (p : AccOpenParams) (par : Option Nat)
  /-- Drains a group or slot to the tile store after the check comparison, or discards it, and releases it (R141). -/
  | accClose (id : Nat) (p : AccCloseParams) (upset : List (Nat × Nat × BitVec 32))
  /-- Completes once every earlier command of the tile on the masked units has completed (R156). -/
  | fence (id : Nat) (p : FenceParams)
  /-- Increments a tile flag or sets a mailbox doorbell bit after every earlier command of the tile has completed (R157). -/
  | signal (id : Nat) (p : SignalParams)
  /-- Holds later commands of the tile until a tile flag reaches a value (R158). -/
  | wait (id : Nat) (p : WaitParams)
  /-- An unsatisfied WAIT reaches TIMEOUT_US, completes with WAIT_TIMEOUT and puts the tile in HELD (R159). -/
  | waitTimeout (id : Nat)
  /-- A tile attempts the lock of a mailbox under its owner number (R160). -/
  | mbxAccessLock (id : Nat) (p : MbxAccessParams)
  /-- A tile writes MBX_LOCK to release a mailbox lock (R160). -/
  | mbxAccessRelease (id : Nat) (p : MbxAccessParams)
  /-- A tile writes a message to MBX_MSG (R160). -/
  | mbxAccessWrite (id : Nat) (p : MbxAccessParams)
  /-- A tile reads and empties MBX_TAKE (R160). -/
  | mbxAccessTake (id : Nat) (p : MbxAccessParams)
  /-- A tile clears doorbell bits through MBX_DB_ACK (R160). -/
  | mbxAccessAck (id : Nat) (p : MbxAccessParams)
  /-- A tile reads MBX_STATUS and MBX_DB without changing them (R160). -/
  | mbxAccessPeek (id : Nat) (p : MbxAccessParams)
  /-- VX instruction NOP, which has no effect (R170). -/
  | vxNop (tile : Fin 64) (f : VxFields)
  /-- Waits for earlier instructions and ends the kernel with a halt code (R184). -/
  | halt (tile : Fin 64) (f : VxFields)
  /-- Sets PC to the branch target (R170). -/
  | jmp (tile : Fin 64) (f : VxFields)
  /-- Branches when two scalar registers are equal (R170). -/
  | beq (tile : Fin 64) (f : VxFields)
  /-- Branches when two scalar registers differ (R170). -/
  | bne (tile : Fin 64) (f : VxFields)
  /-- Branches on a signed less-than of two scalar registers (R170). -/
  | blt (tile : Fin 64) (f : VxFields)
  /-- Branches on an unsigned less-than of two scalar registers (R170). -/
  | bltu (tile : Fin 64) (f : VxFields)
  /-- Decrements a scalar register and branches while it is not zero (R170). -/
  | loop (tile : Fin 64) (f : VxFields)
  /-- Sets the active word count VL (R169). -/
  | setvl (tile : Fin 64) (f : VxFields)
  /-- Adds two scalar registers modulo 2^64 (R170). -/
  | sadd (tile : Fin 64) (f : VxFields)
  /-- Subtracts two scalar registers modulo 2^64 (R170). -/
  | ssub (tile : Fin 64) (f : VxFields)
  /-- Multiplies two scalar registers, keeping the low 64 bits (R170). -/
  | smul (tile : Fin 64) (f : VxFields)
  /-- ANDs two scalar registers (R170). -/
  | sand (tile : Fin 64) (f : VxFields)
  /-- Shifts a scalar register left (R170). -/
  | sshl (tile : Fin 64) (f : VxFields)
  /-- Shifts a scalar register right with zero fill (R170). -/
  | sshr (tile : Fin 64) (f : VxFields)
  /-- Shifts a scalar register right with sign fill (R170). -/
  | ssra (tile : Fin 64) (f : VxFields)
  /-- Adds an immediate to a scalar register (R170). -/
  | saddi (tile : Fin 64) (f : VxFields)
  /-- Loads an immediate into a scalar register (R170). -/
  | sli (tile : Fin 64) (f : VxFields)
  /-- Shifts a scalar register left by 24 and ORs in an immediate (R170). -/
  | slui (tile : Fin 64) (f : VxFields)
  /-- Moves one word of a vector register into a scalar register (R170). -/
  | smovv (tile : Fin 64) (f : VxFields)
  /-- Loads consecutive tile-store words into a vector register (R171). -/
  | vld (tile : Fin 64) (f : VxFields) (par : Option Nat)
  /-- Stores a vector register to consecutive tile-store words (R171). -/
  | vst (tile : Fin 64) (f : VxFields)
  /-- Strided load from the tile store (R171). -/
  | vlds (tile : Fin 64) (f : VxFields) (par : Option Nat)
  /-- Strided store to the tile store (R171). -/
  | vsts (tile : Fin 64) (f : VxFields)
  /-- Indexed gather from the tile store (R171). -/
  | vldx (tile : Fin 64) (f : VxFields) (par : Option Nat)
  /-- Indexed scatter to the tile store (R171). -/
  | vstx (tile : Fin 64) (f : VxFields)
  /-- Loads 8 tile-store bytes into a scalar register (R171). -/
  | sld (tile : Fin 64) (f : VxFields) (par : Option Nat)
  /-- Stores a scalar register to 8 tile-store bytes (R171). -/
  | sst (tile : Fin 64) (f : VxFields)
  /-- Element-wise addition (R173). -/
  | vadd (tile : Fin 64) (f : VxFields) (stall : Nat)
  /-- Element-wise subtraction (R173). -/
  | vsub (tile : Fin 64) (f : VxFields) (stall : Nat)
  /-- Element-wise multiplication (R173). -/
  | vmul (tile : Fin 64) (f : VxFields) (stall : Nat)
  /-- Fused multiply-add with one rounding (R173). -/
  | vfma (tile : Fin 64) (f : VxFields) (stall : Nat)
  /-- Fused multiply-subtract with one rounding (R173). -/
  | vfms (tile : Fin 64) (f : VxFields) (stall : Nat)
  /-- Element-wise minimum (R175). -/
  | vmin (tile : Fin 64) (f : VxFields) (stall : Nat)
  /-- Element-wise maximum (R175). -/
  | vmax (tile : Fin 64) (f : VxFields) (stall : Nat)
  /-- Element-wise absolute value (R174). -/
  | vabs (tile : Fin 64) (f : VxFields) (stall : Nat)
  /-- Element-wise negation (R174). -/
  | vneg (tile : Fin 64) (f : VxFields) (stall : Nat)
  /-- Bitwise AND of elements (R169). -/
  | vand (tile : Fin 64) (f : VxFields) (stall : Nat)
  /-- Bitwise OR of elements (R169). -/
  | vor (tile : Fin 64) (f : VxFields) (stall : Nat)
  /-- Bitwise XOR of elements (R169). -/
  | vxor (tile : Fin 64) (f : VxFields) (stall : Nat)
  /-- Element-wise left shift (R174). -/
  | vshl (tile : Fin 64) (f : VxFields) (stall : Nat)
  /-- Element-wise right shift with zero fill (R174). -/
  | vshr (tile : Fin 64) (f : VxFields) (stall : Nat)
  /-- Element-wise right shift with sign fill (R174). -/
  | vsra (tile : Fin 64) (f : VxFields) (stall : Nat)
  /-- Element-wise equality compare (R175). -/
  | vcmpeq (tile : Fin 64) (f : VxFields) (stall : Nat)
  /-- Element-wise less-than compare (R175). -/
  | vcmplt (tile : Fin 64) (f : VxFields) (stall : Nat)
  /-- Element-wise less-or-equal compare (R175). -/
  | vcmple (tile : Fin 64) (f : VxFields) (stall : Nat)
  /-- Element-wise unordered (NaN) compare (R175). -/
  | vcmpun (tile : Fin 64) (f : VxFields) (stall : Nat)
  /-- Selects elements of A or B by the top bit of C (R169). -/
  | vsel (tile : Fin 64) (f : VxFields) (stall : Nat)
  /-- Copies a register or broadcasts a scalar (R168). -/
  | vmov (tile : Fin 64) (f : VxFields) (stall : Nat)
  /-- Writes an ascending INT32 sequence (R169). -/
  | viota (tile : Fin 64) (f : VxFields) (stall : Nat)
  /-- Writes the class bits of each floating-point element (R173). -/
  | vclass (tile : Fin 64) (f : VxFields) (stall : Nat)
  /-- Sums a register in the fixed tree (R176). -/
  | vrsum (tile : Fin 64) (f : VxFields) (stall : Nat)
  /-- Finds the greatest element in the fixed tree (R176). -/
  | vrmax (tile : Fin 64) (f : VxFields) (stall : Nat)
  /-- Finds the greatest magnitude in the fixed tree (R176). -/
  | vramax (tile : Fin 64) (f : VxFields) (stall : Nat)
  /-- Sums each group of G words (R176). -/
  | vrsumg (tile : Fin 64) (f : VxFields) (stall : Nat)
  /-- Finds the greatest magnitude of each group of G elements (R176). -/
  | vramaxg (tile : Fin 64) (f : VxFields) (stall : Nat)
  /-- Permutes words by indices in another register (R169). -/
  | vperm (tile : Fin 64) (f : VxFields) (stall : Nat)
  /-- Slides words across two registers (R169). -/
  | vslide (tile : Fin 64) (f : VxFields) (stall : Nat)
  /-- Interleaves the lower halves of two registers (R169). -/
  | vziplo (tile : Fin 64) (f : VxFields) (stall : Nat)
  /-- Interleaves the upper halves of two registers (R169). -/
  | vziphi (tile : Fin 64) (f : VxFields) (stall : Nat)
  /-- Gathers the even elements of two registers (R169). -/
  | vunzipe (tile : Fin 64) (f : VxFields) (stall : Nat)
  /-- Gathers the odd elements of two registers (R169). -/
  | vunzipo (tile : Fin 64) (f : VxFields) (stall : Nat)
  /-- Broadcasts one word to every word (R169). -/
  | vbcast (tile : Fin 64) (f : VxFields) (stall : Nat)
  /-- Computes 2^x within its bound (R177). -/
  | vexp2 (tile : Fin 64) (f : VxFields) (stall : Nat)
  /-- Computes log2 x within its bound (R177). -/
  | vlog2 (tile : Fin 64) (f : VxFields) (stall : Nat)
  /-- Computes 1/x within its bound (R177). -/
  | vrcp (tile : Fin 64) (f : VxFields) (stall : Nat)
  /-- Computes 1/sqrt x within its bound (R177). -/
  | vrsqrt (tile : Fin 64) (f : VxFields) (stall : Nat)
  /-- Computes tanh x within its bound (R177). -/
  | vtanh (tile : Fin 64) (f : VxFields) (stall : Nat)
  /-- Computes the logistic sigmoid within its bound (R177). -/
  | vsigm (tile : Fin 64) (f : VxFields) (stall : Nat)
  /-- Converts elements to another format with the selected rounding and saturation (R115). -/
  | vcvt (tile : Fin 64) (f : VxFields) (stall : Nat)
  /-- Computes group scale seeds under R121 (R178). -/
  | vseed (tile : Fin 64) (f : VxFields) (stall : Nat)
  /-- Quantises elements by their group scales (R179). -/
  | vqnt (tile : Fin 64) (f : VxFields) (stall : Nat)
  /-- Dequantises elements to FP32 with their group scales (R169). -/
  | vdqnt (tile : Fin 64) (f : VxFields) (stall : Nat)
  /-- A kernel reaches MAX_CYCLES and is stopped (R184). -/
  | vxTimeout (tile : Fin 64) (stall : Nat)
  /-- A detection in the vector path stops the kernel and replays it or ends the command (R191). -/
  | vxDetection (tile : Fin 64) (imem : Bool)
  /-- The Relay or Beater delivers a service burst to a tile's service buffer for lane additions (R187). -/
  | serviceBurst (tile : Fin 64) (cycles : Nat) (data : List (BitVec 8)) (det : Bool)
  /-- After a failed check comparison and the end of the running MATMUL, the tile re-runs the group and drains again (R153). -/
  | groupReplay (id : Nat) (par : Option Nat) (upset : List (Nat × Nat × BitVec 32))
  /-- Sorts and de-duplicates indices, reads each distinct table row once and pools the bags (R279). -/
  | lookupPool (id : Nat) (p : LookupParams) (det : Fin 3) (bad : List Nat)
  /-- Sorts keys and writes distinct keys or summed gradients per key (R283). -/
  | sortDedup (id : Nat) (p : SortParams) (det : Fin 3)
  /-- Routes a gradient list to the owners of its table rows (R286). -/
  | exchange (id : Nat) (p : ExchangeParams) (bad : List Nat)
  /-- Sums gradients per key and applies one record cycle per table row (R288). -/
  | scatterUpdate (id : Nat) (p : ScatterParams) (det : Fin 3) (bad : List Nat)
  /-- Defines, replaces or removes a table descriptor (R274). -/
  | tableDefine (id : Nat) (p : TableParams)
  /-- Selects hot keys across the group and makes them FILLING on every member (R314). -/
  | promote (id : Nat) (p : PromoteParams) (bad : List Nat)
  /-- Selects replicated keys across the group and makes them DRAINING (R317). -/
  | demote (id : Nat) (p : PromoteParams) (bad : List Nat)
  /-- Completes fills, re-copies replicas, frees draining entries and decays heat across the group (R318). -/
  | refresh (id : Nat) (p : RefreshParams) (bad : List Nat)
  /-- A non-owner requests a FILLING record and its VERSION from the owner, which serves it between record cycles (R316). -/
  | fillRequest (src : Option Nat) (ctx group slot key : Nat)
  /-- A fill reply lands in the replica slot, sets FILL_VER and FILLED, or is discarded (R316). -/
  | fillReply (ctx group slot key version : Nat) (record : List (BitVec 8))
  /-- Defines, seeds or removes a shard and makes version 0 current (R329). -/
  | shardDefine (id : Nat) (p : ShardParams)
  /-- Dispatches an optimiser update that the Farrier holds until its start conditions hold (R342). -/
  | update (id : Nat) (p : UpdateParams)
  /-- The Farrier starts a held UPDATE when its tag, clip, slot and limit conditions hold, writes the next slot and commits (R341). -/
  | updateStart (id : Nat) (det : Fin 3)
  /-- A held LAGGED commit compares the new norm with the limit and commits or re-runs (R350). -/
  | laggedPostcheck (id : Nat) (det : Fin 3)
  /-- An UPDATE waits on its clip slot past CLIP_TIMEOUT_MS and completes unchanged (R352). -/
  | clipTimeout (id : Nat)
  /-- Copies parts of a retained shard version to a destination, from the owner if remote (R344). -/
  | fetch (id : Nat) (p : FetchParams)
  /-- A FETCH waiting for a later version reaches TIMEOUT_US (R345). -/
  | fetchTimeout (id : Nat)
  /-- Commits a new version copied from a retained version (R340). -/
  | revert (id : Nat) (p : RevertParams) (det : Fin 3)
  /-- Computes the global gradient norm over the group and writes it to a clip slot (R347). -/
  | normReduce (id : Nat) (p : UpdateParams)
  /-- Defines, replaces or removes a Relay group and sets its epoch (R361). -/
  | groupDefine (id : Nat) (p : GroupParams)
  /-- Adds a bucket pass and reduces the bucket so every member holds the result (R377). -/
  | allReduce (id : Nat) (p : CollParams)
  /-- Adds a bucket pass and leaves chunk m of the reduction on member m (R375). -/
  | reduceScatter (id : Nat) (p : CollParams)
  /-- Writes every member's contribution on every member (R382). -/
  | allGather (id : Nat) (p : CollParams)
  /-- Sends data from the root along the members in 64 KiB units (R383). -/
  | broadcast (id : Nat) (p : CollParams)
  /-- Exchanges counts and then variable segments between all members (R384). -/
  | allToAllV (id : Nat) (p : A2aParams)
  /-- Drains the epoch, stages, moves data per the move list and commits the next epoch (R386). -/
  | permute (id : Nat) (p : PermuteParams)
  /-- A member's DRAINED message arrives; when all have arrived the Stage phase begins (R386). -/
  | drained (src group epoch : Nat) (small : Bool)
  /-- Cancels one tag or a whole epoch on every member of the group (R389). -/
  | bucketCancel (id : Nat) (p : CancelParams)
  /-- A cancel from a peer arrives and stops or remembers the tag (R389). -/
  | cancelArrival (group epoch bucket : Nat) (all : Bool)
  /-- A collective held by the in-flight limit or a future epoch starts when room or the epoch arrives (R364). -/
  | heldCollectiveStart (id : Nat)
  /-- A credit for a tag arrives with its digest and lets data be sent, or waits in the pending table (R368). -/
  | creditGrant (src tag digest units : Nat)
  /-- A refused credit is sent again after 10 µs (R370). -/
  | creditRetry (dst tag : Nat)
  /-- A unit of collective data arrives, is checked and added, converted or written, or is asked for again (R392). -/
  | relayUnitArrival (src tag leg index : Nat) (last : Bool) (body : List (BitVec 8)) (det : Bool)
  /-- A member silent for PEER_TIMEOUT_MS is treated as failed and the collective ends (R391). -/
  | peerTimeout (tag : Nat)
  /-- A Beater collective member silent for PEER_TIMEOUT_MS is treated as failed (R295). -/
  | beaterPeerTimeout (tag : Nat)
  /-- Latches the page lists and places attention jobs on the named tiles (R400). -/
  | attend (id : Nat) (p : AttendParams)
  /-- A job starts on a tile with no group open and computes units until none remains (R412). -/
  | attentionJob (id : Nat) (tile : Fin 64) (units : Nat) (det : Fin 3)
  /-- Sets directory entries of a slot and increments its GEN (R402). -/
  | pageEditSet (id : Nat) (p : PageEditParams)
  /-- Truncates a slot's page list and increments its GEN (R402). -/
  | pageEditTruncate (id : Nat) (p : PageEditParams)
  /-- Clears a slot's page list and increments its GEN (R402). -/
  | pageEditClear (id : Nat) (p : PageEditParams)
  /-- Creates an object, places its zeroed pages in a tier and writes its page table (R244). -/
  | map (id : Nat) (p : MapParams)
  /-- Frees an object after its leaf entries are invalidated (R248). -/
  | unmap (id : Nat) (p : ObjParams)
  /-- Moves an object to another tier by copy passes and a flip (R259). -/
  | migrate (id : Nat) (p : MigrateParams)
  /-- A copy pass ends; the dirty blocks are counted and a flip, another pass or an end follows (R259). -/
  | migrationPassEnd (ctx : Fin 16) (obj : Nat) (kept : List Nat) (flipNs : Nat)
  /-- In-flight accesses do not finish within 4 µs and the flip is abandoned (R260). -/
  | flipAbandon (ctx : Fin 16) (obj : Nat)
  /-- Makes an object pinned in its current tier (R255). -/
  | pin (id : Nat) (p : ObjParams)
  /-- Makes an object cache-class and sets its age to 0 (R255). -/
  | unpin (id : Nat) (p : ObjParams)
  /-- Lends local pages to a borrower rank (R252). -/
  | lend (id : Nat) (p : LendParams)
  /-- Ends a lend and starts the borrower's grace (R253). -/
  | revoke (id : Nat) (p : RevokeParams)
  /-- The grace of a revocation ends; lent pages are freed and become revoked on the borrower (R253). -/
  | graceExpiry (lender : Bool) (n : Nat) (revoked : Nat)
  /-- A borrower without a path to a lender for GRACE_MS has the lend's pages revoked (R254). -/
  | lenderPathLoss (slot : Fin 16)
  /-- Copies objects or a Farrier version to a destination and writes a manifest (R266). -/
  | snapshot (id : Nat) (p : SnapshotParams)
  /-- A lower-tier access gets no answer within DROVER_TIMEOUT and ends as late (R251). -/
  | tierTimeout (id : Nat) (late : Bool)
  /-- A translation miss walks the page table through the Vat (R246). -/
  | tlbWalk (cache : Fin 11) (ctx : Fin 16) (va : Nat) (write : Bool)
  /-- After a map-out, mapped pages of narrowed frames move to other frames by one-page migrations (R264). -/
  | frameRebuild (page : Nat) (flipNs : Nat)
  /-- A retired page is remapped to a free page of its class by a one-page migration (R265). -/
  | pageRemap (page : Nat) (flipNs : Nat)
  /-- Firmware command that completes with OK (R89). -/
  | nop (id : Nat)
  /-- Creates a context and moves named idle tiles to it (R489). -/
  | contextCreate (id : Nat) (p : CtxCreateParams)
  /-- Waits for the context's commands, disables its windows, removes its objects and returns its tiles (R490). -/
  | contextDestroy (id : Nat) (p : CtxDestroyParams)
  /-- Writes the configuration, clamp report, OTP contents or measurements to memory (R491). -/
  | configRead (id : Nat) (p : ConfigReadParams)
  /-- Takes a rank-5 snapshot of the selected counter blocks (R520). -/
  | telemetryRead (id : Nat) (p : TelemetryParams)
  /-- Copies error-log entries to memory (R504). -/
  | errlogRead (id : Nat) (p : ErrlogReadParams)
  /-- Resets the quire number and begins trace capture (R532). -/
  | traceStart (id : Nat) (p : TraceParams)
  /-- Stops trace capture (R532). -/
  | traceStop (id : Nat) (p : TraceParams)
  /-- Makes a trace trigger of cause 0x1 (R530). -/
  | traceTrigger (id : Nat) (p : TraceParams)
  /-- Writes a MARK trace record (R526). -/
  | traceMark (id : Nat) (p : TraceParams)
  /-- Pads the open quire and writes it (R529). -/
  | traceFlush (id : Nat) (p : TraceParams)
  /-- Retires a tile, completes its commands with TILE_RETIRED and halts its rings (R497). -/
  | tileRetire (id : Nat) (p : TileRetireParams)
  /-- Sets this module's rank, its routing entry, and retrains its links (R506). -/
  | adopt (id : Nat) (p : RemountParams)
  /-- Ends messages, collectives and lends of a rank and resets its PSNs (R507). -/
  | forget (id : Nat) (p : RemountParams)
  /-- Sends a recipe message to a queue on another rank (R442). -/
  | send (id : Nat) (p : SendParams)
  /-- Posts a receive buffer on a queue (R442). -/
  | recvPost (id : Nat) (p : RecvParams)
  /-- A refused message is tried again every 10 µs until RNR_US passes and SEND ends with NO_RECEIVER (R442). -/
  | rnrRetry (flight : Nat)
  /-- Replaces routing entries in one commit event (R438). -/
  | routeSet (id : Nat) (p : RouteParams)
  /-- LINK_CONTROL RETRAIN sends a link to TRAIN (R431). -/
  | linkRetrain (id : Nat) (p : LinkParams)
  /-- LINK_CONTROL DOWN takes a link administratively down (R431). -/
  | linkDown (id : Nat) (p : LinkParams)
  /-- LINK_CONTROL UP lets a link train again (R431). -/
  | linkUp (id : Nat) (p : LinkParams)
  /-- Runs 64 time-offset exchanges on a link (R443). -/
  | measure (id : Nat) (p : LinkParams) (ex : List Exchange)
  /-- Switches an engine to laser input B (R425). -/
  | forceB (id : Nat) (p : LinkParams)
  /-- Returns an engine to laser input A (R425). -/
  | returnA (id : Nat) (p : LinkParams)
  /-- Writes a MAC's exact-match table or hash filter in one commit (R452). -/
  | macFilterSet (id : Nat) (p : FilterParams)
  /-- Takes a rank-5 snapshot of a MAC's counters (R467). -/
  | statsRead (id : Nat) (p : StatsParams)
  /-- The front end reads the next announced packet of a running ring and queues it (R72). -/
  | packetFetch (ring : Fin 256) (fail : Fin 3)
  /-- The front end re-reads the unit every 256 ns after an early doorbell (R73). -/
  | earlyDoorbellRepoll (ring : Fin 256) (fail : Fin 3)
  /-- The 4 µs re-poll window ends; a record is posted and the ring enters STALLED (R73). -/
  | earlyDoorbell (ring : Fin 256)
  /-- A queued packet whose fence, gate, queue and completion-slot conditions hold is dispatched to its engine (R79). -/
  | dispatch (ring : Fin 256)
  /-- A command completes; its record and tail write-back are written, gates signalled and interrupts raised (R84). -/
  | commandCompletion (id : Nat) (fail : Fin 3)
  /-- COAL_TIME passes since the first unsignalled record and the ring signals its vector (R90). -/
  | coalTimeExpiry (ring : Fin 256)
  /-- A doorbell write announces packets of a ring (R71). -/
  | spaogDb (ring : Fin 256) (value : BitVec 32)
  /-- The host reports consumed completion records (R86). -/
  | spaogCqDb (ring : Fin 256) (value : BitVec 32)
  /-- Setting ENABLE on a submission ring with a valid configuration makes it RUNNING (R61). -/
  | sqEnableSet (ring : Fin 256) (value : BitVec 32)
  /-- Clearing ENABLE stops fetching, discards undispatched packets and sets SPAOG_SQ_HEAD (R76). -/
  | sqEnableClear (ring : Fin 256) (value : BitVec 32)
  /-- A write sets E and P of a disabled ring and resets LIMIT (R71). -/
  | spaogSqHead (ring : Fin 256) (value : BitVec 64)
  /-- A completion ring configuration write is applied only while unbound, and setting ENABLE clears FAULT and LOST (R62). -/
  | cqEnableWrite (ring : Fin 256) (value : BitVec 64)
  /-- A host write sets a gate as a rank-7 event (R70). -/
  | spaogGate (gate : Fin 4096) (value : BitVec 64)
  /-- A read of MBX_LOCK or an alias is a lock attempt (R93). -/
  | mbxLockRead (mbx : Fin 16) (agent : Nat)
  /-- A write of MBX_LOCK or an alias by the owner releases the lock (R94). -/
  | mbxLockWrite (mbx : Fin 16) (agent : Nat)
  /-- An Ostler core releases a lock whatever its owner (R94). -/
  | mbxLockForce (mbx : Fin 16) (agent : Nat) (release : Bool)
  /-- A write stores a message and sets FULL and doorbell bit 31, or sets OVERRUN (R97). -/
  | mbxMsg (mbx : Fin 16) (agent : Nat) (msg : BitVec 32)
  /-- A read returns the message and clears FULL (R97). -/
  | mbxTake (mbx : Fin 16) (agent : Nat)
  /-- A write sets doorbell bits and may raise the mailbox interrupt (R98). -/
  | mbxDb (mbx : Fin 16) (agent : Nat) (v : BitVec 32)
  /-- A write clears doorbell bits and may end the interrupt (R98). -/
  | mbxDbAck (mbx : Fin 16) (agent : Nat) (v : BitVec 32)
  /-- Clearing a mask bit of a set doorbell bit raises the interrupt (R98). -/
  | mbxDbMask (mbx : Fin 16) (agent : Nat) (v : BitVec 32)
  /-- A vector becomes unmasked and its pending message is sent (R48). -/
  | msixUnmask (vector : Fin 1024)
  /-- Ends a cut, clears the cut list, releases held completions and lets engines start (R56). -/
  | hitchResume
  /-- A TILE_CFG write is applied only while the tile is idle with nothing open (R148). -/
  | tileCfgWrite (tile : Fin 64) (value : BitVec 32)
  /-- Returns a HELD tile to RUNNING (R159). -/
  | tileCtlRelease (tile : Fin 64)
  /-- Completes unstarted commands of a HELD tile with FLUSHED (R159). -/
  | tileCtlFlush (tile : Fin 64)
  /-- A host write sets a tile flag as a rank-7 event (R158). -/
  | tileFlagWrite (tile : Fin 64) (flag : Fin 16) (value : BitVec 32)
  /-- A write that would clear SVC_EN on the last service tile of a die is ignored (R189). -/
  | tileVxCfgWrite (tile : Fin 64) (value : BitVec 32)
  /-- STACK_CTL maps out a pseudo-channel as if R218 had fired (R218). -/
  | forceMapout (stack : Fin 8) (pc : Fin 32)
  /-- Removes every KEEP mark of a context (R233). -/
  | vatKeepRelease (ctx : Fin 16)
  /-- A write copies a Stud Book entry into BEATER_SB_PEEK (R301). -/
  | beaterSbPeekIdx (value : BitVec 32)
  /-- OSTLER_BOOT_CTL.GO starts VERIFY of the staged image (R476). -/
  | go
  /-- OSTLER_DEBUG_CTL.SUBMIT verifies a debug token and may open scope (R487). -/
  | submit
  /-- A host write into the staging window, dropped while it is read-only (R474). -/
  | stagingWrite (offset : Nat) (data : List (BitVec 8))
  /-- Adds a signed step to global time from the next tick (R523). -/
  | gtimeStep (step : BitVec 64)
  /-- Clears selected performance counters (R518). -/
  | perfCtlClear (clear : BitVec 64)
  /-- A write makes a trace trigger of cause 0x2 (R530). -/
  | traceCtlTrigger
  /-- The host reports consumed raw receive slots (R465). -/
  | macRawrxHead (mac : Fin 16) (value : BitVec 32)
  /-- The host posts raw frames and the MAC sends them in order (R465). -/
  | macRawtxTail (mac : Fin 16) (value : BitVec 32)
  /-- A read returns and removes the oldest transmit time-stamp (R463). -/
  | macTxtsPop (mac : Fin 16)
  /-- A read returns and clears the longest flip time (R5). -/
  | droverFlipMaxNs
  /-- A read returns and clears the peak 1 ms power (R5). -/
  | curbPowerPeakRead
  /-- A read returns and clears the longest interruption (R5). -/
  | ostlerInterruptMaxNs
  /-- A write to a register without a row of its own, applied per its access code and storage rule (R5). -/
  | registerWrite (offset size : Nat) (value : BitVec 64)
  /-- A host access through BAR2 or an HDM range reaches the mapped context's memory (R32). -/
  | bar2HdmAccess (w : WinOp)
  /-- A peer write is accepted into a registered window or dropped (R37). -/
  | peerWrite (addr : Nat) (requester : BitVec 16) (data : List (BitVec 8))
  /-- A peer read is served from a registered window or refused (R38). -/
  | peerRead (addr : Nat) (requester : BitVec 16) (n : Nat)
  /-- A hot reset is received and cuts host-bound writes (R51). -/
  | hotReset
  /-- DL_Down cuts host-bound writes (R51). -/
  | surpriseLinkDown
  /-- PERST_N cuts, resets the Hitch and front end, and records discarded packets (R54). -/
  | perstNAssert
  /-- PERST_N is released and the Hitch starts link training (R471). -/
  | perstNDeassert
  /-- An FLR cuts host-bound writes (R51). -/
  | functionLevelReset
  /-- A CXL Reset cuts host-bound writes (R51). -/
  | cxlReset
  /-- Entry to D3hot cuts host-bound writes (R51). -/
  | d3hotEntry
  /-- An IDE check fails, the stream becomes insecure and a cut with reason IDE occurs (R49). -/
  | ideCheckFailure
  /-- Re-keying through IDE_KM completes and the stream leaves the insecure state (R49). -/
  | ideRekeyComplete
  /-- The host link reaches L0; the mode is fixed and CAPS_HOST is set (R30). -/
  | linkUpHost (width gen : Nat) (cxl : Bool)
  /-- A retrain changes width or rate, re-evaluates R29 and changes CAPS (R30). -/
  | hostLinkRetrain (width gen : Nat)
  /-- PG_AUX asserts and the boot ROM starts ROM_TEST (R470). -/
  | pgAuxAssert
  /-- PG_MAIN asserts and the island PLLs lock (R470). -/
  | pgMainAssert
  /-- PG_STACK asserts (R470). -/
  | pgStackAssert
  /-- PG_OPT asserts (R470). -/
  | pgOptAssert
  /-- A power-good input falls; FAULT_N asserts and every engine stops (R472). -/
  | powerGoodFall (pg : Fin 4)
  /-- ROM_TEST ends, entering WAIT_IMAGE or FAILED (R475). -/
  | romTestDone (pass : Bool)
  /-- INIT completes and the module enters READY (R485). -/
  | initDone (report : InitReport)
  /-- A VCORE regulator gives no acknowledgement within 100 µs (R543). -/
  | avsAckTimeout (rail : Fin 2)
  /-- Curb samples power every 1 µs and sets issue gaps and throttles (R544). -/
  | curbSample (mw : Nat) (g v : Fin 49)
  /-- Curb reads the temperature sensors every 1 µs and raises warning or throttle (R548). -/
  | thermalSample (temps : List (BitVec 16)) (g v : Fin 49)
  /-- A sensor reaches 110 °C and THERMTRIP_N and FAULT_N assert (R548). -/
  | thermalTrip
  /-- An Ostler core fails to serve its watchdog for 100 ms, causing a module fault (R500). -/
  | ostlerWatchdog (core : Fin 4)
  /-- An access is applied at the line's home slice by its hint, with fill, allocation or eviction (R228). -/
  | vatAccess (a : VatOp)
  /-- An atomic is applied at the home slice as one read-modify-write (R238). -/
  | vatAtomic (a : AtomicOp)
  /-- A parity delta arrives at the parity slice, is XORed into the parity line and acknowledged (R210). -/
  | parityDelta (mpa : Nat) (fillFails : Bool)
  /-- A slice reaching its detection threshold writes back its lines and is retired (R241). -/
  | sliceRetirement (slice : Fin 128)
  /-- A line and its check sector arrive from a stack and are checked, re-read or handed to reconstruction (R213). -/
  | stackFill (mpa : Nat) (fails : Nat) (chkBad : Option (List Nat)) (cmd : Option Nat)
  /-- The peer lines of a held stripe arrive and the line is rebuilt and checked (R214). -/
  | reconstruction (mpa : Nat) (ok : Bool) (cmd : Option Nat)
  /-- A parity line is rebuilt from its stripe's data lines (R554). -/
  | parityRebuild (mpa : Nat)
  /-- A failed verify triggers soft repair of a DRAM row, or page retirement (R222). -/
  | rowRepair (mpa : Nat) (spare : Bool)
  /-- A pseudo-channel, channel or stack meeting R218 is mapped out (R219). -/
  | mapout (stack : Fin 8) (pcs : List (Fin 32)) (cause : Fin 4) (hit : List Nat)
  /-- The controller scrubs the next slot and checks the stripe parity (R225). -/
  | scrubRead (stack : Fin 8) (mismatch : Bool)
  /-- An input is below LOSS_DBM in two samples; the engine switches or is lost (R424). -/
  | laserInputLoss (engine : Fin 8) (input : Bool) (power : BitVec 16)
  /-- The modulators lock to the new input and transmission resumes (R424). -/
  | laserSwitchDone (engine : Fin 8)
  /-- Both ends lock on at least 4 lanes and the link enters ACTIVE, DEGRADED or FAILED (R432). -/
  | trainingDone (engine : Fin 8) (t : Trained)
  /-- 150 ms without lock sends the link to FAILED (R431). -/
  | trainingTimeout (engine : Fin 8)
  /-- Signal is lost on every lane and the link enters HOLD (R437). -/
  | lossOfSignal (engine : Fin 8)
  /-- HOLD lasts 50 µs without signal and the link retrains (R431). -/
  | holdTimeout (engine : Fin 8)
  /-- A bad lane is dropped and retired, degrading or failing the link (R433). -/
  | laneDrop (engine lane : Fin 8)
  /-- A flit is accepted, forwarded or answered with a NAK (R428). -/
  | flitReceive (engine : Fin 8) (f : Flit)
  /-- A NAK arrives and the sender replays from its SEQ (R428). -/
  | nak (engine : Fin 8) (seq : BitVec 24) (bad : List (Fin 8))
  /-- A transport packet is accepted once or dropped as a duplicate (R439). -/
  | transportReceive (via : Option (Fin 16)) (p : Packet)
  /-- A transport acknowledgement arrives and releases packets, adjusting the rate on ECN echo (R439). -/
  | ack (via : Option (Fin 16)) (src apsn : Nat) (ecn : Bool) (short : List (Nat × Option Nat))
  /-- A receiver acknowledges cumulatively after 2 µs (R439). -/
  | ackTimer (src : Nat)
  /-- A SACK arrives and the sender resends the missing PSNs (R456). -/
  | sack (mac : Fin 16) (src apsn : Nat) (marks : List (Fin 256)) (ecn : Bool)
  /-- A SACK is sent again 2 µs later while a gap remains (R456). -/
  | sackRepeat (src : Nat)
  /-- Unacknowledged packets are resent after RTO_US, or the message ends after RETRIES (R439). -/
  | rtoExpiry (flight : Nat)
  /-- RC_INC_US passes without a decrease and the pacing rate rises (R457). -/
  | rateIncrease (mac : Fin 16) (rank : Nat)
  /-- GTIME_CFG.MEASURE_MS elapses and links measure their offsets again (R524). -/
  | timeRemeasure (links : List (Fin 8 × List Exchange))
  /-- An Ethernet port comes up or goes down on PCS lock and fault state (R448). -/
  | portLinkChange (mac : Fin 16) (up : Bool)
  /-- A received frame is classified and dropped, acted on, delivered to the transport or written to the raw queue (R450). -/
  | frameReceive (mac : Fin 16) (f : FrameIn)
  /-- A received pause's time runs out and transmission resumes (R460). -/
  | pauseExpiry (mac : Fin 16) (pri : Fin 8)
  /-- Half of PAUSE_QUANTA elapses in XOFF and the pause is sent again (R461). -/
  | pauseRefresh (mac : Fin 16) (pri : Fin 8)
  /-- Occupancy falls to XON and a pause of 0 is sent (R461). -/
  | xon (mac : Fin 16) (pri : Fin 8)
  /-- A pause or XOFF persists for WD_MS and the watchdog trips (R462). -/
  | pauseWatchdog (mac : Fin 16) (pri : Fin 8) (tx : Bool)
  /-- A verify mPacket gets no response within VERIFY_MS; after three, VERIFY_FAIL is set (R459). -/
  | verifyTimeout (mac : Fin 16)
  /-- The MAC cuts a transport segment into UDP datagrams and sends them (R455). -/
  | transportSegmentSend (flight cuts : Nat)
  /-- A staged quire is written to the trace buffer with its QUIRE record last (R529). -/
  | quireWrite
  /-- Light becomes present on a DOWN link that is not administratively down, and the link enters TRAIN (R431). -/
  | lightPresent (engine : Fin 8)
  /-- Signal returns within 50 µs on a link in HOLD, which resumes its previous state with replay (R431). -/
  | signalBack (engine : Fin 8)
  /-- A lost laser input rises back above LOSS_DBM, setting its A_OK or B_OK so that it is again available for RETURN_A or a later switch-over (R425). -/
  | laserInputReturn (engine : Fin 8) (input : Bool) (power : BitVec 16)
  /-- The WD_MS holdoff of a pause watchdog trip runs out, WD_TRIPPED clears and pause handling resumes (R462). -/
  | watchdogHoldoffEnd (mac : Fin 16) (pri : Fin 8) (tx : Bool)
  /-- Image verification ends, starting the cores in INIT or returning to WAIT_IMAGE with ERROR set (R476). -/
  | verifyDone
  /-- Verification of a submitted debug token ends, setting RESULT, possibly opening scope and drawing a new nonce (R487). -/
  | tokenVerifyDone
  /-- An SPDM request on the DOE mailbox is served by firmware with certificates, measurements or key exchange (R479). -/
  | spdmRequest (req : List (BitVec 8))
  /-- An I3C or SMBus transfer reads or writes a sideband register, including W1C of SB_ALERT, SB_ALERT_MASK and address assignment (R552). -/
  | sidebandTransfer (x : SbOp)
  /-- The report that a member's PERMUTE moves are complete arrives; when all have arrived the epoch commits (R386). -/
  | movesComplete (src group epoch : Nat)
  /-- An ATTEND's latch of its page lists ends, letting a waiting PAGE_EDIT of the context start (R404). -/
  | latchEnd (id : Nat)
  /-- A non-owner's FETCH request reaches the owner, which holds and reads the slot and returns the version (R344). -/
  | fetchRequest (src ctx tag shard parts version : Nat) (wait : Bool)
  /-- A borrower receives the revocation notice of a lend, sets REVOKING and begins moving or dropping affected objects (R253). -/
  | revocationNotice (src : Nat) (lend : Nat)
  /-- A host configuration request is answered with Retry Status before boot readiness or applied to configuration space, such as BAR sizes and capability registers (R56). -/
  | configurationRequest (r : CfgReq)
  deriving DecidableEq, Repr

end Sys2Proof
end

