-- ==== Sys2Proof/Decode.lean ====
section
/-! DEFINITION. The opcode table gives no row any bits, so no word of it spells a command. The instruction words
of the vector engine are decoded in `Machine/VxWord.lean`. -/

namespace Sys2Proof

/-- The command that a word of the opcode table spells: none, since the table gives no bits. -/
def decodeTableWord (_nbits _w : Nat) : Option Instr := none

end Sys2Proof
end

