-- ==== Sys2Proof/Config.lean ====
section
/-! DEFINITION. What an implementation fixes and the values the spec leaves open. Every constant here is
opaque: nothing can be proved of its value, so a claim about the model holds for every value of it. A function
that takes a number is applied to a counter of the state that the step advances, so that each use is a fresh
free value. The assumption log names each. -/

namespace Sys2Proof.Config

/-- The 16-bit draw number `n` of the stochastic rounding generators, in order of use (R117, R178, R180). -/
opaque srBits : Nat → BitVec 16

/-- The result that function `k` (an operation and a format) offers for input bits `x`, of which the model takes what the
bound admits (R177, R410): a fixed function of the input bits, the same on every tile. -/
opaque transCode : Nat → Nat → BitVec 32

/-- The way that pseudo-LRU replaces among `k` candidates, at use `n` (R234). -/
opaque victim : Nat → Nat → Nat

/-- The set of a translation cache that a page's entry falls in (R246). -/
opaque tlbSet : Nat → Nat → Nat

/-- The entry of a full translation-cache set that is replaced, at use `n` (R246). -/
opaque tlbVictim : Nat → Nat

/-- The compute die whose pipe group, lane group or walker serves use `n` of a split engine (R11). -/
opaque die : Nat → Bool

/-- Byte `i` of the free data with number `n`: contents that the spec leaves undefined (outputs of a command
that ended early, accumulator memory after an attention job, registers after a timed-out kernel). -/
opaque freeByte : Nat → Nat → BitVec 8

/-- A free number, at use `n`: a choice that the spec leaves to the module. -/
opaque freeNat : Nat → Nat

/-- The digest of a collective command (R369): a function of what it covers. -/
opaque digest : List Nat → BitVec 32

/-- SHAKE256 of a byte list, the given number of bytes of output (R476, R479, R487). -/
opaque shake256 : List (BitVec 8) → Nat → List (BitVec 8)

/-- Falcon-1024 verification of a signature on a message under a public key (R476, R487). -/
opaque falconVerify : List (BitVec 8) → List (BitVec 8) → List (BitVec 8) → Bool

/-- Byte `i` of the `n`-th nonce drawn from the entropy source (R487). -/
opaque nonceByte : Nat → Nat → BitVec 8

/-- The answer that firmware gives to an SPDM request (R479): its content is DMTF DSP0274's, not the spec's. -/
opaque spdmAnswer : List (BitVec 8) → Nat → List (BitVec 8)

/-- The boot ROM version that measurement 1 reports (R479). -/
opaque romVersion : List (BitVec 8)

/-- The module's stepping, major and minor (CAPS_IDENT). -/
opaque stepping : BitVec 8

/-- A function of the PCI configuration space that the PCIe Base Specification gives and the spec does not:
what a write of `v` to configuration offset `o` leaves there, given the old value. -/
opaque configWrite : Nat → BitVec 32 → BitVec 32 → BitVec 32

/-- What dword `o` of configuration space holds before software writes it (the PCIe Base Specification's, not the
spec's). -/
opaque configReset : Nat → BitVec 32

end Sys2Proof.Config
end

