-- ==== Sys2Proof/Machine/Bits.lean ====
section
/-! DEFINITION. Bit fields, signed readings and little-endian byte order (R3, R4), as plain functions on
natural numbers and byte lists. -/

namespace Sys2Proof.Machine

/-- The field of `x` that starts at bit `lo` and is `n` bits wide (R4). -/
def bits (x lo n : Nat) : Nat := x / 2 ^ lo % 2 ^ n

/-- `x` with the field at bit `lo`, `n` bits wide, holding `v` (mod 2^n); every other bit as before. -/
def setBits (x lo n v : Nat) : Nat :=
  x - bits x lo n * 2 ^ lo + v % 2 ^ n * 2 ^ lo

/-- Bit `i` of `x` (R4). -/
def bitAt (x i : Nat) : Bool := x.testBit i

/-- `x` with bit `i` set. -/
def setBit (x i : Nat) : Nat := x ||| 2 ^ i

/-- `x` with bit `i` clear. -/
def clearBit (x i : Nat) : Nat := if x.testBit i then x - 2 ^ i else x

/-- A flag as the bit that holds it. -/
def b2n (b : Bool) : Nat := if b then 1 else 0

/-- How many of the low `n` bits of `x` are set. -/
def popcount : Nat → Nat → Nat
  | 0, _ => 0
  | n + 1, x => (if x.testBit n then 1 else 0) + popcount n x

/-- The positions of the set bits among the low `n` bits of `x`, ascending. -/
def setPositions : Nat → Nat → List Nat
  | 0, _ => []
  | n + 1, x => setPositions n x ++ (if x.testBit n then [n] else [])

/-- The low `n` bits of `x` read as a two's complement number. -/
def toSigned (n x : Nat) : Int :=
  if x % 2 ^ n < 2 ^ (n - 1) then (x % 2 ^ n : Int) else (x % 2 ^ n : Int) - 2 ^ n

/-- The two's complement code of `i` in `n` bits, modulo 2^n. -/
def ofSigned (n : Nat) (i : Int) : Nat := (i % (2 ^ n : Int)).toNat

/-- `i` held to the range `[lo, hi]`. -/
def clampInt (lo hi i : Int) : Int := if i < lo then lo else if hi < i then hi else i

/-- `x` held to the range `[lo, hi]`. -/
def clampNat (lo hi x : Nat) : Nat := if x < lo then lo else if hi < x then hi else x

/-- ceil(a ÷ b). -/
def ceilDiv (a b : Nat) : Nat := (a + b - 1) / b

/-- The `n` bytes of `v`, least significant first (R3). -/
def bytesOf : Nat → Nat → List Byte
  | 0, _ => []
  | n + 1, v => BitVec.ofNat 8 v :: bytesOf n (v / 256)

/-- The number that a byte list holds, least significant byte first (R3). -/
def ofBytes : List Byte → Nat
  | [] => 0
  | b :: bs => b.toNat + 256 * ofBytes bs

/-- `n` bytes of `l` from position `i`, zero past its end. -/
def sliceBytes (l : List Byte) (i n : Nat) : List Byte :=
  let t := (l.drop i).take n
  t ++ List.replicate (n - t.length) 0

/-- The little-endian number in the `n` bytes of `l` from position `i`. -/
def field (l : List Byte) (i n : Nat) : Nat := ofBytes (sliceBytes l i n)

/-- Element-wise exclusive or of two byte lists, to the length of the first. -/
def xorBytes : List Byte → List Byte → List Byte
  | a :: as, b :: bs => (a ^^^ b) :: xorBytes as bs
  | as, [] => as
  | [], _ => []

/-- Serial order of R9 on `n`-bit values: `a` precedes `b`. -/
def precedes (n a b : Nat) : Bool :=
  let d := (b + 2 ^ n - a % 2 ^ n) % 2 ^ n
  decide (1 ≤ d) && decide (d ≤ 2 ^ (n - 1) - 1)

/-- Serial equality of R9 on `n`-bit values. -/
def serialEq (n a b : Nat) : Bool := decide (a % 2 ^ n = b % 2 ^ n)

/-- Whether `a` precedes or equals `b` (R9). -/
def reached (n a b : Nat) : Bool := precedes n a b || serialEq n a b

/-- An element inserted into a list in the order `le`. -/
def insertBy {α : Type} (le : α → α → Bool) (x : α) : List α → List α
  | [] => [x]
  | y :: ys => if le x y then x :: y :: ys else y :: insertBy le x ys

/-- A list in the order `le`. -/
def orderBy {α : Type} (le : α → α → Bool) (l : List α) : List α := l.foldr (insertBy le) []

end Sys2Proof.Machine
end

