-- ==== Sys2Proof/Machine/Sparse.lean ====
section
/-! DEFINITION. Sparse maps from natural numbers, the one form in which the model holds memories, register
files and tables: a list of (key, value) pairs with keys strictly rising and no entry equal to what an
unlisted key reads as. -/

namespace Sys2Proof.Machine

/-- A map from natural numbers held as plain data. -/
abbrev Sparse (α : Type) := List (Nat × α)

/-- The value at `k`; an unlisted key reads as `d k`. -/
def Sparse.get {α : Type} (d : Nat → α) : Sparse α → Nat → α
  | [], k => d k
  | (k', v) :: m, k => if k' = k then v else Sparse.get d m k

/-- `m` without its entry at `k`. -/
def Sparse.del {α : Type} : Sparse α → Nat → Sparse α
  | [], _ => []
  | (k', v) :: m, k => if k' = k then Sparse.del m k else (k', v) :: Sparse.del m k

/-- `m` with (k, v) placed before the first greater key. -/
def Sparse.insert {α : Type} : Sparse α → Nat → α → Sparse α
  | [], k, v => [(k, v)]
  | (k', v') :: m, k, v => if k < k' then (k, v) :: (k', v') :: m else (k', v') :: Sparse.insert m k v

/-- `m` with `v` at `k`: writing what an unlisted key reads as removes the entry. -/
def Sparse.set {α : Type} [DecidableEq α] (d : Nat → α) (m : Sparse α) (k : Nat) (v : α) : Sparse α :=
  if v = d k then Sparse.del m k else Sparse.insert (Sparse.del m k) k v

/-- Keys strictly rising. -/
def Sparse.sorted {α : Type} : Sparse α → Bool
  | [] => true
  | [_] => true
  | (k, _) :: (k', v') :: m => decide (k < k') && Sparse.sorted ((k', v') :: m)

/-- The canonical form: keys strictly rising, no entry equal to what an unlisted key reads as. -/
def Sparse.wf {α : Type} [DecidableEq α] (d : Nat → α) (m : Sparse α) : Bool :=
  Sparse.sorted m && m.all (fun p => decide (p.2 ≠ d p.1))

/-- The default of a map whose unlisted keys all read alike. -/
def always {α : Type} (a : α) : Nat → α := fun _ => a

/-- A byte memory: (address, byte) pairs; an unlisted address reads as 0. -/
abbrev Memory := List Host.Cell

/-- The byte at `a`. -/
def Memory.read (m : Memory) (a : Nat) : Byte := Sparse.get (always (0 : Byte)) m a

/-- `m` with `b` at `a`. -/
def Memory.write (m : Memory) (a : Nat) (b : Byte) : Memory := Sparse.set (always (0 : Byte)) m a b

/-- The `n` bytes from `a`. -/
def Memory.readBytes (m : Memory) (a : Nat) : Nat → List Byte
  | 0 => []
  | n + 1 => m.read a :: Memory.readBytes m (a + 1) n

/-- `m` with the bytes of `bs` from `a`. -/
def Memory.writeBytes (m : Memory) (a : Nat) : List Byte → Memory
  | [] => m
  | b :: bs => Memory.writeBytes (m.write a b) (a + 1) bs

/-- The little-endian number in the `n` bytes from `a` (R3). -/
def Memory.readNat (m : Memory) (a n : Nat) : Nat := ofBytes (m.readBytes a n)

/-- `m` with the `n` low bytes of `v` from `a`, little-endian (R3). -/
def Memory.writeNat (m : Memory) (a n v : Nat) : Memory := m.writeBytes a (bytesOf n v)

/-- `m` with every address from `a` to `a + n - 1` holding 0. -/
def Memory.clear (m : Memory) (a n : Nat) : Memory :=
  m.filter (fun p => !(decide (a ≤ p.1) && decide (p.1 < a + n)))

/-- The canonical form of a memory. -/
def Memory.wf (m : Memory) : Bool := Sparse.wf (always (0 : Byte)) m

end Sys2Proof.Machine
end

