-- ==== Sys2Proof/Machine/Float.lean ====
section
/-! DEFINITION. The number formats of the spec's chapter 04: encodings (R100 to R106), exact values,
conversions with rounding, saturation and counting (R114 to R119) and the arithmetic that rounds its exact
result once. A value is exact until a `convert` rounds it, so every rounding point of the spec is one call. -/

namespace Sys2Proof.Machine

/-- An exact value: a NaN, a signed infinity, or ±m·2^e (m = 0 keeps its sign, R105). -/
inductive FVal where
  | nan
  | inf (neg : Bool)
  | fin (neg : Bool) (m : Nat) (e : Int)
  deriving DecidableEq, Repr

/-- A floating-point format: fraction bits, exponent bits, exponent of the smallest normal, the greatest
finite magnitude as a code, whether it has infinities, and its canonical NaN (R101, R102). -/
structure FFmt where
  frac : Nat
  ebits : Nat
  emin : Int
  maxCode : Nat
  hasInf : Bool
  nanCode : Nat
  deriving DecidableEq, Repr

/-- IEEE binary32. -/
def fp32 : FFmt := ⟨23, 8, -126, 0x7F7FFFFF, true, 0x7FC00000⟩
/-- The upper half of FP32. -/
def bf16 : FFmt := ⟨7, 8, -126, 0x7F7F, true, 0x7FC0⟩
/-- IEEE binary16. -/
def fp16 : FFmt := ⟨10, 5, -14, 0x7BFF, true, 0x7E00⟩
/-- 1-4-3, no infinity (R101). -/
def e4m3 : FFmt := ⟨3, 4, -6, 0x7E, false, 0x7F⟩
/-- 1-5-2. -/
def e5m2 : FFmt := ⟨2, 5, -14, 0x7B, true, 0x7E⟩
/-- The chunk format of the matrix array, 1-8-13 with bias 127 (R106). -/
def fp22 : FFmt := ⟨13, 8, -126, 0x1FDFFF, true, 0x1FF000⟩

/-- A storable format: floating point, or two's complement of a width. -/
inductive NumFmt where
  | flt (f : FFmt)
  | int (width : Nat)
  deriving DecidableEq, Repr

/-- The 4-bit format codes; 0x9 to 0xF are reserved (R100). -/
def fmtOf : Nat → Option NumFmt
  | 0 => some (.flt fp32)
  | 1 => some (.flt bf16)
  | 2 => some (.flt fp16)
  | 3 => some (.flt e4m3)
  | 4 => some (.flt e5m2)
  | 5 => some (.int 8)
  | 6 => some (.int 4)
  | 7 => some (.int 32)
  | 8 => some (.int 64)
  | _ => none

/-- The width in bits of format `code`; 0 for a reserved code. -/
def fmtBits : Nat → Nat
  | 0 => 32 | 1 => 16 | 2 => 16 | 3 => 8 | 4 => 8 | 5 => 8 | 6 => 4 | 7 => 32 | 8 => 64
  | _ => 0

/-- Whether `code` names a floating-point format. -/
def fmtIsFloat (code : Nat) : Bool := decide (code ≤ 4)

/-- The rounding modes of R115; SR carries its 16-bit draw (R117). -/
inductive Rnd where
  | rne
  | rna
  | sr (r : Nat)
  deriving DecidableEq, Repr

/-- The exact value of code `c` of a floating-point format (R101, R103). -/
def FFmt.decode (f : FFmt) (c : Nat) : FVal :=
  let neg := bitAt c (f.frac + f.ebits)
  let mag := c % 2 ^ (f.frac + f.ebits)
  if f.maxCode < mag then
    (if f.hasInf && mag = f.maxCode + 1 then .inf neg else .nan)
  else if mag < 2 ^ f.frac then .fin neg mag (f.emin - f.frac)
  else .fin neg (2 ^ f.frac + mag % 2 ^ f.frac) (f.emin + (mag / 2 ^ f.frac : Nat) - 1 - f.frac)

/-- The exact value of code `c` of a storable format. -/
def NumFmt.decode (f : NumFmt) (c : Nat) : FVal :=
  match f with
  | .flt g => g.decode c
  | .int w =>
    let i := toSigned w c
    .fin (decide (i < 0)) i.natAbs 0

/-- floor(log2(num ÷ den)) of a positive rational. -/
def ilog2 (num den : Nat) : Int :=
  let k : Int := (num.log2 : Int) - (den.log2 : Int)
  let le := if 0 ≤ k then decide (den * 2 ^ k.toNat ≤ num) else decide (den ≤ num * 2 ^ (-k).toNat)
  if le then k else k - 1

/-- The integer nearest (by the mode) to num ÷ den (R115, R117). -/
def roundInt (r : Rnd) (num den : Nat) : Nat :=
  let q := num / den
  let rem := num % den
  match r with
  | .rne => if 2 * rem < den then q else if den < 2 * rem then q + 1 else if q % 2 = 0 then q else q + 1
  | .rna => if 2 * rem < den then q else q + 1
  | .sr d => if d % 65536 < rem * 65536 / den then q + 1 else q

/-- The magnitude code of num ÷ den rounded to the grid of `f`; it may exceed `f.maxCode`. -/
def FFmt.roundMag (f : FFmt) (r : Rnd) (num den : Nat) : Nat :=
  if num = 0 then 0
  else
    let l := ilog2 num den
    let e := if l < f.emin then f.emin else l
    let q : Int := e - f.frac
    let sig := if 0 ≤ q then roundInt r num (den * 2 ^ q.toNat) else roundInt r (num * 2 ^ (-q).toNat) den
    (e - f.emin).toNat * 2 ^ f.frac + sig

/-- The outcome of one conversion: the code, and whether R119 counts a saturation or an underflow. -/
structure Cvt where
  code : Nat
  sat : Bool := false
  ufl : Bool := false
  deriving DecidableEq, Repr

/-- The sign bit of a floating-point format as it stands in a code. -/
def FFmt.signed (f : FFmt) (neg : Bool) (mag : Nat) : Nat := mag + b2n neg * 2 ^ (f.frac + f.ebits)

/-- The signed rational ±num ÷ den converted to `f` (R115, R116, R119). -/
def FFmt.ofRat (f : FFmt) (r : Rnd) (sat : Bool) (neg : Bool) (num den : Nat) : Cvt :=
  let mag := f.roundMag r num den
  if f.maxCode < mag then
    { code := if sat then f.signed neg f.maxCode else if f.hasInf then f.signed neg (f.maxCode + 1) else f.nanCode
      sat := true }
  else { code := f.signed neg mag, ufl := decide (mag = 0) && decide (num ≠ 0) }

/-- ±num ÷ den converted to a two's complement format of `w` bits: always saturates (R118, R119). -/
def intOfRat (w : Nat) (r : Rnd) (neg : Bool) (num den : Nat) : Cvt :=
  let mag : Int := roundInt r num den
  let i : Int := if neg then -mag else mag
  let lo : Int := -(2 ^ (w - 1))
  let hi : Int := 2 ^ (w - 1) - 1
  { code := ofSigned w (clampInt lo hi i)
    sat := decide (i < lo) || decide (hi < i)
    ufl := decide (mag = 0) && decide (num ≠ 0) }

/-- An exact value as a fraction (numerator, denominator) of its magnitude. -/
def dyadic (m : Nat) (e : Int) : Nat × Nat :=
  if 0 ≤ e then (m * 2 ^ e.toNat, 1) else (m, 2 ^ (-e).toNat)

/-- An exact value converted to a storable format (R115 to R119). -/
def NumFmt.ofVal (f : NumFmt) (r : Rnd) (sat : Bool) (x : FVal) : Cvt :=
  match f, x with
  | .flt g, .nan => { code := g.nanCode }
  | .flt g, .inf neg =>
    { code := if g.hasInf then g.signed neg (g.maxCode + 1) else if sat then g.signed neg g.maxCode else g.nanCode }
  | .flt g, .fin neg m e => let q := dyadic m e; g.ofRat r sat neg q.1 q.2
  | .int _, .nan => { code := 0 }
  | .int w, .inf neg => { code := if neg then 2 ^ (w - 1) else 2 ^ (w - 1) - 1 }
  | .int w, .fin neg m e => let q := dyadic m e; intOfRat w r neg q.1 q.2

/-- `round_rne(f, x)`: the rounding of every arithmetic result; overflow gives an infinity. -/
def FFmt.rne (f : FFmt) (x : FVal) : Nat := ((NumFmt.flt f).ofVal .rne false x).code

/-- The negation of an exact value. -/
def FVal.neg : FVal → FVal
  | .nan => .nan
  | .inf s => .inf (!s)
  | .fin s m e => .fin (!s) m e

/-- The magnitude of an exact value. -/
def FVal.abs : FVal → FVal
  | .nan => .nan
  | .inf _ => .inf false
  | .fin _ m e => .fin false m e

/-- The signed integer m·2^(e−f) of a finite value for an exponent f not above e. -/
def signedAt (neg : Bool) (m : Nat) (e f : Int) : Int :=
  let v : Int := (m * 2 ^ (e - f).toNat : Nat)
  if neg then -v else v

/-- The exact sum; an exact zero is +0 unless both operands are −0 (R105). -/
def FVal.add : FVal → FVal → FVal
  | .nan, _ => .nan
  | _, .nan => .nan
  | .inf s, .inf t => if s = t then .inf s else .nan
  | .inf s, _ => .inf s
  | _, .inf t => .inf t
  | .fin s m e, .fin t n g =>
    let f := if e ≤ g then e else g
    let v := signedAt s m e f + signedAt t n g f
    if v = 0 then .fin (s && t && decide (m = 0) && decide (n = 0)) 0 f
    else .fin (decide (v < 0)) v.natAbs f

/-- The exact difference. -/
def FVal.sub (x y : FVal) : FVal := FVal.add x (FVal.neg y)

/-- The exact product. -/
def FVal.mul : FVal → FVal → FVal
  | .nan, _ => .nan
  | _, .nan => .nan
  | .inf s, .inf t => .inf (s != t)
  | .inf s, .fin t n _ => if n = 0 then .nan else .inf (s != t)
  | .fin s m _, .inf t => if m = 0 then .nan else .inf (s != t)
  | .fin s m e, .fin t n g => .fin (s != t) (m * n) (e + g)

/-- x ÷ y rounded once to nearest even in `f`. -/
def FFmt.div (f : FFmt) (x y : FVal) : Nat :=
  match x, y with
  | .nan, _ => f.nanCode
  | _, .nan => f.nanCode
  | .inf _, .inf _ => f.nanCode
  | .inf s, .fin t _ _ => f.rne (.inf (s != t))
  | .fin s _ _, .inf t => f.signed (s != t) 0
  | .fin s m e, .fin t n g =>
    if n = 0 then (if m = 0 then f.nanCode else f.rne (.inf (s != t)))
    else
      let p := dyadic m e
      let q := dyadic n g
      (f.ofRat .rne false (s != t) (p.1 * q.2) (p.2 * q.1)).code

/-- The integer square root, by `k` binary digits from the top. -/
def isqrtGo : Nat → Nat → Nat → Nat
  | 0, _, r => r
  | k + 1, x, r => if (r + 2 ^ k) * (r + 2 ^ k) ≤ x then isqrtGo k x (r + 2 ^ k) else isqrtGo k x r

/-- floor(√x). -/
def isqrt (x : Nat) : Nat := isqrtGo (x.log2 / 2 + 1) x 0

/-- √x rounded once to nearest even in `f`; a negative value gives a NaN and √(−0) is −0. -/
def FFmt.sqrt (f : FFmt) (x : FVal) : Nat :=
  match x with
  | .nan => f.nanCode
  | .inf s => if s then f.nanCode else f.rne (.inf false)
  | .fin s m e =>
    if m = 0 then f.signed s 0
    else if s then f.nanCode
    else
      -- m·2^e with an even exponent and 2·(frac + 4) extra bits, then one sticky bit
      let x0 := if e % 2 = 0 then (m, e) else (m * 2, e - 1)
      let k := f.frac + 40
      let v := x0.1 * 2 ^ (2 * k)
      let r := isqrt v
      let st := if r * r = v then 0 else 1
      f.rne (.fin false (2 * r + st) (x0.2 / 2 - k - 1))

/-- x < y on exact values; false when either is a NaN. -/
def FVal.lt : FVal → FVal → Bool
  | .nan, _ => false
  | _, .nan => false
  | .inf s, .inf t => s && !t
  | .inf s, .fin _ _ _ => s
  | .fin _ _ _, .inf t => !t
  | .fin s m e, .fin t n g =>
    let f := if e ≤ g then e else g
    decide (signedAt s m e f < signedAt t n g f)

/-- x = y on exact values (+0 = −0); false when either is a NaN. -/
def FVal.eq : FVal → FVal → Bool
  | .nan, _ => false
  | _, .nan => false
  | .inf s, .inf t => s == t
  | .inf _, .fin _ _ _ => false
  | .fin _ _ _, .inf _ => false
  | .fin s m e, .fin t n g =>
    let f := if e ≤ g then e else g
    decide (signedAt s m e f = signedAt t n g f)

/-- Whether the value is a NaN. -/
def FVal.isNan : FVal → Bool
  | .nan => true
  | _ => false

/-- Whether the value is a NaN or an infinity: a special value (R149). -/
def FVal.isSpecial : FVal → Bool
  | .fin _ _ _ => false
  | _ => true

/-- Whether the value is zero of either sign. -/
def FVal.isZero : FVal → Bool
  | .fin _ 0 _ => true
  | _ => false

/-- The natural number `n` as an exact value. -/
def FVal.ofNat (n : Nat) : FVal := .fin false n 0

/-- FP32 addition of codes, rounded once (RNE). -/
def addF32 (a b : Nat) : Nat := fp32.rne (FVal.add (fp32.decode a) (fp32.decode b))
/-- FP32 subtraction of codes, rounded once (RNE). -/
def subF32 (a b : Nat) : Nat := fp32.rne (FVal.sub (fp32.decode a) (fp32.decode b))
/-- FP32 multiplication of codes, rounded once (RNE). -/
def mulF32 (a b : Nat) : Nat := fp32.rne (FVal.mul (fp32.decode a) (fp32.decode b))
/-- FP32 division of codes, rounded once (RNE). -/
def divF32 (a b : Nat) : Nat := fp32.div (fp32.decode a) (fp32.decode b)
/-- FP32 square root of a code, rounded once (RNE). -/
def sqrtF32 (a : Nat) : Nat := fp32.sqrt (fp32.decode a)
/-- FP32 a·b + c with one rounding (RNE). -/
def fmaF32 (a b c : Nat) : Nat :=
  fp32.rne (FVal.add (FVal.mul (fp32.decode a) (fp32.decode b)) (fp32.decode c))

/-- The FP32 code of a natural number, rounded once. -/
def natF32 (n : Nat) : Nat := fp32.rne (FVal.ofNat n)

/-- Code `c` of format `src` converted to FP32 (R114). -/
def toF32 (src c : Nat) : Nat :=
  match fmtOf src with
  | some f => fp32.rne (f.decode c)
  | none => 0

/-- Code `c` of format `src` converted to format `dst` (R115 to R118). -/
def cvtCode (src dst : Nat) (r : Rnd) (sat : Bool) (c : Nat) : Cvt :=
  match fmtOf src, fmtOf dst with
  | some f, some g => g.ofVal r sat (f.decode c)
  | _, _ => { code := 0 }

/-- The largest finite magnitude of a format, as an exact value: Q of R121. -/
def fmtMax (code : Nat) : FVal :=
  match fmtOf code with
  | some (.flt f) => f.decode f.maxCode
  | some (.int w) => .fin false (2 ^ (w - 1) - 1) 0
  | none => .fin false 0 0

/-- The greatest magnitude of a list of exact values; a NaN or an infinity wins. -/
def amax : List FVal → FVal
  | [] => .fin false 0 0
  | x :: xs =>
    let m := amax xs
    if x.isNan || m.isNan then .nan else if FVal.lt m x.abs then x.abs else m

/-- The seed of a group (R121): the scale's code in format `sfmt`, and whether it is a special value. -/
def seedScale (xs : List FVal) (target sfmt : Nat) : Nat × Bool :=
  let a := amax xs
  if a.isSpecial then ((cvtCode 0 sfmt .rne false (natF32 1)).code, true)
  else if a.isZero then ((cvtCode 0 sfmt .rne false (natF32 1)).code, false)
  else ((cvtCode 0 sfmt .rne false (fp32.div a (fmtMax target))).code, false)

/-- Element `i` of a packed vector of format `code` in bytes `bs` (R104). -/
def elemAt (code : Nat) (bs : List Byte) (i : Nat) : Nat :=
  let w := fmtBits code
  if w = 4 then bits (field bs (i / 2) 1) (i % 2 * 4) 4 else field bs (i * (w / 8)) (w / 8)

/-- The first `n` elements of a packed vector. -/
def elems (code : Nat) (bs : List Byte) (n : Nat) : List Nat := (List.range n).map (elemAt code bs)

/-- How many bytes `n` packed elements of format `code` take (R104). -/
def packedBytes (code n : Nat) : Nat := ceilDiv (n * fmtBits code) 8

/-- Packs INT4 codes two to a byte, the last high half 0 (R104). -/
def packNibbles : List Nat → List Byte
  | [] => []
  | [a] => [BitVec.ofNat 8 (a % 16)]
  | a :: b :: t => BitVec.ofNat 8 (a % 16 + 16 * (b % 16)) :: packNibbles t

/-- Packs element codes of format `code` (R104). -/
def packElems (code : Nat) (l : List Nat) : List Byte :=
  if fmtBits code = 4 then packNibbles l else l.flatMap (bytesOf (fmtBits code / 8))

end Sys2Proof.Machine
end

