-- ==== Sys2Proof/Machine/Regs.lean ====
section
/-! DEFINITION. The registers of BAR0 (R5 to R7, R26): for each its offset from the bottom of BAR0, its array
dimensions (stride, count), its width and its fields with access code, power-up value and the range that its
chapter clamps stored values to. Written from the register tables of the spec's chapters; a reserved bit is a
bit no field names (R6). A field whose power-up value the spec does not give is listed in the assumption log. -/

namespace Sys2Proof.Machine

/-- The access codes of R5. -/
inductive Acc where
  | RO | RW | WO | W1C | W1S | RC
  deriving DecidableEq, Repr

/-- The registers, by the spec's names. -/
inductive RegId where
  | CAPS_IDENT | CAPS_LAYOUT | CAPS_GEN | CAPS_COUNTS | CAPS_TILE_MASK | CAPS_STACK_MASK | CAPS_CLOCKS
  | CAPS_LIMITS | CAPS_HOST | CAPS_CHANNEL_MASK | CAPS_OE | CAPS_MEM_RAW | CAPS_MEM_CHECKED | CAPS_MEM_ADDR
  | HITCH_STATUS | HITCH_CFG | HITCH_BAR2_MAP | HITCH_HDM_MAP | HITCH_RESUME | HITCH_CUT_STATUS
  | HITCH_WIN_BASE | HITCH_WIN_LIMIT | HITCH_WIN_TARGET | HITCH_WIN_CTL | MBX_MSG | MBX_TAKE | MBX_STATUS
  | MBX_LOCK | MBX_LOCK_FORCE | MBX_DB | MBX_DB_ACK | MBX_DB_MASK | MBX_ROUTE | MBX_LOCK_AS | SPAOG_DB
  | SPAOG_CQ_DB | SPAOG_SQ_BASE | SPAOG_SQ_CFG | SPAOG_SQ_HEAD | SPAOG_SQ_STATUS | SPAOG_SQ_DBVAL
  | SPAOG_CQ_BASE | SPAOG_CQ_TAILWB | SPAOG_CQ_CFG | SPAOG_CQ_TAIL | SPAOG_CQ_HEAD | SPAOG_GATE
  | SPAOG_EVT_ROUTE | SPAOG_EVT_PEND | TILE_STATUS | TILE_CFG | TILE_CTL | TILE_CHECK_CFG | TILE_CHECK_FAIL
  | TILE_CHECK_SKIPPED | TILE_CHECK_REPLAYS | TILE_CVT_SAT | TILE_CVT_UFL | TILE_ARRAY_BUSY | TILE_FLAG
  | TILE_GRP | TILE_SLOT_OPEN | TILE_VX_CFG | TILE_VX_STATUS | TILE_VEC_BUSY | TILE_VX_SVC_CYCLES
  | TILE_VX_DETECT | TILE_VX_REPLAYS | STACK_STATUS | STACK_GEOM | STACK_CFG | STACK_CTL | STACK_RD_LINES
  | STACK_WR_LINES | STACK_CHK_FETCH | STACK_CRC_MISMATCH | STACK_REREAD_OK | STACK_RECON | STACK_LOST
  | STACK_ODECC_CORR | STACK_PPR_DONE | STACK_PAGES_RETIRED | STACK_PPR_LOG | REAM_STATUS | REAM_DELTAS
  | REAM_RECON | REAM_DOUBLE | REAM_SCRUB_MISMATCH | REAM_FRAME_CLASS | VAT_STATUS | VAT_CFG
  | VAT_KEEP_RELEASE | VAT_SLICE_MASK_LO | VAT_SLICE_MASK_HI | VAT_KEEP_QUOTA | VAT_KEEP_LINES | VAT_HITS
  | VAT_MISSES | VAT_WRITEBACKS | VAT_EVICTIONS | VAT_ATOMICS | VAT_KEEP_DENIED | VAT_LAST_DISCARDS
  | VAT_DETECT | VAT_LOST | DROVER_STATUS | DROVER_CFG | DROVER_TIMEOUT | DROVER_QUOTA | DROVER_HOSTPOOL
  | DROVER_BORROW | DROVER_WALKS | DROVER_MIGRATIONS | DROVER_FLIP_ABANDON | DROVER_EVICTIONS | DROVER_DROPS
  | DROVER_TIER_FAIL | DROVER_FLIP_MAX_NS | DROVER_DROP_LOG | BEATER_STATUS | BEATER_CFG | BEATER_TABLES
  | BEATER_KEYS | BEATER_DISTINCT | BEATER_SECTORS_RD | BEATER_SECTORS_WR | BEATER_REPLICA_ROWS
  | BEATER_REMOTE_ROWS | BEATER_SERVED_ROWS | BEATER_ROWS_UPDATED | BEATER_SKIPPED | BEATER_EMPTY_BAGS
  | BEATER_CVT_SAT | BEATER_CVT_UFL | BEATER_DETECT | BEATER_RERUNS | BEATER_SB_STATUS | BEATER_SB_CFG
  | BEATER_SB_CTX | BEATER_SB_POOL_VA | BEATER_SB_POOL_CFG | BEATER_SB_GROUP | BEATER_SB_PEEK_IDX
  | BEATER_SB_PEEK | BEATER_SB_INSERTS | BEATER_SB_TRACK_MISS | BEATER_SB_PROMOTED | BEATER_SB_REFUSED
  | BEATER_SB_DEMOTED | BEATER_SB_REREADS | BEATER_SB_SKEW | BEATER_SB_DROPPED | BEATER_SB_DETECT
  | FARRIER_STATUS | FARRIER_CFG | FARRIER_SHARDS | FARRIER_CLIP_CFG | FARRIER_CLIP | FARRIER_MON_BAND
  | FARRIER_MON_LOG | FARRIER_COMMITS | FARRIER_ELEMENTS | FARRIER_RECORDS | FARRIER_FETCHES
  | FARRIER_LAGGED_RERUNS | FARRIER_DETECT | FARRIER_CHUNK_RERUNS | FARRIER_CVT_SAT | FARRIER_CVT_UFL
  | FARRIER_MON_EVENTS | FARRIER_MON_LOST | RELAY_STATUS | RELAY_CFG | RELAY_INFLIGHT | RELAY_GROUP
  | RELAY_BYTES_TX | RELAY_BYTES_RX | RELAY_COLLECTIVES | RELAY_CANCELLED | RELAY_TIMEOUTS | RELAY_RESENDS
  | RELAY_CVT_SAT | RELAY_CVT_UFL | RELAY_CREDIT_REFUSED | BLINK_STATUS | BLINK_CFG | BLINK_PTAB
  | BLINK_COMMANDS | BLINK_UNITS | BLINK_PAGES | BLINK_PAGES_SKIPPED | BLINK_EMPTY_ROWS | BLINK_DETECT
  | BLINK_RERUNS | BLINK_CVT_SAT | BLINK_CVT_UFL | HOKUKE_STATUS | HOKUKE_CFG | HOKUKE_ROUTE
  | HOKUKE_TX_PACKETS | HOKUKE_RX_PACKETS | HOKUKE_RESENDS | HOKUKE_TRANSIT_FLITS | HOKUKE_UNREACHABLE
  | OE_STATUS | OE_CFG | OE_LASER | OE_LANE | OE_PEER | OE_PEER_OFFSET | OE_PEER_DELAY | OE_FLITS_TX
  | OE_FLITS_RX | OE_CRC_FAIL | OE_REPLAYS | OE_FEC_CORR | OE_FEC_UNCORR | OE_LASER_SWITCHES | OE_LANE_DROPS
  | OE_RETRAINS | HOKUKE_PEER | MAC_STATUS | MAC_CFG | MAC_ADDR | MAC_L3_CFG | MAC_IP4 | MAC_IP6 | MAC_FLOW
  | MAC_XOFF | MAC_PREEMPT | MAC_RC_CFG | MAC_TS_CFG | MAC_TXTS_NS | MAC_TXTS_POP | MAC_RAWRX_BASE
  | MAC_RAWTX_BASE | MAC_RAWRX_CFG | MAC_RAWTX_CFG | MAC_RAWRX_HEAD | MAC_RAWRX_TAIL | MAC_RAWTX_TAIL
  | MAC_RAWTX_DONE | MAC_STATS_HALF_RX | MAC_STATS_HALF_TX | MAC_UC | MAC_HASH | OSTLER_BOOT_STATUS
  | OSTLER_BOOT_CTL | OSTLER_FW_INFO | OSTLER_CLAMP_COUNT | OSTLER_DEBUG_NONCE | OSTLER_DEBUG_CTL
  | OSTLER_DEBUG_STATUS | OSTLER_SERIAL_LO | OSTLER_SERIAL_HI | OSTLER_FAULT_CFG | OSTLER_FAULT_STATUS
  | OSTLER_ERRLOG_STATUS | OSTLER_ERRLOG_CONSUMED | OSTLER_ABSORBED | OSTLER_RETURNED | OSTLER_STEP_RESTARTS
  | OSTLER_TILES_RETIRED | OSTLER_INTERRUPT_MAX_NS | TRACE_CFG | TRACE_BUF_BASE | TRACE_BUF_CFG
  | TRACE_TRIG_CFG | TRACE_CTL | TRACE_STATUS | TRACE_DROPPED | GTIME_NOW | GTIME_STEP | GTIME_SLEW
  | GTIME_CFG | PERF_SEL | PERF_CTR | PERF_THRESH | PERF_CTL | PERF_STATUS | PERF_HOST_RD | PERF_HOST_WR
  | PERF_DEV_WR | PERF_DEV_RD | PERF_DOORBELLS | PERF_MSIX | CURB_POWER | CURB_ENERGY_UJ | CURB_TEMP
  | CURB_ACTIONS | CURB_GAP_CYCLES | CURB_THROTTLE_CYCLES | OSTLER_GPIO | CURB_CFG | CURB_STATUS | MAC_RX
  | MAC_TX | MSIX_ADDR | MSIX_DATA | MSIX_CTL | MSIX_PBA
  deriving DecidableEq, Repr

/-- A register field: lowest bit, width, access code, power-up value and the range of stored values. -/
structure Fld where
  reg : RegId
  lo : Nat
  width : Nat
  acc : Acc
  reset : Nat
  smin : Nat := 0
  smax : Nat := 2 ^ 64
  deriving DecidableEq, Repr

/-- A register: its name, BAR0 offset of its first element, array dimensions as (stride, count) outermost first, width in
bits, fields. -/
structure RegInfo where
  reg : RegId
  base : Nat
  dims : List (Nat × Nat)
  width : Nat
  fields : List Fld
  deriving DecidableEq, Repr

namespace Fld

-- 01_module_architecture.md
def CAPS_IDENT_PART : Fld := ⟨.CAPS_IDENT, 0, 16, .RO, 18448, 0, 2 ^ 64⟩
def CAPS_IDENT_STEP_MAJOR : Fld := ⟨.CAPS_IDENT, 16, 4, .RO, 0, 0, 2 ^ 64⟩
def CAPS_IDENT_STEP_MINOR : Fld := ⟨.CAPS_IDENT, 20, 4, .RO, 0, 0, 2 ^ 64⟩
def CAPS_IDENT_FAMILY : Fld := ⟨.CAPS_IDENT, 24, 8, .RO, 78, 0, 2 ^ 64⟩
def CAPS_LAYOUT_VERSION : Fld := ⟨.CAPS_LAYOUT, 0, 8, .RO, 1, 0, 2 ^ 64⟩
def CAPS_LAYOUT_ENVELOPE : Fld := ⟨.CAPS_LAYOUT, 8, 2, .RO, 0, 0, 2 ^ 64⟩
def CAPS_GEN_GEN : Fld := ⟨.CAPS_GEN, 0, 32, .RO, 0, 0, 2 ^ 64⟩
def CAPS_COUNTS_TILES : Fld := ⟨.CAPS_COUNTS, 0, 8, .RO, 64, 0, 2 ^ 64⟩
def CAPS_COUNTS_STACKS : Fld := ⟨.CAPS_COUNTS, 8, 4, .RO, 8, 0, 2 ^ 64⟩
def CAPS_COUNTS_ENGINES : Fld := ⟨.CAPS_COUNTS, 12, 4, .RO, 8, 0, 2 ^ 64⟩
def CAPS_COUNTS_CHANNELS : Fld := ⟨.CAPS_COUNTS, 16, 8, .RO, 128, 0, 2 ^ 64⟩
def CAPS_COUNTS_VAT_SLICES : Fld := ⟨.CAPS_COUNTS, 24, 8, .RO, 128, 0, 2 ^ 64⟩
def CAPS_TILE_MASK_TILE : Fld := ⟨.CAPS_TILE_MASK, 0, 64, .RO, 0xffffffffffffffff, 0, 2 ^ 64⟩
def CAPS_STACK_MASK_STACK : Fld := ⟨.CAPS_STACK_MASK, 0, 8, .RO, 255, 0, 2 ^ 64⟩
def CAPS_CLOCKS_TILE_MHZ : Fld := ⟨.CAPS_CLOCKS, 0, 16, .RO, 2500, 0, 2 ^ 64⟩
def CAPS_CLOCKS_VAT_MHZ : Fld := ⟨.CAPS_CLOCKS, 16, 16, .RO, 2000, 0, 2 ^ 64⟩
def CAPS_CLOCKS_ENGINE_MHZ : Fld := ⟨.CAPS_CLOCKS, 32, 16, .RO, 1250, 0, 2 ^ 64⟩
def CAPS_CLOCKS_OSTLER_MHZ : Fld := ⟨.CAPS_CLOCKS, 48, 16, .RO, 1500, 0, 2 ^ 64⟩
def CAPS_LIMITS_CONTEXTS : Fld := ⟨.CAPS_LIMITS, 0, 8, .RO, 16, 0, 2 ^ 64⟩
def CAPS_LIMITS_RINGS : Fld := ⟨.CAPS_LIMITS, 8, 12, .RO, 256, 0, 2 ^ 64⟩
def CAPS_LIMITS_MAILBOXES : Fld := ⟨.CAPS_LIMITS, 20, 8, .RO, 16, 0, 2 ^ 64⟩
def CAPS_HOST_WIDTH : Fld := ⟨.CAPS_HOST, 0, 5, .RO, 0, 0, 2 ^ 64⟩
def CAPS_HOST_GEN : Fld := ⟨.CAPS_HOST, 8, 4, .RO, 0, 0, 2 ^ 64⟩
def CAPS_HOST_CXL : Fld := ⟨.CAPS_HOST, 12, 1, .RO, 0, 0, 2 ^ 64⟩
def CAPS_CHANNEL_MASK_CHANNEL : Fld := ⟨.CAPS_CHANNEL_MASK, 0, 16, .RO, 65535, 0, 2 ^ 64⟩
def CAPS_CHANNEL_MASK_PSEUDO : Fld := ⟨.CAPS_CHANNEL_MASK, 16, 32, .RO, 0xffffffff, 0, 2 ^ 64⟩
def CAPS_OE_LANE_MASK : Fld := ⟨.CAPS_OE, 0, 8, .RO, 255, 0, 2 ^ 64⟩
def CAPS_OE_PRESENT : Fld := ⟨.CAPS_OE, 8, 1, .RO, 1, 0, 2 ^ 64⟩
def CAPS_OE_ROLE : Fld := ⟨.CAPS_OE, 9, 2, .RO, 0, 0, 2 ^ 64⟩
def CAPS_MEM_RAW_BYTES : Fld := ⟨.CAPS_MEM_RAW, 0, 64, .RO, 0x4800000000, 0, 2 ^ 64⟩
def CAPS_MEM_CHECKED_BYTES : Fld := ⟨.CAPS_MEM_CHECKED, 0, 64, .RO, 0x45c0000000, 0, 2 ^ 64⟩
def CAPS_MEM_ADDR_BYTES : Fld := ⟨.CAPS_MEM_ADDR, 0, 64, .RO, 0x4580000000, 0, 2 ^ 64⟩
-- 02_hitch_host_link.md
def HITCH_STATUS_LINK_UP : Fld := ⟨.HITCH_STATUS, 0, 1, .RO, 0, 0, 2 ^ 64⟩
def HITCH_STATUS_CUT_ACTIVE : Fld := ⟨.HITCH_STATUS, 1, 1, .RO, 0, 0, 2 ^ 64⟩
def HITCH_STATUS_PAUSED : Fld := ⟨.HITCH_STATUS, 2, 1, .RO, 0, 0, 2 ^ 64⟩
def HITCH_STATUS_HOLD_FULL : Fld := ⟨.HITCH_STATUS, 3, 1, .RO, 0, 0, 2 ^ 64⟩
def HITCH_STATUS_LAST_REASON : Fld := ⟨.HITCH_STATUS, 4, 3, .RO, 0, 0, 2 ^ 64⟩
def HITCH_STATUS_IDE_STATE : Fld := ⟨.HITCH_STATUS, 7, 2, .RO, 0, 0, 2 ^ 64⟩
def HITCH_CFG_RIDE_THROUGH : Fld := ⟨.HITCH_CFG, 0, 1, .RW, 0, 0, 2 ^ 64⟩
def HITCH_CFG_CR_PATH : Fld := ⟨.HITCH_CFG, 1, 1, .RW, 0, 0, 2 ^ 64⟩
def HITCH_CFG_P2P : Fld := ⟨.HITCH_CFG, 2, 1, .RW, 0, 0, 2 ^ 64⟩
def HITCH_BAR2_MAP_CTX : Fld := ⟨.HITCH_BAR2_MAP, 0, 4, .RW, 0, 0, 2 ^ 64⟩
def HITCH_BAR2_MAP_VALID : Fld := ⟨.HITCH_BAR2_MAP, 7, 1, .RW, 0, 0, 2 ^ 64⟩
def HITCH_BAR2_MAP_VA_BASE : Fld := ⟨.HITCH_BAR2_MAP, 21, 35, .RW, 0, 0, 2 ^ 64⟩
def HITCH_HDM_MAP_CTX : Fld := ⟨.HITCH_HDM_MAP, 0, 4, .RW, 0, 0, 2 ^ 64⟩
def HITCH_HDM_MAP_VALID : Fld := ⟨.HITCH_HDM_MAP, 7, 1, .RW, 0, 0, 2 ^ 64⟩
def HITCH_HDM_MAP_VA_BASE : Fld := ⟨.HITCH_HDM_MAP, 28, 28, .RW, 0, 0, 2 ^ 64⟩
def HITCH_RESUME_GO : Fld := ⟨.HITCH_RESUME, 0, 1, .WO, 0, 0, 2 ^ 64⟩
def HITCH_CUT_STATUS_COUNT : Fld := ⟨.HITCH_CUT_STATUS, 0, 11, .RO, 0, 0, 2 ^ 64⟩
def HITCH_CUT_STATUS_OVERFLOW : Fld := ⟨.HITCH_CUT_STATUS, 16, 16, .RO, 0, 0, 2 ^ 64⟩
def HITCH_CUT_STATUS_CUT_GEN : Fld := ⟨.HITCH_CUT_STATUS, 32, 16, .RO, 0, 0, 2 ^ 64⟩
def HITCH_WIN_BASE_ADDR : Fld := ⟨.HITCH_WIN_BASE, 0, 64, .RW, 0, 0, 2 ^ 64⟩
def HITCH_WIN_LIMIT_ADDR : Fld := ⟨.HITCH_WIN_LIMIT, 0, 64, .RW, 0, 0, 2 ^ 64⟩
def HITCH_WIN_TARGET_TARGET_VA : Fld := ⟨.HITCH_WIN_TARGET, 12, 44, .RW, 0, 0, 2 ^ 64⟩
def HITCH_WIN_CTL_ENABLE : Fld := ⟨.HITCH_WIN_CTL, 0, 1, .RW, 0, 0, 2 ^ 64⟩
def HITCH_WIN_CTL_READ : Fld := ⟨.HITCH_WIN_CTL, 1, 1, .RW, 0, 0, 2 ^ 64⟩
def HITCH_WIN_CTL_ORDERED : Fld := ⟨.HITCH_WIN_CTL, 2, 1, .RW, 1, 0, 2 ^ 64⟩
def HITCH_WIN_CTL_REQ_CHECK : Fld := ⟨.HITCH_WIN_CTL, 3, 1, .RW, 0, 0, 2 ^ 64⟩
def HITCH_WIN_CTL_CTX : Fld := ⟨.HITCH_WIN_CTL, 4, 4, .RW, 0, 0, 2 ^ 64⟩
def HITCH_WIN_CTL_REQUESTER : Fld := ⟨.HITCH_WIN_CTL, 16, 16, .RW, 0, 0, 2 ^ 64⟩
-- 03_spaog_commands.md
def MBX_MSG_MSG : Fld := ⟨.MBX_MSG, 0, 32, .WO, 0, 0, 2 ^ 64⟩
def MBX_TAKE_MSG : Fld := ⟨.MBX_TAKE, 0, 32, .RC, 0, 0, 2 ^ 64⟩
def MBX_TAKE_FULL : Fld := ⟨.MBX_TAKE, 32, 1, .RC, 0, 0, 2 ^ 64⟩
def MBX_STATUS_FULL : Fld := ⟨.MBX_STATUS, 0, 1, .RO, 0, 0, 2 ^ 64⟩
def MBX_STATUS_OVERRUN : Fld := ⟨.MBX_STATUS, 1, 1, .W1C, 0, 0, 2 ^ 64⟩
def MBX_STATUS_LOCK_ERR : Fld := ⟨.MBX_STATUS, 2, 1, .W1C, 0, 0, 2 ^ 64⟩
def MBX_STATUS_OWNER : Fld := ⟨.MBX_STATUS, 8, 8, .RO, 0, 0, 2 ^ 64⟩
def MBX_LOCK_OWNER : Fld := ⟨.MBX_LOCK, 0, 8, .RW, 0, 0, 2 ^ 64⟩
def MBX_LOCK_FORCE_RELEASE : Fld := ⟨.MBX_LOCK_FORCE, 0, 1, .WO, 0, 0, 2 ^ 64⟩
def MBX_DB_BITS : Fld := ⟨.MBX_DB, 0, 32, .W1S, 0, 0, 2 ^ 64⟩
def MBX_DB_ACK_BITS : Fld := ⟨.MBX_DB_ACK, 0, 32, .W1C, 0, 0, 2 ^ 64⟩
def MBX_DB_MASK_MASK : Fld := ⟨.MBX_DB_MASK, 0, 32, .RW, 0xffffffff, 0, 2 ^ 64⟩
def MBX_ROUTE_CLASS : Fld := ⟨.MBX_ROUTE, 0, 2, .RW, 1, 0, 2 ^ 64⟩
def MBX_ROUTE_INDEX : Fld := ⟨.MBX_ROUTE, 2, 10, .RW, 0, 0, 2 ^ 64⟩
def MBX_ROUTE_FLAG : Fld := ⟨.MBX_ROUTE, 12, 4, .RW, 0, 0, 2 ^ 64⟩
def MBX_LOCK_AS_OWNER : Fld := ⟨.MBX_LOCK_AS, 0, 8, .RW, 0, 0, 2 ^ 64⟩
def SPAOG_DB_SEQ : Fld := ⟨.SPAOG_DB, 0, 32, .WO, 0, 0, 2 ^ 64⟩
def SPAOG_CQ_DB_CONSUMED : Fld := ⟨.SPAOG_CQ_DB, 0, 32, .WO, 0, 0, 2 ^ 64⟩
def SPAOG_SQ_BASE_LOC : Fld := ⟨.SPAOG_SQ_BASE, 0, 1, .RW, 0, 0, 2 ^ 64⟩
def SPAOG_SQ_BASE_ADDR : Fld := ⟨.SPAOG_SQ_BASE, 12, 52, .RW, 0, 0, 2 ^ 64⟩
def SPAOG_SQ_CFG_ENABLE : Fld := ⟨.SPAOG_SQ_CFG, 0, 1, .RW, 0, 0, 2 ^ 64⟩
def SPAOG_SQ_CFG_SIZE_LOG2 : Fld := ⟨.SPAOG_SQ_CFG, 1, 5, .RW, 6, 0, 2 ^ 64⟩
def SPAOG_SQ_CFG_CTX : Fld := ⟨.SPAOG_SQ_CFG, 6, 4, .RW, 0, 0, 2 ^ 64⟩
def SPAOG_SQ_CFG_PRIORITY : Fld := ⟨.SPAOG_SQ_CFG, 10, 2, .RW, 0, 0, 2 ^ 64⟩
def SPAOG_SQ_CFG_CQ : Fld := ⟨.SPAOG_SQ_CFG, 12, 8, .RW, 0, 0, 2 ^ 64⟩
def SPAOG_SQ_CFG_TILE : Fld := ⟨.SPAOG_SQ_CFG, 20, 6, .RW, 0, 0, 2 ^ 64⟩
def SPAOG_SQ_HEAD_SEQ : Fld := ⟨.SPAOG_SQ_HEAD, 0, 32, .RW, 0, 0, 2 ^ 64⟩
def SPAOG_SQ_HEAD_POS : Fld := ⟨.SPAOG_SQ_HEAD, 32, 16, .RW, 0, 0, 2 ^ 64⟩
def SPAOG_SQ_STATUS_STATE : Fld := ⟨.SPAOG_SQ_STATUS, 0, 2, .RO, 0, 0, 2 ^ 64⟩
def SPAOG_SQ_STATUS_EARLY : Fld := ⟨.SPAOG_SQ_STATUS, 2, 14, .RO, 0, 0, 2 ^ 64⟩
def SPAOG_SQ_STATUS_EARLY_LOST : Fld := ⟨.SPAOG_SQ_STATUS, 16, 16, .RO, 0, 0, 2 ^ 64⟩
def SPAOG_SQ_DBVAL_LIMIT : Fld := ⟨.SPAOG_SQ_DBVAL, 0, 32, .RO, 0xffffffff, 0, 2 ^ 64⟩
def SPAOG_CQ_BASE_LOC : Fld := ⟨.SPAOG_CQ_BASE, 0, 1, .RW, 0, 0, 2 ^ 64⟩
def SPAOG_CQ_BASE_ADDR : Fld := ⟨.SPAOG_CQ_BASE, 12, 52, .RW, 0, 0, 2 ^ 64⟩
def SPAOG_CQ_TAILWB_LOC : Fld := ⟨.SPAOG_CQ_TAILWB, 0, 1, .RW, 0, 0, 2 ^ 64⟩
def SPAOG_CQ_TAILWB_EN : Fld := ⟨.SPAOG_CQ_TAILWB, 1, 1, .RW, 0, 0, 2 ^ 64⟩
def SPAOG_CQ_TAILWB_ADDR : Fld := ⟨.SPAOG_CQ_TAILWB, 3, 61, .RW, 0, 0, 2 ^ 64⟩
def SPAOG_CQ_CFG_ENABLE : Fld := ⟨.SPAOG_CQ_CFG, 0, 1, .RW, 0, 0, 2 ^ 64⟩
def SPAOG_CQ_CFG_SIZE_LOG2 : Fld := ⟨.SPAOG_CQ_CFG, 1, 5, .RW, 6, 0, 2 ^ 64⟩
def SPAOG_CQ_CFG_VECTOR : Fld := ⟨.SPAOG_CQ_CFG, 6, 10, .RW, 0, 0, 2 ^ 64⟩
def SPAOG_CQ_CFG_COAL_COUNT : Fld := ⟨.SPAOG_CQ_CFG, 16, 8, .RW, 0, 0, 2 ^ 64⟩
def SPAOG_CQ_CFG_COAL_TIME : Fld := ⟨.SPAOG_CQ_CFG, 24, 8, .RW, 0, 0, 2 ^ 64⟩
def SPAOG_CQ_CFG_CTX : Fld := ⟨.SPAOG_CQ_CFG, 32, 4, .RW, 0, 0, 2 ^ 64⟩
def SPAOG_CQ_CFG_FAULT : Fld := ⟨.SPAOG_CQ_CFG, 36, 1, .RO, 0, 0, 2 ^ 64⟩
def SPAOG_CQ_CFG_LOST : Fld := ⟨.SPAOG_CQ_CFG, 48, 16, .RO, 0, 0, 2 ^ 64⟩
def SPAOG_CQ_TAIL_WRITTEN : Fld := ⟨.SPAOG_CQ_TAIL, 0, 32, .RO, 0, 0, 2 ^ 64⟩
def SPAOG_CQ_HEAD_CONSUMED : Fld := ⟨.SPAOG_CQ_HEAD, 0, 32, .RO, 0, 0, 2 ^ 64⟩
def SPAOG_GATE_VALUE : Fld := ⟨.SPAOG_GATE, 0, 32, .RW, 0, 0, 2 ^ 64⟩
def SPAOG_GATE_CTX : Fld := ⟨.SPAOG_GATE, 32, 4, .RW, 0, 0, 2 ^ 64⟩
def SPAOG_GATE_ENABLE : Fld := ⟨.SPAOG_GATE, 36, 1, .RW, 0, 0, 2 ^ 64⟩
def SPAOG_EVT_ROUTE_VECTOR : Fld := ⟨.SPAOG_EVT_ROUTE, 0, 10, .RW, 0, 0, 2 ^ 64⟩
def SPAOG_EVT_ROUTE_ENABLE : Fld := ⟨.SPAOG_EVT_ROUTE, 15, 1, .RW, 0, 0, 2 ^ 64⟩
def SPAOG_EVT_PEND_PEND : Fld := ⟨.SPAOG_EVT_PEND, 0, 8, .W1C, 0, 0, 2 ^ 64⟩
-- 05_tile_matrix_accumulation.md
def TILE_STATUS_STATE : Fld := ⟨.TILE_STATUS, 0, 2, .RO, 0, 0, 2 ^ 64⟩
def TILE_STATUS_QUEUED : Fld := ⟨.TILE_STATUS, 2, 6, .RO, 0, 0, 2 ^ 64⟩
def TILE_STATUS_OPEN : Fld := ⟨.TILE_STATUS, 8, 8, .RO, 0, 0, 2 ^ 64⟩
def TILE_STATUS_ACC_MODE : Fld := ⟨.TILE_STATUS, 16, 1, .RO, 0, 0, 2 ^ 64⟩
def TILE_STATUS_CFG_REJECT : Fld := ⟨.TILE_STATUS, 17, 1, .W1C, 0, 0, 2 ^ 64⟩
def TILE_STATUS_REPLAYING : Fld := ⟨.TILE_STATUS, 18, 1, .RO, 0, 0, 2 ^ 64⟩
def TILE_CFG_ACC_MODE : Fld := ⟨.TILE_CFG, 0, 1, .RW, 0, 0, 2 ^ 64⟩
def TILE_CFG_LEGACY_BF16 : Fld := ⟨.TILE_CFG, 1, 1, .RW, 0, 0, 2 ^ 64⟩
def TILE_CFG_LEGACY_ROWS : Fld := ⟨.TILE_CFG, 2, 12, .RW, 128, 0, 2 ^ 64⟩
def TILE_CFG_CTX : Fld := ⟨.TILE_CFG, 16, 4, .RO, 0, 0, 2 ^ 64⟩
def TILE_CTL_RELEASE : Fld := ⟨.TILE_CTL, 0, 1, .WO, 0, 0, 2 ^ 64⟩
def TILE_CTL_FLUSH : Fld := ⟨.TILE_CTL, 1, 1, .WO, 0, 0, 2 ^ 64⟩
def TILE_CHECK_CFG_ENABLE : Fld := ⟨.TILE_CHECK_CFG, 0, 1, .RW, 1, 0, 2 ^ 64⟩
def TILE_CHECK_CFG_TOL_EXP : Fld := ⟨.TILE_CHECK_CFG, 8, 5, .RW, 12, 4, 23⟩
def TILE_CHECK_CFG_TOL_ABS : Fld := ⟨.TILE_CHECK_CFG, 32, 32, .RW, 0, 0, 2 ^ 64⟩
def TILE_CHECK_FAIL_COUNT : Fld := ⟨.TILE_CHECK_FAIL, 0, 64, .RO, 0, 0, 2 ^ 64⟩
def TILE_CHECK_SKIPPED_COUNT : Fld := ⟨.TILE_CHECK_SKIPPED, 0, 64, .RO, 0, 0, 2 ^ 64⟩
def TILE_CHECK_REPLAYS_COUNT : Fld := ⟨.TILE_CHECK_REPLAYS, 0, 64, .RO, 0, 0, 2 ^ 64⟩
def TILE_CVT_SAT_COUNT : Fld := ⟨.TILE_CVT_SAT, 0, 64, .RO, 0, 0, 2 ^ 64⟩
def TILE_CVT_UFL_COUNT : Fld := ⟨.TILE_CVT_UFL, 0, 64, .RO, 0, 0, 2 ^ 64⟩
def TILE_ARRAY_BUSY_COUNT : Fld := ⟨.TILE_ARRAY_BUSY, 0, 64, .RO, 0, 0, 2 ^ 64⟩
def TILE_FLAG_VALUE : Fld := ⟨.TILE_FLAG, 0, 32, .RW, 0, 0, 2 ^ 64⟩
def TILE_GRP_OPEN : Fld := ⟨.TILE_GRP, 0, 1, .RO, 0, 0, 2 ^ 64⟩
def TILE_GRP_INT : Fld := ⟨.TILE_GRP, 1, 1, .RO, 0, 0, 2 ^ 64⟩
def TILE_GRP_FIRST_ROW : Fld := ⟨.TILE_GRP, 2, 10, .RO, 0, 0, 2 ^ 64⟩
def TILE_GRP_ROWS : Fld := ⟨.TILE_GRP, 12, 11, .RO, 0, 0, 2 ^ 64⟩
def TILE_GRP_MATMULS : Fld := ⟨.TILE_GRP, 23, 9, .RO, 0, 0, 2 ^ 64⟩
def TILE_GRP_ARRAY_CYCLES : Fld := ⟨.TILE_GRP, 32, 32, .RO, 0, 0, 2 ^ 64⟩
def TILE_SLOT_OPEN_OPEN : Fld := ⟨.TILE_SLOT_OPEN, 0, 64, .RO, 0, 0, 2 ^ 64⟩
-- 06_vx_vector_engine.md
def TILE_VX_CFG_SVC_EN : Fld := ⟨.TILE_VX_CFG, 0, 1, .RW, 1, 0, 2 ^ 64⟩
def TILE_VX_CFG_SHARE : Fld := ⟨.TILE_VX_CFG, 1, 4, .RW, 2, 0, 8⟩
def TILE_VX_STATUS_RUNNING : Fld := ⟨.TILE_VX_STATUS, 0, 1, .RO, 0, 0, 2 ^ 64⟩
def TILE_VX_STATUS_SVC_ACTIVE : Fld := ⟨.TILE_VX_STATUS, 1, 1, .RO, 0, 0, 2 ^ 64⟩
def TILE_VX_STATUS_PC : Fld := ⟨.TILE_VX_STATUS, 2, 13, .RO, 0, 0, 2 ^ 64⟩
def TILE_VX_STATUS_VL : Fld := ⟨.TILE_VX_STATUS, 16, 10, .RO, 512, 0, 2 ^ 64⟩
def TILE_VEC_BUSY_COUNT : Fld := ⟨.TILE_VEC_BUSY, 0, 64, .RO, 0, 0, 2 ^ 64⟩
def TILE_VX_SVC_CYCLES_COUNT : Fld := ⟨.TILE_VX_SVC_CYCLES, 0, 64, .RO, 0, 0, 2 ^ 64⟩
def TILE_VX_DETECT_COUNT : Fld := ⟨.TILE_VX_DETECT, 0, 64, .RO, 0, 0, 2 ^ 64⟩
def TILE_VX_REPLAYS_COUNT : Fld := ⟨.TILE_VX_REPLAYS, 0, 64, .RO, 0, 0, 2 ^ 64⟩
-- 07_stack_memory_and_ream.md
def STACK_STATUS_STATE : Fld := ⟨.STACK_STATUS, 0, 2, .RO, 0, 0, 2 ^ 64⟩
def STACK_STATUS_INIT_DONE : Fld := ⟨.STACK_STATUS, 2, 1, .RO, 1, 0, 2 ^ 64⟩
def STACK_STATUS_REPAIR_BUSY : Fld := ⟨.STACK_STATUS, 3, 1, .RO, 0, 0, 2 ^ 64⟩
def STACK_STATUS_PC_MAPPED : Fld := ⟨.STACK_STATUS, 4, 6, .RO, 0, 0, 2 ^ 64⟩
def STACK_STATUS_TEMP_C : Fld := ⟨.STACK_STATUS, 16, 8, .RO, 0, 0, 2 ^ 64⟩
def STACK_GEOM_CHANNELS : Fld := ⟨.STACK_GEOM, 0, 8, .RO, 16, 0, 2 ^ 64⟩
def STACK_GEOM_PCS : Fld := ⟨.STACK_GEOM, 8, 4, .RO, 2, 0, 2 ^ 64⟩
def STACK_GEOM_BANKS : Fld := ⟨.STACK_GEOM, 12, 8, .RO, 48, 0, 2 ^ 64⟩
def STACK_GEOM_SEGS_PER_BANK : Fld := ⟨.STACK_GEOM, 20, 16, .RO, 6144, 0, 2 ^ 64⟩
def STACK_GEOM_FRAMES_PER_PC : Fld := ⟨.STACK_GEOM, 36, 12, .RO, 558, 0, 2 ^ 64⟩
def STACK_CFG_REREADS : Fld := ⟨.STACK_CFG, 0, 2, .RW, 1, 1, 3⟩
def STACK_CFG_PPR_MAX : Fld := ⟨.STACK_CFG, 2, 3, .RW, 2, 0, 4⟩
def STACK_CFG_SCRUB_EN : Fld := ⟨.STACK_CFG, 5, 1, .RW, 1, 0, 2 ^ 64⟩
def STACK_CFG_SCRUB_HOURS : Fld := ⟨.STACK_CFG, 8, 8, .RW, 24, 1, 2 ^ 64⟩
def STACK_CFG_MAPOUT_ROWS : Fld := ⟨.STACK_CFG, 16, 4, .RW, 8, 1, 2 ^ 64⟩
def STACK_CFG_MAPOUT_WIN_MS : Fld := ⟨.STACK_CFG, 20, 12, .RW, 1000, 1, 2 ^ 64⟩
def STACK_CTL_PC : Fld := ⟨.STACK_CTL, 0, 5, .WO, 0, 0, 2 ^ 64⟩
def STACK_CTL_FORCE_MAPOUT : Fld := ⟨.STACK_CTL, 5, 1, .WO, 0, 0, 2 ^ 64⟩
def STACK_RD_LINES_COUNT : Fld := ⟨.STACK_RD_LINES, 0, 64, .RO, 0, 0, 2 ^ 64⟩
def STACK_WR_LINES_COUNT : Fld := ⟨.STACK_WR_LINES, 0, 64, .RO, 0, 0, 2 ^ 64⟩
def STACK_CHK_FETCH_COUNT : Fld := ⟨.STACK_CHK_FETCH, 0, 64, .RO, 0, 0, 2 ^ 64⟩
def STACK_CRC_MISMATCH_COUNT : Fld := ⟨.STACK_CRC_MISMATCH, 0, 64, .RO, 0, 0, 2 ^ 64⟩
def STACK_REREAD_OK_COUNT : Fld := ⟨.STACK_REREAD_OK, 0, 64, .RO, 0, 0, 2 ^ 64⟩
def STACK_RECON_COUNT : Fld := ⟨.STACK_RECON, 0, 64, .RO, 0, 0, 2 ^ 64⟩
def STACK_LOST_COUNT : Fld := ⟨.STACK_LOST, 0, 64, .RO, 0, 0, 2 ^ 64⟩
def STACK_ODECC_CORR_COUNT : Fld := ⟨.STACK_ODECC_CORR, 0, 64, .RO, 0, 0, 2 ^ 64⟩
def STACK_PPR_DONE_COUNT : Fld := ⟨.STACK_PPR_DONE, 0, 64, .RO, 0, 0, 2 ^ 64⟩
def STACK_PAGES_RETIRED_COUNT : Fld := ⟨.STACK_PAGES_RETIRED, 0, 64, .RO, 0, 0, 2 ^ 64⟩
def STACK_PPR_LOG_TAG : Fld := ⟨.STACK_PPR_LOG, 0, 32, .RO, 0, 0, 2 ^ 64⟩
def STACK_PPR_LOG_KIND : Fld := ⟨.STACK_PPR_LOG, 32, 3, .RO, 0, 0, 2 ^ 64⟩
def STACK_PPR_LOG_COUNT : Fld := ⟨.STACK_PPR_LOG, 35, 5, .RO, 0, 0, 2 ^ 64⟩
def REAM_STATUS_HOLDING : Fld := ⟨.REAM_STATUS, 0, 1, .RO, 0, 0, 2 ^ 64⟩
def REAM_STATUS_RECON_INFLIGHT : Fld := ⟨.REAM_STATUS, 8, 8, .RO, 0, 0, 2 ^ 64⟩
def REAM_DELTAS_COUNT : Fld := ⟨.REAM_DELTAS, 0, 64, .RO, 0, 0, 2 ^ 64⟩
def REAM_RECON_COUNT : Fld := ⟨.REAM_RECON, 0, 64, .RO, 0, 0, 2 ^ 64⟩
def REAM_DOUBLE_COUNT : Fld := ⟨.REAM_DOUBLE, 0, 64, .RO, 0, 0, 2 ^ 64⟩
def REAM_SCRUB_MISMATCH_COUNT : Fld := ⟨.REAM_SCRUB_MISMATCH, 0, 64, .RO, 0, 0, 2 ^ 64⟩
def REAM_FRAME_CLASS_GUARDED : Fld := ⟨.REAM_FRAME_CLASS, 0, 64, .RO, 0, 0, 2 ^ 64⟩
-- 08_vat_shared_cache.md
def VAT_STATUS_SLICES : Fld := ⟨.VAT_STATUS, 0, 8, .RO, 128, 0, 2 ^ 64⟩
def VAT_STATUS_RETIRING : Fld := ⟨.VAT_STATUS, 8, 1, .RO, 0, 0, 2 ^ 64⟩
def VAT_CFG_RETIRE_ERRS : Fld := ⟨.VAT_CFG, 0, 8, .RW, 16, 1, 2 ^ 64⟩
def VAT_CFG_RETIRE_WIN_MS : Fld := ⟨.VAT_CFG, 8, 12, .RW, 1000, 1, 2 ^ 64⟩
def VAT_KEEP_RELEASE_CTX : Fld := ⟨.VAT_KEEP_RELEASE, 0, 4, .WO, 0, 0, 2 ^ 64⟩
def VAT_KEEP_RELEASE_GO : Fld := ⟨.VAT_KEEP_RELEASE, 4, 1, .WO, 0, 0, 2 ^ 64⟩
def VAT_SLICE_MASK_LO_SLICE : Fld := ⟨.VAT_SLICE_MASK_LO, 0, 64, .RO, 0xffffffffffffffff, 0, 2 ^ 64⟩
def VAT_SLICE_MASK_HI_SLICE : Fld := ⟨.VAT_SLICE_MASK_HI, 0, 64, .RO, 0xffffffffffffffff, 0, 2 ^ 64⟩
def VAT_KEEP_QUOTA_WAYS : Fld := ⟨.VAT_KEEP_QUOTA, 0, 4, .RW, 0, 0, 12⟩
def VAT_KEEP_LINES_LINES : Fld := ⟨.VAT_KEEP_LINES, 0, 32, .RO, 0, 0, 2 ^ 64⟩
def VAT_HITS_COUNT : Fld := ⟨.VAT_HITS, 0, 64, .RO, 0, 0, 2 ^ 64⟩
def VAT_MISSES_COUNT : Fld := ⟨.VAT_MISSES, 0, 64, .RO, 0, 0, 2 ^ 64⟩
def VAT_WRITEBACKS_COUNT : Fld := ⟨.VAT_WRITEBACKS, 0, 64, .RO, 0, 0, 2 ^ 64⟩
def VAT_EVICTIONS_COUNT : Fld := ⟨.VAT_EVICTIONS, 0, 64, .RO, 0, 0, 2 ^ 64⟩
def VAT_ATOMICS_COUNT : Fld := ⟨.VAT_ATOMICS, 0, 64, .RO, 0, 0, 2 ^ 64⟩
def VAT_KEEP_DENIED_COUNT : Fld := ⟨.VAT_KEEP_DENIED, 0, 64, .RO, 0, 0, 2 ^ 64⟩
def VAT_LAST_DISCARDS_COUNT : Fld := ⟨.VAT_LAST_DISCARDS, 0, 64, .RO, 0, 0, 2 ^ 64⟩
def VAT_DETECT_COUNT : Fld := ⟨.VAT_DETECT, 0, 64, .RO, 0, 0, 2 ^ 64⟩
def VAT_LOST_COUNT : Fld := ⟨.VAT_LOST, 0, 64, .RO, 0, 0, 2 ^ 64⟩
-- 09_drover_tiers.md
def DROVER_STATUS_MIGRATING : Fld := ⟨.DROVER_STATUS, 0, 8, .RO, 0, 0, 2 ^ 64⟩
def DROVER_STATUS_REBUILDING : Fld := ⟨.DROVER_STATUS, 8, 1, .RO, 0, 0, 2 ^ 64⟩
def DROVER_STATUS_OBJECTS : Fld := ⟨.DROVER_STATUS, 14, 17, .RO, 0, 0, 2 ^ 64⟩
def DROVER_STATUS_LENT_PAGES : Fld := ⟨.DROVER_STATUS, 32, 32, .RO, 0, 0, 2 ^ 64⟩
def DROVER_CFG_MAX_PASSES : Fld := ⟨.DROVER_CFG, 0, 4, .RW, 8, 1, 2 ^ 64⟩
def DROVER_CFG_FLIP_LOCAL : Fld := ⟨.DROVER_CFG, 8, 8, .RW, 128, 0, 128⟩
def DROVER_CFG_FLIP_NEIGHBOUR : Fld := ⟨.DROVER_CFG, 16, 8, .RW, 32, 0, 32⟩
def DROVER_CFG_FLIP_HOST : Fld := ⟨.DROVER_CFG, 24, 8, .RW, 16, 0, 16⟩
def DROVER_CFG_GRACE_MS : Fld := ⟨.DROVER_CFG, 32, 16, .RW, 100, 1, 2 ^ 64⟩
def DROVER_CFG_REBUILD_PCT : Fld := ⟨.DROVER_CFG, 48, 8, .RW, 10, 1, 50⟩
def DROVER_TIMEOUT_NEIGHBOUR_US : Fld := ⟨.DROVER_TIMEOUT, 0, 16, .RW, 100, 10, 2 ^ 64⟩
def DROVER_TIMEOUT_HOST_US : Fld := ⟨.DROVER_TIMEOUT, 16, 16, .RW, 50, 10, 2 ^ 64⟩
def DROVER_QUOTA_PAGES : Fld := ⟨.DROVER_QUOTA, 0, 24, .RW, 0, 0, 2 ^ 64⟩
def DROVER_QUOTA_USED : Fld := ⟨.DROVER_QUOTA, 32, 24, .RO, 0, 0, 2 ^ 64⟩
def DROVER_HOSTPOOL_BASE : Fld := ⟨.DROVER_HOSTPOOL, 21, 43, .RW, 0, 0, 2 ^ 64⟩
def DROVER_HOSTPOOL_PAGES : Fld := ⟨.DROVER_HOSTPOOL, 64, 24, .RW, 0, 0, 2 ^ 64⟩
def DROVER_BORROW_RANK : Fld := ⟨.DROVER_BORROW, 0, 14, .RO, 0, 0, 2 ^ 64⟩
def DROVER_BORROW_VALID : Fld := ⟨.DROVER_BORROW, 15, 1, .RO, 0, 0, 2 ^ 64⟩
def DROVER_BORROW_REVOKING : Fld := ⟨.DROVER_BORROW, 16, 1, .RO, 0, 0, 2 ^ 64⟩
def DROVER_BORROW_GUARDED : Fld := ⟨.DROVER_BORROW, 17, 1, .RO, 0, 0, 2 ^ 64⟩
def DROVER_BORROW_LEND_ID : Fld := ⟨.DROVER_BORROW, 18, 8, .RO, 0, 0, 2 ^ 64⟩
def DROVER_BORROW_PAGES : Fld := ⟨.DROVER_BORROW, 32, 24, .RO, 0, 0, 2 ^ 64⟩
def DROVER_WALKS_COUNT : Fld := ⟨.DROVER_WALKS, 0, 64, .RO, 0, 0, 2 ^ 64⟩
def DROVER_MIGRATIONS_COUNT : Fld := ⟨.DROVER_MIGRATIONS, 0, 64, .RO, 0, 0, 2 ^ 64⟩
def DROVER_FLIP_ABANDON_COUNT : Fld := ⟨.DROVER_FLIP_ABANDON, 0, 64, .RO, 0, 0, 2 ^ 64⟩
def DROVER_EVICTIONS_COUNT : Fld := ⟨.DROVER_EVICTIONS, 0, 64, .RO, 0, 0, 2 ^ 64⟩
def DROVER_DROPS_COUNT : Fld := ⟨.DROVER_DROPS, 0, 64, .RO, 0, 0, 2 ^ 64⟩
def DROVER_TIER_FAIL_COUNT : Fld := ⟨.DROVER_TIER_FAIL, 0, 64, .RO, 0, 0, 2 ^ 64⟩
def DROVER_FLIP_MAX_NS_COUNT : Fld := ⟨.DROVER_FLIP_MAX_NS, 0, 64, .RC, 0, 0, 2 ^ 64⟩
def DROVER_DROP_LOG_OBJ : Fld := ⟨.DROVER_DROP_LOG, 0, 14, .RO, 0, 0, 2 ^ 64⟩
def DROVER_DROP_LOG_CTX : Fld := ⟨.DROVER_DROP_LOG, 16, 4, .RO, 0, 0, 2 ^ 64⟩
def DROVER_DROP_LOG_VALID : Fld := ⟨.DROVER_DROP_LOG, 20, 1, .RO, 0, 0, 2 ^ 64⟩
def DROVER_DROP_LOG_TIME_MS : Fld := ⟨.DROVER_DROP_LOG, 32, 32, .RO, 0, 0, 2 ^ 64⟩
-- 10_beater_embeddings.md
def BEATER_STATUS_INFLIGHT : Fld := ⟨.BEATER_STATUS, 0, 4, .RO, 0, 0, 2 ^ 64⟩
def BEATER_STATUS_SORTING : Fld := ⟨.BEATER_STATUS, 4, 1, .RO, 0, 0, 2 ^ 64⟩
def BEATER_STATUS_UPDATING : Fld := ⟨.BEATER_STATUS, 5, 1, .RO, 0, 0, 2 ^ 64⟩
def BEATER_CFG_MAX_INFLIGHT : Fld := ⟨.BEATER_CFG, 0, 4, .RW, 8, 1, 8⟩
def BEATER_CFG_PEER_TIMEOUT_MS : Fld := ⟨.BEATER_CFG, 16, 16, .RW, 10, 1, 2 ^ 64⟩
def BEATER_TABLES_DEFINED : Fld := ⟨.BEATER_TABLES, 0, 13, .RO, 0, 0, 2 ^ 64⟩
def BEATER_KEYS_COUNT : Fld := ⟨.BEATER_KEYS, 0, 64, .RO, 0, 0, 2 ^ 64⟩
def BEATER_DISTINCT_COUNT : Fld := ⟨.BEATER_DISTINCT, 0, 64, .RO, 0, 0, 2 ^ 64⟩
def BEATER_SECTORS_RD_COUNT : Fld := ⟨.BEATER_SECTORS_RD, 0, 64, .RO, 0, 0, 2 ^ 64⟩
def BEATER_SECTORS_WR_COUNT : Fld := ⟨.BEATER_SECTORS_WR, 0, 64, .RO, 0, 0, 2 ^ 64⟩
def BEATER_REPLICA_ROWS_COUNT : Fld := ⟨.BEATER_REPLICA_ROWS, 0, 64, .RO, 0, 0, 2 ^ 64⟩
def BEATER_REMOTE_ROWS_COUNT : Fld := ⟨.BEATER_REMOTE_ROWS, 0, 64, .RO, 0, 0, 2 ^ 64⟩
def BEATER_SERVED_ROWS_COUNT : Fld := ⟨.BEATER_SERVED_ROWS, 0, 64, .RO, 0, 0, 2 ^ 64⟩
def BEATER_ROWS_UPDATED_COUNT : Fld := ⟨.BEATER_ROWS_UPDATED, 0, 64, .RO, 0, 0, 2 ^ 64⟩
def BEATER_SKIPPED_COUNT : Fld := ⟨.BEATER_SKIPPED, 0, 64, .RO, 0, 0, 2 ^ 64⟩
def BEATER_EMPTY_BAGS_COUNT : Fld := ⟨.BEATER_EMPTY_BAGS, 0, 64, .RO, 0, 0, 2 ^ 64⟩
def BEATER_CVT_SAT_COUNT : Fld := ⟨.BEATER_CVT_SAT, 0, 64, .RO, 0, 0, 2 ^ 64⟩
def BEATER_CVT_UFL_COUNT : Fld := ⟨.BEATER_CVT_UFL, 0, 64, .RO, 0, 0, 2 ^ 64⟩
def BEATER_DETECT_COUNT : Fld := ⟨.BEATER_DETECT, 0, 64, .RO, 0, 0, 2 ^ 64⟩
def BEATER_RERUNS_COUNT : Fld := ⟨.BEATER_RERUNS, 0, 64, .RO, 0, 0, 2 ^ 64⟩
-- 11_stud_book_hot_rows.md
def BEATER_SB_STATUS_TRACKED : Fld := ⟨.BEATER_SB_STATUS, 0, 18, .RO, 0, 0, 2 ^ 64⟩
def BEATER_SB_STATUS_FILLING : Fld := ⟨.BEATER_SB_STATUS, 18, 18, .RO, 0, 0, 2 ^ 64⟩
def BEATER_SB_STATUS_REPLICATED : Fld := ⟨.BEATER_SB_STATUS, 36, 18, .RO, 0, 0, 2 ^ 64⟩
def BEATER_SB_STATUS_BUSY : Fld := ⟨.BEATER_SB_STATUS, 63, 1, .RO, 0, 0, 2 ^ 64⟩
def BEATER_SB_CFG_SAMPLE_LOG2 : Fld := ⟨.BEATER_SB_CFG, 0, 4, .RW, 6, 0, 2 ^ 64⟩
def BEATER_SB_CFG_DECAY : Fld := ⟨.BEATER_SB_CFG, 4, 4, .RW, 1, 0, 2 ^ 64⟩
def BEATER_SB_CFG_REFRESH_EVERY : Fld := ⟨.BEATER_SB_CFG, 8, 16, .RW, 16, 1, 2 ^ 64⟩
def BEATER_SB_CTX_TRACK : Fld := ⟨.BEATER_SB_CTX, 0, 1, .RW, 0, 0, 2 ^ 64⟩
def BEATER_SB_POOL_VA_VA : Fld := ⟨.BEATER_SB_POOL_VA, 6, 50, .RW, 0, 0, 2 ^ 64⟩
def BEATER_SB_POOL_CFG_SLOT_UNITS : Fld := ⟨.BEATER_SB_POOL_CFG, 0, 10, .RW, 0, 0, 2 ^ 64⟩
def BEATER_SB_POOL_CFG_SLOTS : Fld := ⟨.BEATER_SB_POOL_CFG, 16, 18, .RW, 0, 0, 2 ^ 64⟩
def BEATER_SB_POOL_CFG_USED : Fld := ⟨.BEATER_SB_POOL_CFG, 40, 18, .RO, 0, 0, 2 ^ 64⟩
def BEATER_SB_GROUP_GROUP : Fld := ⟨.BEATER_SB_GROUP, 0, 14, .RO, 0, 0, 2 ^ 64⟩
def BEATER_SB_GROUP_DEGRADED : Fld := ⟨.BEATER_SB_GROUP, 14, 1, .RO, 0, 0, 2 ^ 64⟩
def BEATER_SB_GROUP_VALID : Fld := ⟨.BEATER_SB_GROUP, 15, 1, .RO, 0, 0, 2 ^ 64⟩
def BEATER_SB_GROUP_GEN : Fld := ⟨.BEATER_SB_GROUP, 32, 32, .RO, 0, 0, 2 ^ 64⟩
def BEATER_SB_GROUP_STEP : Fld := ⟨.BEATER_SB_GROUP, 64, 32, .RO, 0, 0, 2 ^ 64⟩
def BEATER_SB_PEEK_IDX_INDEX : Fld := ⟨.BEATER_SB_PEEK_IDX, 0, 17, .RW, 0, 0, 2 ^ 64⟩
def BEATER_SB_PEEK_DATA : Fld := ⟨.BEATER_SB_PEEK, 0, 64, .RO, 0, 0, 2 ^ 64⟩
def BEATER_SB_INSERTS_COUNT : Fld := ⟨.BEATER_SB_INSERTS, 0, 64, .RO, 0, 0, 2 ^ 64⟩
def BEATER_SB_TRACK_MISS_COUNT : Fld := ⟨.BEATER_SB_TRACK_MISS, 0, 64, .RO, 0, 0, 2 ^ 64⟩
def BEATER_SB_PROMOTED_COUNT : Fld := ⟨.BEATER_SB_PROMOTED, 0, 64, .RO, 0, 0, 2 ^ 64⟩
def BEATER_SB_REFUSED_COUNT : Fld := ⟨.BEATER_SB_REFUSED, 0, 64, .RO, 0, 0, 2 ^ 64⟩
def BEATER_SB_DEMOTED_COUNT : Fld := ⟨.BEATER_SB_DEMOTED, 0, 64, .RO, 0, 0, 2 ^ 64⟩
def BEATER_SB_REREADS_COUNT : Fld := ⟨.BEATER_SB_REREADS, 0, 64, .RO, 0, 0, 2 ^ 64⟩
def BEATER_SB_SKEW_COUNT : Fld := ⟨.BEATER_SB_SKEW, 0, 64, .RO, 0, 0, 2 ^ 64⟩
def BEATER_SB_DROPPED_COUNT : Fld := ⟨.BEATER_SB_DROPPED, 0, 64, .RO, 0, 0, 2 ^ 64⟩
def BEATER_SB_DETECT_COUNT : Fld := ⟨.BEATER_SB_DETECT, 0, 64, .RO, 0, 0, 2 ^ 64⟩
-- 12_farrier_updates.md
def FARRIER_STATUS_RUNNING : Fld := ⟨.FARRIER_STATUS, 0, 5, .RO, 0, 0, 2 ^ 64⟩
def FARRIER_STATUS_WAITING : Fld := ⟨.FARRIER_STATUS, 5, 8, .RO, 0, 0, 2 ^ 64⟩
def FARRIER_STATUS_RERUN : Fld := ⟨.FARRIER_STATUS, 13, 1, .RO, 0, 0, 2 ^ 64⟩
def FARRIER_CFG_CLIP_TIMEOUT_MS : Fld := ⟨.FARRIER_CFG, 0, 16, .RW, 100, 1, 2 ^ 64⟩
def FARRIER_CFG_MAX_WAITING : Fld := ⟨.FARRIER_CFG, 16, 7, .RW, 64, 1, 64⟩
def FARRIER_CFG_BEATER_SHARE : Fld := ⟨.FARRIER_CFG, 24, 4, .RW, 4, 0, 8⟩
def FARRIER_SHARDS_DEFINED : Fld := ⟨.FARRIER_SHARDS, 0, 15, .RO, 0, 0, 2 ^ 64⟩
def FARRIER_SHARDS_OWNED : Fld := ⟨.FARRIER_SHARDS, 16, 15, .RO, 0, 0, 2 ^ 64⟩
def FARRIER_CLIP_CFG_CTX : Fld := ⟨.FARRIER_CLIP_CFG, 0, 4, .RW, 0, 0, 2 ^ 64⟩
def FARRIER_CLIP_CFG_ENABLE : Fld := ⟨.FARRIER_CLIP_CFG, 4, 1, .RW, 0, 0, 2 ^ 64⟩
def FARRIER_CLIP_CFG_VALID : Fld := ⟨.FARRIER_CLIP_CFG, 5, 1, .RO, 0, 0, 2 ^ 64⟩
def FARRIER_CLIP_CFG_PREV_VALID : Fld := ⟨.FARRIER_CLIP_CFG, 6, 1, .RO, 0, 0, 2 ^ 64⟩
def FARRIER_CLIP_CFG_THRESH : Fld := ⟨.FARRIER_CLIP_CFG, 32, 32, .RW, 0x3f800000, 0, 2 ^ 64⟩
def FARRIER_CLIP_CFG_TOL : Fld := ⟨.FARRIER_CLIP_CFG, 64, 32, .RW, 0, 0, 2 ^ 64⟩
def FARRIER_CLIP_STEP : Fld := ⟨.FARRIER_CLIP, 0, 32, .RO, 0, 0, 2 ^ 64⟩
def FARRIER_CLIP_NORM : Fld := ⟨.FARRIER_CLIP, 32, 32, .RO, 0, 0, 2 ^ 64⟩
def FARRIER_CLIP_PREV_STEP : Fld := ⟨.FARRIER_CLIP, 64, 32, .RO, 0, 0, 2 ^ 64⟩
def FARRIER_CLIP_PREV_NORM : Fld := ⟨.FARRIER_CLIP, 96, 32, .RO, 0, 0, 2 ^ 64⟩
def FARRIER_MON_BAND_LO : Fld := ⟨.FARRIER_MON_BAND, 0, 32, .RW, 0, 0, 2 ^ 64⟩
def FARRIER_MON_BAND_HI : Fld := ⟨.FARRIER_MON_BAND, 32, 32, .RW, 0x7f800000, 0, 2 ^ 64⟩
def FARRIER_MON_LOG_TGROUP : Fld := ⟨.FARRIER_MON_LOG, 0, 10, .RO, 0, 0, 2 ^ 64⟩
def FARRIER_MON_LOG_CTX : Fld := ⟨.FARRIER_MON_LOG, 12, 4, .RO, 0, 0, 2 ^ 64⟩
def FARRIER_MON_LOG_VALID : Fld := ⟨.FARRIER_MON_LOG, 16, 1, .RO, 0, 0, 2 ^ 64⟩
def FARRIER_MON_LOG_STEP : Fld := ⟨.FARRIER_MON_LOG, 32, 32, .RO, 0, 0, 2 ^ 64⟩
def FARRIER_MON_LOG_RATIO : Fld := ⟨.FARRIER_MON_LOG, 64, 32, .RO, 0, 0, 2 ^ 64⟩
def FARRIER_MON_LOG_TIME_MS : Fld := ⟨.FARRIER_MON_LOG, 96, 32, .RO, 0, 0, 2 ^ 64⟩
def FARRIER_COMMITS_COUNT : Fld := ⟨.FARRIER_COMMITS, 0, 64, .RO, 0, 0, 2 ^ 64⟩
def FARRIER_ELEMENTS_COUNT : Fld := ⟨.FARRIER_ELEMENTS, 0, 64, .RO, 0, 0, 2 ^ 64⟩
def FARRIER_RECORDS_COUNT : Fld := ⟨.FARRIER_RECORDS, 0, 64, .RO, 0, 0, 2 ^ 64⟩
def FARRIER_FETCHES_COUNT : Fld := ⟨.FARRIER_FETCHES, 0, 64, .RO, 0, 0, 2 ^ 64⟩
def FARRIER_LAGGED_RERUNS_COUNT : Fld := ⟨.FARRIER_LAGGED_RERUNS, 0, 64, .RO, 0, 0, 2 ^ 64⟩
def FARRIER_DETECT_COUNT : Fld := ⟨.FARRIER_DETECT, 0, 64, .RO, 0, 0, 2 ^ 64⟩
def FARRIER_CHUNK_RERUNS_COUNT : Fld := ⟨.FARRIER_CHUNK_RERUNS, 0, 64, .RO, 0, 0, 2 ^ 64⟩
def FARRIER_CVT_SAT_COUNT : Fld := ⟨.FARRIER_CVT_SAT, 0, 64, .RO, 0, 0, 2 ^ 64⟩
def FARRIER_CVT_UFL_COUNT : Fld := ⟨.FARRIER_CVT_UFL, 0, 64, .RO, 0, 0, 2 ^ 64⟩
def FARRIER_MON_EVENTS_COUNT : Fld := ⟨.FARRIER_MON_EVENTS, 0, 64, .RO, 0, 0, 2 ^ 64⟩
def FARRIER_MON_LOST_COUNT : Fld := ⟨.FARRIER_MON_LOST, 0, 64, .RO, 0, 0, 2 ^ 64⟩
-- 13_relay_collectives.md
def RELAY_STATUS_INFLIGHT : Fld := ⟨.RELAY_STATUS, 0, 9, .RO, 0, 0, 2 ^ 64⟩
def RELAY_STATUS_HELD : Fld := ⟨.RELAY_STATUS, 9, 10, .RO, 0, 0, 2 ^ 64⟩
def RELAY_STATUS_PERMUTING : Fld := ⟨.RELAY_STATUS, 19, 1, .RO, 0, 0, 2 ^ 64⟩
def RELAY_STATUS_FREE_UNITS : Fld := ⟨.RELAY_STATUS, 20, 10, .RO, 256, 0, 2 ^ 64⟩
def RELAY_CFG_PEER_TIMEOUT_MS : Fld := ⟨.RELAY_CFG, 0, 16, .RW, 50, 1, 2 ^ 64⟩
def RELAY_CFG_CREDIT_WINDOW : Fld := ⟨.RELAY_CFG, 16, 8, .RW, 8, 1, 64⟩
def RELAY_CFG_DIRECT_MAX : Fld := ⟨.RELAY_CFG, 24, 4, .RW, 9, 2, 15⟩
def RELAY_CFG_TREE_BYTES : Fld := ⟨.RELAY_CFG, 32, 24, .RW, 0x10000, 0, 2 ^ 64⟩
def RELAY_INFLIGHT_COUNT : Fld := ⟨.RELAY_INFLIGHT, 0, 7, .RO, 0, 0, 2 ^ 64⟩
def RELAY_GROUP_GROUP : Fld := ⟨.RELAY_GROUP, 0, 14, .RO, 0, 0, 2 ^ 64⟩
def RELAY_GROUP_VALID : Fld := ⟨.RELAY_GROUP, 14, 1, .RO, 0, 0, 2 ^ 64⟩
def RELAY_GROUP_CTX : Fld := ⟨.RELAY_GROUP, 16, 4, .RO, 0, 0, 2 ^ 64⟩
def RELAY_GROUP_EPOCH : Fld := ⟨.RELAY_GROUP, 20, 8, .RO, 0, 0, 2 ^ 64⟩
def RELAY_GROUP_STATE : Fld := ⟨.RELAY_GROUP, 28, 2, .RO, 0, 0, 2 ^ 64⟩
def RELAY_GROUP_MEMBERS : Fld := ⟨.RELAY_GROUP, 32, 15, .RO, 0, 0, 2 ^ 64⟩
def RELAY_GROUP_INDEX : Fld := ⟨.RELAY_GROUP, 64, 15, .RO, 0, 0, 2 ^ 64⟩
def RELAY_BYTES_TX_COUNT : Fld := ⟨.RELAY_BYTES_TX, 0, 64, .RO, 0, 0, 2 ^ 64⟩
def RELAY_BYTES_RX_COUNT : Fld := ⟨.RELAY_BYTES_RX, 0, 64, .RO, 0, 0, 2 ^ 64⟩
def RELAY_COLLECTIVES_COUNT : Fld := ⟨.RELAY_COLLECTIVES, 0, 64, .RO, 0, 0, 2 ^ 64⟩
def RELAY_CANCELLED_COUNT : Fld := ⟨.RELAY_CANCELLED, 0, 64, .RO, 0, 0, 2 ^ 64⟩
def RELAY_TIMEOUTS_COUNT : Fld := ⟨.RELAY_TIMEOUTS, 0, 64, .RO, 0, 0, 2 ^ 64⟩
def RELAY_RESENDS_COUNT : Fld := ⟨.RELAY_RESENDS, 0, 64, .RO, 0, 0, 2 ^ 64⟩
def RELAY_CVT_SAT_COUNT : Fld := ⟨.RELAY_CVT_SAT, 0, 64, .RO, 0, 0, 2 ^ 64⟩
def RELAY_CVT_UFL_COUNT : Fld := ⟨.RELAY_CVT_UFL, 0, 64, .RO, 0, 0, 2 ^ 64⟩
def RELAY_CREDIT_REFUSED_COUNT : Fld := ⟨.RELAY_CREDIT_REFUSED, 0, 64, .RO, 0, 0, 2 ^ 64⟩
-- 14_blinkers_attention.md
def BLINK_STATUS_ACTIVE : Fld := ⟨.BLINK_STATUS, 0, 3, .RO, 0, 0, 2 ^ 64⟩
def BLINK_STATUS_LATCHING : Fld := ⟨.BLINK_STATUS, 3, 1, .RO, 0, 0, 2 ^ 64⟩
def BLINK_STATUS_EDITING : Fld := ⟨.BLINK_STATUS, 4, 1, .RO, 0, 0, 2 ^ 64⟩
def BLINK_CFG_MAX_ATTEND : Fld := ⟨.BLINK_CFG, 0, 3, .RW, 4, 1, 4⟩
def BLINK_PTAB_VA : Fld := ⟨.BLINK_PTAB, 6, 50, .RW, 0, 0, 2 ^ 64⟩
def BLINK_PTAB_SLOTS : Fld := ⟨.BLINK_PTAB, 64, 17, .RW, 0, 0, 65536⟩
def BLINK_COMMANDS_COUNT : Fld := ⟨.BLINK_COMMANDS, 0, 64, .RO, 0, 0, 2 ^ 64⟩
def BLINK_UNITS_COUNT : Fld := ⟨.BLINK_UNITS, 0, 64, .RO, 0, 0, 2 ^ 64⟩
def BLINK_PAGES_COUNT : Fld := ⟨.BLINK_PAGES, 0, 64, .RO, 0, 0, 2 ^ 64⟩
def BLINK_PAGES_SKIPPED_COUNT : Fld := ⟨.BLINK_PAGES_SKIPPED, 0, 64, .RO, 0, 0, 2 ^ 64⟩
def BLINK_EMPTY_ROWS_COUNT : Fld := ⟨.BLINK_EMPTY_ROWS, 0, 64, .RO, 0, 0, 2 ^ 64⟩
def BLINK_DETECT_COUNT : Fld := ⟨.BLINK_DETECT, 0, 64, .RO, 0, 0, 2 ^ 64⟩
def BLINK_RERUNS_COUNT : Fld := ⟨.BLINK_RERUNS, 0, 64, .RO, 0, 0, 2 ^ 64⟩
def BLINK_CVT_SAT_COUNT : Fld := ⟨.BLINK_CVT_SAT, 0, 64, .RO, 0, 0, 2 ^ 64⟩
def BLINK_CVT_UFL_COUNT : Fld := ⟨.BLINK_CVT_UFL, 0, 64, .RO, 0, 0, 2 ^ 64⟩
-- 15_hokuke_optical_fabric.md
def HOKUKE_STATUS_RANK : Fld := ⟨.HOKUKE_STATUS, 0, 14, .RO, 0, 0, 2 ^ 64⟩
def HOKUKE_STATUS_RANK_VALID : Fld := ⟨.HOKUKE_STATUS, 14, 1, .RO, 0, 0, 2 ^ 64⟩
def HOKUKE_STATUS_ROUTES_SET : Fld := ⟨.HOKUKE_STATUS, 15, 1, .RO, 0, 0, 2 ^ 64⟩
def HOKUKE_CFG_RTO_US : Fld := ⟨.HOKUKE_CFG, 0, 16, .RW, 40, 10, 2 ^ 64⟩
def HOKUKE_CFG_RETRIES : Fld := ⟨.HOKUKE_CFG, 16, 8, .RW, 16, 1, 2 ^ 64⟩
def HOKUKE_CFG_RNR_US : Fld := ⟨.HOKUKE_CFG, 32, 24, .RW, 10000, 0, 2 ^ 64⟩
def HOKUKE_ROUTE_ENTRY : Fld := ⟨.HOKUKE_ROUTE, 0, 48, .RO, 0, 0, 2 ^ 64⟩
def HOKUKE_TX_PACKETS_COUNT : Fld := ⟨.HOKUKE_TX_PACKETS, 0, 64, .RO, 0, 0, 2 ^ 64⟩
def HOKUKE_RX_PACKETS_COUNT : Fld := ⟨.HOKUKE_RX_PACKETS, 0, 64, .RO, 0, 0, 2 ^ 64⟩
def HOKUKE_RESENDS_COUNT : Fld := ⟨.HOKUKE_RESENDS, 0, 64, .RO, 0, 0, 2 ^ 64⟩
def HOKUKE_TRANSIT_FLITS_COUNT : Fld := ⟨.HOKUKE_TRANSIT_FLITS, 0, 64, .RO, 0, 0, 2 ^ 64⟩
def HOKUKE_UNREACHABLE_COUNT : Fld := ⟨.HOKUKE_UNREACHABLE, 0, 64, .RO, 0, 0, 2 ^ 64⟩
def OE_STATUS_STATE : Fld := ⟨.OE_STATUS, 0, 3, .RO, 0, 0, 2 ^ 64⟩
def OE_STATUS_WIDTH : Fld := ⟨.OE_STATUS, 3, 4, .RO, 0, 0, 2 ^ 64⟩
def OE_STATUS_INPUT : Fld := ⟨.OE_STATUS, 7, 1, .RO, 0, 0, 2 ^ 64⟩
def OE_STATUS_A_OK : Fld := ⟨.OE_STATUS, 8, 1, .RO, 0, 0, 2 ^ 64⟩
def OE_STATUS_B_OK : Fld := ⟨.OE_STATUS, 9, 1, .RO, 0, 0, 2 ^ 64⟩
def OE_STATUS_LONG_REACH : Fld := ⟨.OE_STATUS, 10, 1, .RO, 0, 0, 2 ^ 64⟩
def OE_STATUS_RANK_CLASH : Fld := ⟨.OE_STATUS, 11, 1, .RO, 0, 0, 2 ^ 64⟩
def OE_CFG_LONG_REACH : Fld := ⟨.OE_CFG, 0, 1, .RW, 0, 0, 2 ^ 64⟩
def OE_CFG_LOSS_DBM : Fld := ⟨.OE_CFG, 8, 8, .RW, 10, 0, 15⟩
def OE_CFG_SER_EXP : Fld := ⟨.OE_CFG, 16, 5, .RW, 12, 6, 20⟩
def OE_LASER_A_PWR : Fld := ⟨.OE_LASER, 0, 16, .RO, 32768, 0, 2 ^ 64⟩
def OE_LASER_B_PWR : Fld := ⟨.OE_LASER, 16, 16, .RO, 32768, 0, 2 ^ 64⟩
def OE_LANE_LOCK : Fld := ⟨.OE_LANE, 0, 1, .RO, 0, 0, 2 ^ 64⟩
def OE_LANE_RETIRED : Fld := ⟨.OE_LANE, 1, 1, .RO, 0, 0, 2 ^ 64⟩
def OE_LANE_RX_PWR : Fld := ⟨.OE_LANE, 2, 16, .RO, 32768, 0, 2 ^ 64⟩
def OE_LANE_SYM_ERR : Fld := ⟨.OE_LANE, 32, 32, .RO, 0, 0, 2 ^ 64⟩
def OE_PEER_RANK : Fld := ⟨.OE_PEER, 0, 14, .RO, 0, 0, 2 ^ 64⟩
def OE_PEER_VALID : Fld := ⟨.OE_PEER, 14, 1, .RO, 0, 0, 2 ^ 64⟩
def OE_PEER_TIME_VALID : Fld := ⟨.OE_PEER, 15, 1, .RO, 0, 0, 2 ^ 64⟩
def OE_PEER_ENGINE : Fld := ⟨.OE_PEER, 16, 3, .RO, 0, 0, 2 ^ 64⟩
def OE_PEER_OFFSET_VALUE : Fld := ⟨.OE_PEER_OFFSET, 0, 64, .RO, 0, 0, 2 ^ 64⟩
def OE_PEER_DELAY_VALUE : Fld := ⟨.OE_PEER_DELAY, 0, 64, .RO, 0, 0, 2 ^ 64⟩
def OE_FLITS_TX_COUNT : Fld := ⟨.OE_FLITS_TX, 0, 64, .RO, 0, 0, 2 ^ 64⟩
def OE_FLITS_RX_COUNT : Fld := ⟨.OE_FLITS_RX, 0, 64, .RO, 0, 0, 2 ^ 64⟩
def OE_CRC_FAIL_COUNT : Fld := ⟨.OE_CRC_FAIL, 0, 64, .RO, 0, 0, 2 ^ 64⟩
def OE_REPLAYS_COUNT : Fld := ⟨.OE_REPLAYS, 0, 64, .RO, 0, 0, 2 ^ 64⟩
def OE_FEC_CORR_COUNT : Fld := ⟨.OE_FEC_CORR, 0, 64, .RO, 0, 0, 2 ^ 64⟩
def OE_FEC_UNCORR_COUNT : Fld := ⟨.OE_FEC_UNCORR, 0, 64, .RO, 0, 0, 2 ^ 64⟩
def OE_LASER_SWITCHES_COUNT : Fld := ⟨.OE_LASER_SWITCHES, 0, 64, .RO, 0, 0, 2 ^ 64⟩
def OE_LANE_DROPS_COUNT : Fld := ⟨.OE_LANE_DROPS, 0, 64, .RO, 0, 0, 2 ^ 64⟩
def OE_RETRAINS_COUNT : Fld := ⟨.OE_RETRAINS, 0, 64, .RO, 0, 0, 2 ^ 64⟩
-- 16_ethernet_frame_mac.md
def HOKUKE_PEER_DMAC : Fld := ⟨.HOKUKE_PEER, 0, 48, .RW, 0, 0, 2 ^ 64⟩
def HOKUKE_PEER_TCI : Fld := ⟨.HOKUKE_PEER, 48, 16, .RW, 0, 0, 2 ^ 64⟩
def HOKUKE_PEER_VLAN : Fld := ⟨.HOKUKE_PEER, 64, 1, .RW, 0, 0, 2 ^ 64⟩
def HOKUKE_PEER_IPV6 : Fld := ⟨.HOKUKE_PEER, 65, 1, .RW, 0, 0, 2 ^ 64⟩
def HOKUKE_PEER_SECOND : Fld := ⟨.HOKUKE_PEER, 66, 1, .RW, 0, 0, 2 ^ 64⟩
def HOKUKE_PEER_VALID : Fld := ⟨.HOKUKE_PEER, 67, 1, .RW, 0, 0, 2 ^ 64⟩
def HOKUKE_PEER_DSCP : Fld := ⟨.HOKUKE_PEER, 72, 6, .RW, 0, 0, 2 ^ 64⟩
def HOKUKE_PEER_IP_LO : Fld := ⟨.HOKUKE_PEER, 128, 64, .RW, 0, 0, 2 ^ 64⟩
def HOKUKE_PEER_IP_HI : Fld := ⟨.HOKUKE_PEER, 192, 64, .RW, 0, 0, 2 ^ 64⟩
def MAC_STATUS_ACTIVE : Fld := ⟨.MAC_STATUS, 0, 1, .RO, 0, 0, 2 ^ 64⟩
def MAC_STATUS_LINK : Fld := ⟨.MAC_STATUS, 1, 1, .RO, 0, 0, 2 ^ 64⟩
def MAC_STATUS_PREEMPT_ACTIVE : Fld := ⟨.MAC_STATUS, 2, 1, .RO, 0, 0, 2 ^ 64⟩
def MAC_STATUS_VERIFY_FAIL : Fld := ⟨.MAC_STATUS, 3, 1, .RO, 0, 0, 2 ^ 64⟩
def MAC_STATUS_PAUSED : Fld := ⟨.MAC_STATUS, 4, 8, .RO, 0, 0, 2 ^ 64⟩
def MAC_STATUS_WD_TRIPPED : Fld := ⟨.MAC_STATUS, 12, 8, .RO, 0, 0, 2 ^ 64⟩
def MAC_CFG_RX_EN : Fld := ⟨.MAC_CFG, 0, 1, .RW, 0, 0, 2 ^ 64⟩
def MAC_CFG_TX_EN : Fld := ⟨.MAC_CFG, 1, 1, .RW, 0, 0, 2 ^ 64⟩
def MAC_CFG_PROMISC : Fld := ⟨.MAC_CFG, 2, 1, .RW, 0, 0, 2 ^ 64⟩
def MAC_CFG_BCAST_EN : Fld := ⟨.MAC_CFG, 3, 1, .RW, 1, 0, 2 ^ 64⟩
def MAC_CFG_ALLMULTI : Fld := ⟨.MAC_CFG, 4, 1, .RW, 0, 0, 2 ^ 64⟩
def MAC_CFG_RAW_EN : Fld := ⟨.MAC_CFG, 5, 1, .RW, 0, 0, 2 ^ 64⟩
def MAC_CFG_TS_ALL : Fld := ⟨.MAC_CFG, 6, 1, .RW, 0, 0, 2 ^ 64⟩
def MAC_ADDR_ADDR : Fld := ⟨.MAC_ADDR, 0, 48, .RW, 0, 0, 2 ^ 64⟩
def MAC_L3_CFG_UDP_PORT : Fld := ⟨.MAC_L3_CFG, 0, 16, .RW, 46561, 0, 2 ^ 64⟩
def MAC_L3_CFG_TTL : Fld := ⟨.MAC_L3_CFG, 16, 8, .RW, 64, 1, 2 ^ 64⟩
def MAC_L3_CFG_DATA_PCP : Fld := ⟨.MAC_L3_CFG, 24, 3, .RW, 3, 0, 2 ^ 64⟩
def MAC_L3_CFG_CTRL_PCP : Fld := ⟨.MAC_L3_CFG, 27, 3, .RW, 6, 0, 2 ^ 64⟩
def MAC_L3_CFG_SEG_PAYLOAD : Fld := ⟨.MAC_L3_CFG, 32, 8, .RW, 128, 16, 128⟩
def MAC_IP4_ADDR : Fld := ⟨.MAC_IP4, 0, 32, .RW, 0, 0, 2 ^ 64⟩
def MAC_IP6_ADDR_LO : Fld := ⟨.MAC_IP6, 0, 64, .RW, 0, 0, 2 ^ 64⟩
def MAC_IP6_ADDR_HI : Fld := ⟨.MAC_IP6, 64, 64, .RW, 0, 0, 2 ^ 64⟩
def MAC_FLOW_MODE : Fld := ⟨.MAC_FLOW, 0, 2, .RW, 0, 0, 2 ^ 64⟩
def MAC_FLOW_PFC_EN : Fld := ⟨.MAC_FLOW, 2, 8, .RW, 0, 0, 2 ^ 64⟩
def MAC_FLOW_PAUSE_QUANTA : Fld := ⟨.MAC_FLOW, 10, 16, .RW, 65535, 0, 2 ^ 64⟩
def MAC_FLOW_WD_MS : Fld := ⟨.MAC_FLOW, 26, 10, .RW, 50, 1, 1000⟩
def MAC_FLOW_UNTAGGED_PRI : Fld := ⟨.MAC_FLOW, 36, 3, .RW, 0, 0, 2 ^ 64⟩
def MAC_XOFF_XOFF : Fld := ⟨.MAC_XOFF, 0, 16, .RW, 256, 0, 2 ^ 64⟩
def MAC_XOFF_XON : Fld := ⟨.MAC_XOFF, 16, 16, .RW, 128, 0, 2 ^ 64⟩
def MAC_PREEMPT_EN : Fld := ⟨.MAC_PREEMPT, 0, 1, .RW, 0, 0, 2 ^ 64⟩
def MAC_PREEMPT_VERIFY_DIS : Fld := ⟨.MAC_PREEMPT, 1, 1, .RW, 0, 0, 2 ^ 64⟩
def MAC_PREEMPT_EXPRESS_PRI : Fld := ⟨.MAC_PREEMPT, 2, 8, .RW, 192, 0, 2 ^ 64⟩
def MAC_PREEMPT_ADD_FRAG : Fld := ⟨.MAC_PREEMPT, 10, 2, .RW, 0, 0, 2 ^ 64⟩
def MAC_PREEMPT_VERIFY_MS : Fld := ⟨.MAC_PREEMPT, 12, 8, .RW, 10, 1, 2 ^ 64⟩
def MAC_RC_CFG_RC_MIN : Fld := ⟨.MAC_RC_CFG, 0, 12, .RW, 8, 1, 1600⟩
def MAC_RC_CFG_RC_DEC : Fld := ⟨.MAC_RC_CFG, 12, 8, .RW, 32, 0, 2 ^ 64⟩
def MAC_RC_CFG_RC_HOLD_US : Fld := ⟨.MAC_RC_CFG, 20, 16, .RW, 50, 1, 2 ^ 64⟩
def MAC_RC_CFG_RC_INC_US : Fld := ⟨.MAC_RC_CFG, 36, 16, .RW, 55, 1, 2 ^ 64⟩
def MAC_RC_CFG_RC_INC : Fld := ⟨.MAC_RC_CFG, 52, 12, .RW, 8, 0, 2 ^ 64⟩
def MAC_TS_CFG_TX_ADJ : Fld := ⟨.MAC_TS_CFG, 0, 32, .RW, 0, 0, 2 ^ 64⟩
def MAC_TS_CFG_RX_ADJ : Fld := ⟨.MAC_TS_CFG, 32, 32, .RW, 0, 0, 2 ^ 64⟩
def MAC_TXTS_NS_NS : Fld := ⟨.MAC_TXTS_NS, 0, 64, .RO, 0, 0, 2 ^ 64⟩
def MAC_TXTS_POP_FRAC : Fld := ⟨.MAC_TXTS_POP, 0, 4, .RC, 0, 0, 2 ^ 64⟩
def MAC_TXTS_POP_SLOT : Fld := ⟨.MAC_TXTS_POP, 4, 16, .RC, 0, 0, 2 ^ 64⟩
def MAC_TXTS_POP_VALID : Fld := ⟨.MAC_TXTS_POP, 31, 1, .RC, 0, 0, 2 ^ 64⟩
def MAC_RAWRX_BASE_LOC : Fld := ⟨.MAC_RAWRX_BASE, 0, 1, .RW, 0, 0, 2 ^ 64⟩
def MAC_RAWRX_BASE_ADDR : Fld := ⟨.MAC_RAWRX_BASE, 12, 52, .RW, 0, 0, 2 ^ 64⟩
def MAC_RAWTX_BASE_LOC : Fld := ⟨.MAC_RAWTX_BASE, 0, 1, .RW, 0, 0, 2 ^ 64⟩
def MAC_RAWTX_BASE_ADDR : Fld := ⟨.MAC_RAWTX_BASE, 12, 52, .RW, 0, 0, 2 ^ 64⟩
def MAC_RAWRX_CFG_EN : Fld := ⟨.MAC_RAWRX_CFG, 0, 1, .RW, 0, 0, 2 ^ 64⟩
def MAC_RAWRX_CFG_SIZE_LOG2 : Fld := ⟨.MAC_RAWRX_CFG, 1, 4, .RW, 4, 0, 2 ^ 64⟩
def MAC_RAWTX_CFG_EN : Fld := ⟨.MAC_RAWTX_CFG, 0, 1, .RW, 0, 0, 2 ^ 64⟩
def MAC_RAWTX_CFG_SIZE_LOG2 : Fld := ⟨.MAC_RAWTX_CFG, 1, 4, .RW, 4, 0, 2 ^ 64⟩
def MAC_RAWRX_HEAD_CONSUMED : Fld := ⟨.MAC_RAWRX_HEAD, 0, 32, .WO, 0, 0, 2 ^ 64⟩
def MAC_RAWRX_TAIL_WRITTEN : Fld := ⟨.MAC_RAWRX_TAIL, 0, 32, .RO, 0, 0, 2 ^ 64⟩
def MAC_RAWTX_TAIL_POSTED : Fld := ⟨.MAC_RAWTX_TAIL, 0, 32, .WO, 0, 0, 2 ^ 64⟩
def MAC_RAWTX_DONE_SENT : Fld := ⟨.MAC_RAWTX_DONE, 0, 32, .RO, 0, 0, 2 ^ 64⟩
def MAC_STATS_HALF_RX_HALF : Fld := ⟨.MAC_STATS_HALF_RX, 0, 45, .W1C, 0, 0, 2 ^ 64⟩
def MAC_STATS_HALF_TX_HALF : Fld := ⟨.MAC_STATS_HALF_TX, 0, 45, .W1C, 0, 0, 2 ^ 64⟩
def MAC_UC_ADDR : Fld := ⟨.MAC_UC, 0, 48, .RO, 0, 0, 2 ^ 64⟩
def MAC_UC_VALID : Fld := ⟨.MAC_UC, 48, 1, .RO, 0, 0, 2 ^ 64⟩
def MAC_HASH_BITS : Fld := ⟨.MAC_HASH, 0, 64, .RO, 0, 0, 2 ^ 64⟩
-- 17_power_up_boot_security.md
def OSTLER_BOOT_STATUS_STAGE : Fld := ⟨.OSTLER_BOOT_STATUS, 0, 4, .RO, 0, 0, 2 ^ 64⟩
def OSTLER_BOOT_STATUS_ERROR : Fld := ⟨.OSTLER_BOOT_STATUS, 4, 8, .RO, 0, 0, 2 ^ 64⟩
def OSTLER_BOOT_STATUS_READY : Fld := ⟨.OSTLER_BOOT_STATUS, 12, 1, .RO, 0, 0, 2 ^ 64⟩
def OSTLER_BOOT_STATUS_SECURITY : Fld := ⟨.OSTLER_BOOT_STATUS, 13, 2, .RO, 0, 0, 2 ^ 64⟩
def OSTLER_BOOT_STATUS_ATTEMPTS : Fld := ⟨.OSTLER_BOOT_STATUS, 16, 8, .RO, 0, 0, 2 ^ 64⟩
def OSTLER_BOOT_CTL_GO : Fld := ⟨.OSTLER_BOOT_CTL, 0, 1, .WO, 0, 0, 2 ^ 64⟩
def OSTLER_FW_INFO_SVN : Fld := ⟨.OSTLER_FW_INFO, 0, 7, .RO, 0, 0, 2 ^ 64⟩
def OSTLER_FW_INFO_SVN_FLOOR : Fld := ⟨.OSTLER_FW_INFO, 8, 7, .RO, 0, 0, 2 ^ 64⟩
def OSTLER_FW_INFO_KEY_SLOT : Fld := ⟨.OSTLER_FW_INFO, 16, 2, .RO, 0, 0, 2 ^ 64⟩
def OSTLER_FW_INFO_BUILD_LO : Fld := ⟨.OSTLER_FW_INFO, 32, 32, .RO, 0, 0, 2 ^ 64⟩
def OSTLER_CLAMP_COUNT_ENTRIES : Fld := ⟨.OSTLER_CLAMP_COUNT, 0, 10, .RO, 0, 0, 2 ^ 64⟩
def OSTLER_CLAMP_COUNT_LOST : Fld := ⟨.OSTLER_CLAMP_COUNT, 16, 16, .RO, 0, 0, 2 ^ 64⟩
def OSTLER_DEBUG_NONCE_NONCE : Fld := ⟨.OSTLER_DEBUG_NONCE, 0, 64, .RO, 0, 0, 2 ^ 64⟩
def OSTLER_DEBUG_CTL_SUBMIT : Fld := ⟨.OSTLER_DEBUG_CTL, 0, 1, .WO, 0, 0, 2 ^ 64⟩
def OSTLER_DEBUG_STATUS_OPEN : Fld := ⟨.OSTLER_DEBUG_STATUS, 0, 4, .RO, 0, 0, 2 ^ 64⟩
def OSTLER_DEBUG_STATUS_BUSY : Fld := ⟨.OSTLER_DEBUG_STATUS, 4, 1, .RO, 0, 0, 2 ^ 64⟩
def OSTLER_DEBUG_STATUS_RESULT : Fld := ⟨.OSTLER_DEBUG_STATUS, 8, 4, .RO, 0, 0, 2 ^ 64⟩
def OSTLER_SERIAL_LO_SERIAL : Fld := ⟨.OSTLER_SERIAL_LO, 0, 64, .RO, 0, 0, 2 ^ 64⟩
def OSTLER_SERIAL_HI_SERIAL : Fld := ⟨.OSTLER_SERIAL_HI, 0, 64, .RO, 0, 0, 2 ^ 64⟩
-- 18_faults_and_recovery.md
def OSTLER_FAULT_CFG_AUTO_RETIRE : Fld := ⟨.OSTLER_FAULT_CFG, 0, 1, .RW, 1, 0, 2 ^ 64⟩
def OSTLER_FAULT_CFG_TS_ERRS : Fld := ⟨.OSTLER_FAULT_CFG, 4, 4, .RW, 4, 1, 2 ^ 64⟩
def OSTLER_FAULT_CFG_TS_WIN_MS : Fld := ⟨.OSTLER_FAULT_CFG, 8, 12, .RW, 1000, 1, 2 ^ 64⟩
def OSTLER_FAULT_CFG_MOD_ERRS : Fld := ⟨.OSTLER_FAULT_CFG, 20, 4, .RW, 2, 1, 2 ^ 64⟩
def OSTLER_FAULT_CFG_MOD_WIN_MS : Fld := ⟨.OSTLER_FAULT_CFG, 32, 12, .RW, 1000, 1, 2 ^ 64⟩
def OSTLER_FAULT_STATUS_MODULE_FAULT : Fld := ⟨.OSTLER_FAULT_STATUS, 0, 1, .RO, 0, 0, 2 ^ 64⟩
def OSTLER_FAULT_STATUS_FAULT_N : Fld := ⟨.OSTLER_FAULT_STATUS, 1, 1, .RO, 0, 0, 2 ^ 64⟩
def OSTLER_FAULT_STATUS_CLASS : Fld := ⟨.OSTLER_FAULT_STATUS, 2, 8, .RO, 0, 0, 2 ^ 64⟩
def OSTLER_FAULT_STATUS_SOURCE : Fld := ⟨.OSTLER_FAULT_STATUS, 10, 10, .RO, 0, 0, 2 ^ 64⟩
def OSTLER_FAULT_STATUS_ESC_COUNT : Fld := ⟨.OSTLER_FAULT_STATUS, 20, 12, .RO, 0, 0, 2 ^ 64⟩
def OSTLER_ERRLOG_STATUS_WRITTEN : Fld := ⟨.OSTLER_ERRLOG_STATUS, 0, 32, .RO, 0, 0, 2 ^ 64⟩
def OSTLER_ERRLOG_STATUS_OVERFLOW : Fld := ⟨.OSTLER_ERRLOG_STATUS, 32, 32, .RO, 0, 0, 2 ^ 64⟩
def OSTLER_ERRLOG_CONSUMED_CONSUMED : Fld := ⟨.OSTLER_ERRLOG_CONSUMED, 0, 32, .RW, 0, 0, 2 ^ 64⟩
def OSTLER_ABSORBED_COUNT : Fld := ⟨.OSTLER_ABSORBED, 0, 64, .RO, 0, 0, 2 ^ 64⟩
def OSTLER_RETURNED_COUNT : Fld := ⟨.OSTLER_RETURNED, 0, 64, .RO, 0, 0, 2 ^ 64⟩
def OSTLER_STEP_RESTARTS_COUNT : Fld := ⟨.OSTLER_STEP_RESTARTS, 0, 64, .RO, 0, 0, 2 ^ 64⟩
def OSTLER_TILES_RETIRED_COUNT : Fld := ⟨.OSTLER_TILES_RETIRED, 0, 64, .RO, 0, 0, 2 ^ 64⟩
def OSTLER_INTERRUPT_MAX_NS_COUNT : Fld := ⟨.OSTLER_INTERRUPT_MAX_NS, 0, 64, .RC, 0, 0, 2 ^ 64⟩
-- 19_telemetry_and_trace.md
def TRACE_CFG_KINDS : Fld := ⟨.TRACE_CFG, 1, 9, .RW, 6, 0, 2 ^ 64⟩
def TRACE_CFG_ALL_CMDS : Fld := ⟨.TRACE_CFG, 10, 1, .RW, 0, 0, 2 ^ 64⟩
def TRACE_BUF_BASE_LOC : Fld := ⟨.TRACE_BUF_BASE, 0, 1, .RW, 0, 0, 2 ^ 64⟩
def TRACE_BUF_BASE_ADDR : Fld := ⟨.TRACE_BUF_BASE, 12, 52, .RW, 0, 0, 2 ^ 64⟩
def TRACE_BUF_CFG_SIZE : Fld := ⟨.TRACE_BUF_CFG, 0, 23, .RW, 0, 0, 2 ^ 64⟩
def TRACE_BUF_CFG_MODE : Fld := ⟨.TRACE_BUF_CFG, 24, 2, .RW, 1, 0, 2 ^ 64⟩
def TRACE_BUF_CFG_POST : Fld := ⟨.TRACE_BUF_CFG, 32, 32, .RW, 0, 0, 2 ^ 64⟩
def TRACE_TRIG_CFG_MIN_OUTCOME : Fld := ⟨.TRACE_TRIG_CFG, 0, 3, .RW, 3, 0, 2 ^ 64⟩
def TRACE_CTL_TRIGGER : Fld := ⟨.TRACE_CTL, 0, 1, .WO, 0, 0, 2 ^ 64⟩
def TRACE_STATUS_RUNNING : Fld := ⟨.TRACE_STATUS, 0, 1, .RO, 0, 0, 2 ^ 64⟩
def TRACE_STATUS_TRIGGERED : Fld := ⟨.TRACE_STATUS, 1, 1, .RO, 0, 0, 2 ^ 64⟩
def TRACE_STATUS_WRITTEN : Fld := ⟨.TRACE_STATUS, 32, 32, .RO, 0, 0, 2 ^ 64⟩
def TRACE_STATUS_TRIG_QUIRE : Fld := ⟨.TRACE_STATUS, 64, 32, .RO, 0, 0, 2 ^ 64⟩
def TRACE_STATUS_WRAPS : Fld := ⟨.TRACE_STATUS, 96, 32, .RO, 0, 0, 2 ^ 64⟩
def TRACE_DROPPED_DROPPED : Fld := ⟨.TRACE_DROPPED, 0, 64, .RO, 0, 0, 2 ^ 64⟩
def GTIME_NOW_NS : Fld := ⟨.GTIME_NOW, 0, 64, .RO, 0, 0, 2 ^ 64⟩
def GTIME_STEP_STEP : Fld := ⟨.GTIME_STEP, 0, 64, .WO, 0, 0, 2 ^ 64⟩
def GTIME_SLEW_RATE_PPB : Fld := ⟨.GTIME_SLEW, 0, 32, .RW, 0, 0, 2 ^ 64⟩
def GTIME_CFG_MEASURE_MS : Fld := ⟨.GTIME_CFG, 0, 16, .RW, 0, 0, 2 ^ 64⟩
def PERF_SEL_SOURCE : Fld := ⟨.PERF_SEL, 0, 10, .RW, 0, 0, 2 ^ 64⟩
def PERF_SEL_EVENT : Fld := ⟨.PERF_SEL, 12, 6, .RW, 0, 0, 2 ^ 64⟩
def PERF_SEL_SUB : Fld := ⟨.PERF_SEL, 18, 1, .RW, 0, 0, 2 ^ 64⟩
def PERF_SEL_CTX : Fld := ⟨.PERF_SEL, 20, 4, .RW, 0, 0, 2 ^ 64⟩
def PERF_SEL_CTX_EN : Fld := ⟨.PERF_SEL, 24, 1, .RW, 0, 0, 2 ^ 64⟩
def PERF_SEL_TRIG : Fld := ⟨.PERF_SEL, 25, 1, .RW, 0, 0, 2 ^ 64⟩
def PERF_SEL_VALID : Fld := ⟨.PERF_SEL, 30, 1, .RO, 0, 0, 2 ^ 64⟩
def PERF_SEL_EN : Fld := ⟨.PERF_SEL, 31, 1, .RW, 0, 0, 2 ^ 64⟩
def PERF_CTR_COUNT : Fld := ⟨.PERF_CTR, 0, 64, .RO, 0, 0, 2 ^ 64⟩
def PERF_THRESH_THRESH : Fld := ⟨.PERF_THRESH, 0, 64, .RW, 0, 0, 2 ^ 64⟩
def PERF_CTL_CLEAR : Fld := ⟨.PERF_CTL, 0, 64, .WO, 0, 0, 2 ^ 64⟩
def PERF_STATUS_CROSSED : Fld := ⟨.PERF_STATUS, 0, 64, .W1C, 0, 0, 2 ^ 64⟩
def PERF_HOST_RD_COUNT : Fld := ⟨.PERF_HOST_RD, 0, 64, .RO, 0, 0, 2 ^ 64⟩
def PERF_HOST_WR_COUNT : Fld := ⟨.PERF_HOST_WR, 0, 64, .RO, 0, 0, 2 ^ 64⟩
def PERF_DEV_WR_COUNT : Fld := ⟨.PERF_DEV_WR, 0, 64, .RO, 0, 0, 2 ^ 64⟩
def PERF_DEV_RD_COUNT : Fld := ⟨.PERF_DEV_RD, 0, 64, .RO, 0, 0, 2 ^ 64⟩
def PERF_DOORBELLS_COUNT : Fld := ⟨.PERF_DOORBELLS, 0, 64, .RO, 0, 0, 2 ^ 64⟩
def PERF_MSIX_COUNT : Fld := ⟨.PERF_MSIX, 0, 64, .RO, 0, 0, 2 ^ 64⟩
def CURB_POWER_MW : Fld := ⟨.CURB_POWER, 0, 24, .RO, 0, 0, 2 ^ 64⟩
def CURB_POWER_PEAK_MW_K : Fld := ⟨.CURB_POWER, 32, 16, .RC, 0, 0, 2 ^ 64⟩
def CURB_ENERGY_UJ_UJ : Fld := ⟨.CURB_ENERGY_UJ, 0, 64, .RO, 0, 0, 2 ^ 64⟩
def CURB_TEMP_TEMP : Fld := ⟨.CURB_TEMP, 0, 16, .RO, 0, 0, 2 ^ 64⟩
def CURB_ACTIONS_COUNT : Fld := ⟨.CURB_ACTIONS, 0, 64, .RO, 0, 0, 2 ^ 64⟩
def CURB_GAP_CYCLES_COUNT : Fld := ⟨.CURB_GAP_CYCLES, 0, 64, .RO, 0, 0, 2 ^ 64⟩
def CURB_THROTTLE_CYCLES_COUNT : Fld := ⟨.CURB_THROTTLE_CYCLES, 0, 64, .RO, 0, 0, 2 ^ 64⟩
-- 21_package_power_thermal.md
def OSTLER_GPIO_DIR : Fld := ⟨.OSTLER_GPIO, 0, 8, .RW, 0, 0, 2 ^ 64⟩
def OSTLER_GPIO_OUT : Fld := ⟨.OSTLER_GPIO, 8, 8, .RW, 0, 0, 2 ^ 64⟩
def OSTLER_GPIO_IN : Fld := ⟨.OSTLER_GPIO, 16, 8, .RO, 0, 0, 2 ^ 64⟩
def CURB_CFG_CAP_W : Fld := ⟨.CURB_CFG, 0, 12, .RW, 780, 0, 2 ^ 64⟩
def CURB_CFG_WARN_C : Fld := ⟨.CURB_CFG, 12, 8, .RW, 95, 70, 100⟩
def CURB_STATUS_ACTIVE : Fld := ⟨.CURB_STATUS, 0, 1, .RO, 0, 0, 2 ^ 64⟩
def CURB_STATUS_THROTTLE : Fld := ⟨.CURB_STATUS, 1, 1, .RO, 0, 0, 2 ^ 64⟩
def CURB_STATUS_WARN : Fld := ⟨.CURB_STATUS, 2, 1, .RO, 0, 0, 2 ^ 64⟩
def CURB_STATUS_GAP : Fld := ⟨.CURB_STATUS, 8, 6, .RO, 0, 0, 2 ^ 64⟩
def CURB_STATUS_VGAP : Fld := ⟨.CURB_STATUS, 16, 6, .RO, 0, 0, 2 ^ 64⟩
def CURB_STATUS_LIMIT_W4 : Fld := ⟨.CURB_STATUS, 22, 10, .RO, 195, 0, 2 ^ 64⟩
-- 16_ethernet_frame_mac.md
def MAC_RX_COUNT : Fld := ⟨.MAC_RX, 0, 48, .RO, 0, 0, 2 ^ 64⟩
def MAC_TX_COUNT : Fld := ⟨.MAC_TX, 0, 48, .RO, 0, 0, 2 ^ 64⟩
-- 02_hitch_host_link.md
def MSIX_ADDR_ADDR : Fld := ⟨.MSIX_ADDR, 0, 64, .RW, 0, 0, 2 ^ 64⟩
def MSIX_DATA_DATA : Fld := ⟨.MSIX_DATA, 0, 32, .RW, 0, 0, 2 ^ 64⟩
def MSIX_CTL_MASK : Fld := ⟨.MSIX_CTL, 0, 1, .RW, 1, 0, 2 ^ 64⟩
def MSIX_PBA_PEND : Fld := ⟨.MSIX_PBA, 0, 64, .RO, 0, 0, 2 ^ 64⟩

end Fld

/-! The register table, in the order of `RegId`'s constructors. -/

/-- Part 0 of the register table. -/
def regTable0 : List RegInfo :=
  [⟨.CAPS_IDENT, 0x0, [], 32, [.CAPS_IDENT_PART, .CAPS_IDENT_STEP_MAJOR, .CAPS_IDENT_STEP_MINOR, .CAPS_IDENT_FAMILY]⟩,
   ⟨.CAPS_LAYOUT, 0x4, [], 32, [.CAPS_LAYOUT_VERSION, .CAPS_LAYOUT_ENVELOPE]⟩,
   ⟨.CAPS_GEN, 0x8, [], 32, [.CAPS_GEN_GEN]⟩,
   ⟨.CAPS_COUNTS, 0xc, [], 32, [.CAPS_COUNTS_TILES, .CAPS_COUNTS_STACKS, .CAPS_COUNTS_ENGINES, .CAPS_COUNTS_CHANNELS, .CAPS_COUNTS_VAT_SLICES]⟩,
   ⟨.CAPS_TILE_MASK, 0x10, [], 64, [.CAPS_TILE_MASK_TILE]⟩,
   ⟨.CAPS_STACK_MASK, 0x18, [], 32, [.CAPS_STACK_MASK_STACK]⟩,
   ⟨.CAPS_CLOCKS, 0x20, [], 64, [.CAPS_CLOCKS_TILE_MHZ, .CAPS_CLOCKS_VAT_MHZ, .CAPS_CLOCKS_ENGINE_MHZ, .CAPS_CLOCKS_OSTLER_MHZ]⟩,
   ⟨.CAPS_LIMITS, 0x28, [], 32, [.CAPS_LIMITS_CONTEXTS, .CAPS_LIMITS_RINGS, .CAPS_LIMITS_MAILBOXES]⟩,
   ⟨.CAPS_HOST, 0x2c, [], 32, [.CAPS_HOST_WIDTH, .CAPS_HOST_GEN, .CAPS_HOST_CXL]⟩,
   ⟨.CAPS_CHANNEL_MASK, 0x40, [(8, 8)], 64, [.CAPS_CHANNEL_MASK_CHANNEL, .CAPS_CHANNEL_MASK_PSEUDO]⟩,
   ⟨.CAPS_OE, 0x80, [(4, 8)], 32, [.CAPS_OE_LANE_MASK, .CAPS_OE_PRESENT, .CAPS_OE_ROLE]⟩,
   ⟨.CAPS_MEM_RAW, 0xc0, [], 64, [.CAPS_MEM_RAW_BYTES]⟩,
   ⟨.CAPS_MEM_CHECKED, 0xc8, [], 64, [.CAPS_MEM_CHECKED_BYTES]⟩,
   ⟨.CAPS_MEM_ADDR, 0xd0, [], 64, [.CAPS_MEM_ADDR_BYTES]⟩,
   ⟨.HITCH_STATUS, 0x200000, [], 32, [.HITCH_STATUS_LINK_UP, .HITCH_STATUS_CUT_ACTIVE, .HITCH_STATUS_PAUSED, .HITCH_STATUS_HOLD_FULL, .HITCH_STATUS_LAST_REASON, .HITCH_STATUS_IDE_STATE]⟩,
   ⟨.HITCH_CFG, 0x200008, [], 32, [.HITCH_CFG_RIDE_THROUGH, .HITCH_CFG_CR_PATH, .HITCH_CFG_P2P]⟩,
   ⟨.HITCH_BAR2_MAP, 0x200010, [], 64, [.HITCH_BAR2_MAP_CTX, .HITCH_BAR2_MAP_VALID, .HITCH_BAR2_MAP_VA_BASE]⟩,
   ⟨.HITCH_HDM_MAP, 0x200040, [(8, 4)], 64, [.HITCH_HDM_MAP_CTX, .HITCH_HDM_MAP_VALID, .HITCH_HDM_MAP_VA_BASE]⟩,
   ⟨.HITCH_RESUME, 0x200018, [], 32, [.HITCH_RESUME_GO]⟩,
   ⟨.HITCH_CUT_STATUS, 0x200020, [], 64, [.HITCH_CUT_STATUS_COUNT, .HITCH_CUT_STATUS_OVERFLOW, .HITCH_CUT_STATUS_CUT_GEN]⟩,
   ⟨.HITCH_WIN_BASE, 0x210000, [(32, 1024)], 64, [.HITCH_WIN_BASE_ADDR]⟩,
   ⟨.HITCH_WIN_LIMIT, 0x210008, [(32, 1024)], 64, [.HITCH_WIN_LIMIT_ADDR]⟩,
   ⟨.HITCH_WIN_TARGET, 0x210010, [(32, 1024)], 64, [.HITCH_WIN_TARGET_TARGET_VA]⟩,
   ⟨.HITCH_WIN_CTL, 0x210018, [(32, 1024)], 64, [.HITCH_WIN_CTL_ENABLE, .HITCH_WIN_CTL_READ, .HITCH_WIN_CTL_ORDERED, .HITCH_WIN_CTL_REQ_CHECK, .HITCH_WIN_CTL_CTX, .HITCH_WIN_CTL_REQUESTER]⟩,
   ⟨.MBX_MSG, 0x18000, [(64, 16)], 32, [.MBX_MSG_MSG]⟩,
   ⟨.MBX_TAKE, 0x18008, [(64, 16)], 64, [.MBX_TAKE_MSG, .MBX_TAKE_FULL]⟩,
   ⟨.MBX_STATUS, 0x18010, [(64, 16)], 32, [.MBX_STATUS_FULL, .MBX_STATUS_OVERRUN, .MBX_STATUS_LOCK_ERR, .MBX_STATUS_OWNER]⟩,
   ⟨.MBX_LOCK, 0x18018, [(64, 16)], 32, [.MBX_LOCK_OWNER]⟩,
   ⟨.MBX_LOCK_FORCE, 0x1801c, [(64, 16)], 32, [.MBX_LOCK_FORCE_RELEASE]⟩,
   ⟨.MBX_DB, 0x18020, [(64, 16)], 32, [.MBX_DB_BITS]⟩,
   ⟨.MBX_DB_ACK, 0x18024, [(64, 16)], 32, [.MBX_DB_ACK_BITS]⟩,
   ⟨.MBX_DB_MASK, 0x18028, [(64, 16)], 32, [.MBX_DB_MASK_MASK]⟩,
   ⟨.MBX_ROUTE, 0x1802c, [(64, 16)], 32, [.MBX_ROUTE_CLASS, .MBX_ROUTE_INDEX, .MBX_ROUTE_FLAG]⟩,
   ⟨.MBX_LOCK_AS, 0x1a000, [(256, 16), (4, 64)], 32, [.MBX_LOCK_AS_OWNER]⟩,
   ⟨.SPAOG_DB, 0x100000, [(64, 256)], 32, [.SPAOG_DB_SEQ]⟩,
   ⟨.SPAOG_CQ_DB, 0x104000, [(64, 256)], 32, [.SPAOG_CQ_DB_CONSUMED]⟩,
   ⟨.SPAOG_SQ_BASE, 0x110000, [(32, 256)], 64, [.SPAOG_SQ_BASE_LOC, .SPAOG_SQ_BASE_ADDR]⟩,
   ⟨.SPAOG_SQ_CFG, 0x110008, [(32, 256)], 32, [.SPAOG_SQ_CFG_ENABLE, .SPAOG_SQ_CFG_SIZE_LOG2, .SPAOG_SQ_CFG_CTX, .SPAOG_SQ_CFG_PRIORITY, .SPAOG_SQ_CFG_CQ, .SPAOG_SQ_CFG_TILE]⟩,
   ⟨.SPAOG_SQ_HEAD, 0x110010, [(32, 256)], 64, [.SPAOG_SQ_HEAD_SEQ, .SPAOG_SQ_HEAD_POS]⟩,
   ⟨.SPAOG_SQ_STATUS, 0x110018, [(32, 256)], 32, [.SPAOG_SQ_STATUS_STATE, .SPAOG_SQ_STATUS_EARLY, .SPAOG_SQ_STATUS_EARLY_LOST]⟩,
   ⟨.SPAOG_SQ_DBVAL, 0x11001c, [(32, 256)], 32, [.SPAOG_SQ_DBVAL_LIMIT]⟩,
   ⟨.SPAOG_CQ_BASE, 0x112000, [(32, 256)], 64, [.SPAOG_CQ_BASE_LOC, .SPAOG_CQ_BASE_ADDR]⟩,
   ⟨.SPAOG_CQ_TAILWB, 0x112008, [(32, 256)], 64, [.SPAOG_CQ_TAILWB_LOC, .SPAOG_CQ_TAILWB_EN, .SPAOG_CQ_TAILWB_ADDR]⟩,
   ⟨.SPAOG_CQ_CFG, 0x112010, [(32, 256)], 64, [.SPAOG_CQ_CFG_ENABLE, .SPAOG_CQ_CFG_SIZE_LOG2, .SPAOG_CQ_CFG_VECTOR, .SPAOG_CQ_CFG_COAL_COUNT, .SPAOG_CQ_CFG_COAL_TIME, .SPAOG_CQ_CFG_CTX, .SPAOG_CQ_CFG_FAULT, .SPAOG_CQ_CFG_LOST]⟩,
   ⟨.SPAOG_CQ_TAIL, 0x112018, [(32, 256)], 32, [.SPAOG_CQ_TAIL_WRITTEN]⟩,
   ⟨.SPAOG_CQ_HEAD, 0x11201c, [(32, 256)], 32, [.SPAOG_CQ_HEAD_CONSUMED]⟩,
   ⟨.SPAOG_GATE, 0x120000, [(8, 4096)], 64, [.SPAOG_GATE_VALUE, .SPAOG_GATE_CTX, .SPAOG_GATE_ENABLE]⟩,
   ⟨.SPAOG_EVT_ROUTE, 0x130000, [(4, 8)], 32, [.SPAOG_EVT_ROUTE_VECTOR, .SPAOG_EVT_ROUTE_ENABLE]⟩,
   ⟨.SPAOG_EVT_PEND, 0x130100, [], 32, [.SPAOG_EVT_PEND_PEND]⟩,
   ⟨.TILE_STATUS, 0x400000, [(65536, 64)], 32, [.TILE_STATUS_STATE, .TILE_STATUS_QUEUED, .TILE_STATUS_OPEN, .TILE_STATUS_ACC_MODE, .TILE_STATUS_CFG_REJECT, .TILE_STATUS_REPLAYING]⟩]

/-- Part 1 of the register table. -/
def regTable1 : List RegInfo :=
  [⟨.TILE_CFG, 0x400008, [(65536, 64)], 32, [.TILE_CFG_ACC_MODE, .TILE_CFG_LEGACY_BF16, .TILE_CFG_LEGACY_ROWS, .TILE_CFG_CTX]⟩,
   ⟨.TILE_CTL, 0x400010, [(65536, 64)], 32, [.TILE_CTL_RELEASE, .TILE_CTL_FLUSH]⟩,
   ⟨.TILE_CHECK_CFG, 0x400018, [(65536, 64)], 64, [.TILE_CHECK_CFG_ENABLE, .TILE_CHECK_CFG_TOL_EXP, .TILE_CHECK_CFG_TOL_ABS]⟩,
   ⟨.TILE_CHECK_FAIL, 0x400020, [(65536, 64)], 64, [.TILE_CHECK_FAIL_COUNT]⟩,
   ⟨.TILE_CHECK_SKIPPED, 0x400028, [(65536, 64)], 64, [.TILE_CHECK_SKIPPED_COUNT]⟩,
   ⟨.TILE_CHECK_REPLAYS, 0x400030, [(65536, 64)], 64, [.TILE_CHECK_REPLAYS_COUNT]⟩,
   ⟨.TILE_CVT_SAT, 0x400040, [(65536, 64)], 64, [.TILE_CVT_SAT_COUNT]⟩,
   ⟨.TILE_CVT_UFL, 0x400048, [(65536, 64)], 64, [.TILE_CVT_UFL_COUNT]⟩,
   ⟨.TILE_ARRAY_BUSY, 0x400050, [(65536, 64)], 64, [.TILE_ARRAY_BUSY_COUNT]⟩,
   ⟨.TILE_FLAG, 0x400100, [(65536, 64), (8, 16)], 32, [.TILE_FLAG_VALUE]⟩,
   ⟨.TILE_GRP, 0x400200, [(65536, 64), (8, 8)], 64, [.TILE_GRP_OPEN, .TILE_GRP_INT, .TILE_GRP_FIRST_ROW, .TILE_GRP_ROWS, .TILE_GRP_MATMULS, .TILE_GRP_ARRAY_CYCLES]⟩,
   ⟨.TILE_SLOT_OPEN, 0x400300, [(65536, 64), (8, 8)], 64, [.TILE_SLOT_OPEN_OPEN]⟩,
   ⟨.TILE_VX_CFG, 0x400060, [(65536, 64)], 32, [.TILE_VX_CFG_SVC_EN, .TILE_VX_CFG_SHARE]⟩,
   ⟨.TILE_VX_STATUS, 0x400068, [(65536, 64)], 32, [.TILE_VX_STATUS_RUNNING, .TILE_VX_STATUS_SVC_ACTIVE, .TILE_VX_STATUS_PC, .TILE_VX_STATUS_VL]⟩,
   ⟨.TILE_VEC_BUSY, 0x400070, [(65536, 64)], 64, [.TILE_VEC_BUSY_COUNT]⟩,
   ⟨.TILE_VX_SVC_CYCLES, 0x400078, [(65536, 64)], 64, [.TILE_VX_SVC_CYCLES_COUNT]⟩,
   ⟨.TILE_VX_DETECT, 0x400080, [(65536, 64)], 64, [.TILE_VX_DETECT_COUNT]⟩,
   ⟨.TILE_VX_REPLAYS, 0x400088, [(65536, 64)], 64, [.TILE_VX_REPLAYS_COUNT]⟩,
   ⟨.STACK_STATUS, 0xa00000, [(262144, 8)], 32, [.STACK_STATUS_STATE, .STACK_STATUS_INIT_DONE, .STACK_STATUS_REPAIR_BUSY, .STACK_STATUS_PC_MAPPED, .STACK_STATUS_TEMP_C]⟩,
   ⟨.STACK_GEOM, 0xa00008, [(262144, 8)], 64, [.STACK_GEOM_CHANNELS, .STACK_GEOM_PCS, .STACK_GEOM_BANKS, .STACK_GEOM_SEGS_PER_BANK, .STACK_GEOM_FRAMES_PER_PC]⟩,
   ⟨.STACK_CFG, 0xa00010, [(262144, 8)], 32, [.STACK_CFG_REREADS, .STACK_CFG_PPR_MAX, .STACK_CFG_SCRUB_EN, .STACK_CFG_SCRUB_HOURS, .STACK_CFG_MAPOUT_ROWS, .STACK_CFG_MAPOUT_WIN_MS]⟩,
   ⟨.STACK_CTL, 0xa00018, [(262144, 8)], 32, [.STACK_CTL_PC, .STACK_CTL_FORCE_MAPOUT]⟩,
   ⟨.STACK_RD_LINES, 0xa00040, [(262144, 8)], 64, [.STACK_RD_LINES_COUNT]⟩,
   ⟨.STACK_WR_LINES, 0xa00048, [(262144, 8)], 64, [.STACK_WR_LINES_COUNT]⟩,
   ⟨.STACK_CHK_FETCH, 0xa00050, [(262144, 8)], 64, [.STACK_CHK_FETCH_COUNT]⟩,
   ⟨.STACK_CRC_MISMATCH, 0xa00058, [(262144, 8)], 64, [.STACK_CRC_MISMATCH_COUNT]⟩,
   ⟨.STACK_REREAD_OK, 0xa00060, [(262144, 8)], 64, [.STACK_REREAD_OK_COUNT]⟩,
   ⟨.STACK_RECON, 0xa00068, [(262144, 8)], 64, [.STACK_RECON_COUNT]⟩,
   ⟨.STACK_LOST, 0xa00070, [(262144, 8)], 64, [.STACK_LOST_COUNT]⟩,
   ⟨.STACK_ODECC_CORR, 0xa00078, [(262144, 8)], 64, [.STACK_ODECC_CORR_COUNT]⟩,
   ⟨.STACK_PPR_DONE, 0xa00080, [(262144, 8)], 64, [.STACK_PPR_DONE_COUNT]⟩,
   ⟨.STACK_PAGES_RETIRED, 0xa00088, [(262144, 8)], 64, [.STACK_PAGES_RETIRED_COUNT]⟩,
   ⟨.STACK_PPR_LOG, 0xa00100, [(262144, 8), (8, 32)], 64, [.STACK_PPR_LOG_TAG, .STACK_PPR_LOG_KIND, .STACK_PPR_LOG_COUNT]⟩,
   ⟨.REAM_STATUS, 0xa30000, [(262144, 8)], 32, [.REAM_STATUS_HOLDING, .REAM_STATUS_RECON_INFLIGHT]⟩,
   ⟨.REAM_DELTAS, 0xa30040, [(262144, 8)], 64, [.REAM_DELTAS_COUNT]⟩,
   ⟨.REAM_RECON, 0xa30048, [(262144, 8)], 64, [.REAM_RECON_COUNT]⟩,
   ⟨.REAM_DOUBLE, 0xa30050, [(262144, 8)], 64, [.REAM_DOUBLE_COUNT]⟩,
   ⟨.REAM_SCRUB_MISMATCH, 0xa30058, [(262144, 8)], 64, [.REAM_SCRUB_MISMATCH_COUNT]⟩,
   ⟨.REAM_FRAME_CLASS, 0xa31000, [(262144, 8), (8, 279)], 64, [.REAM_FRAME_CLASS_GUARDED]⟩,
   ⟨.VAT_STATUS, 0x800000, [], 32, [.VAT_STATUS_SLICES, .VAT_STATUS_RETIRING]⟩,
   ⟨.VAT_CFG, 0x800008, [], 32, [.VAT_CFG_RETIRE_ERRS, .VAT_CFG_RETIRE_WIN_MS]⟩,
   ⟨.VAT_KEEP_RELEASE, 0x800010, [], 32, [.VAT_KEEP_RELEASE_CTX, .VAT_KEEP_RELEASE_GO]⟩,
   ⟨.VAT_SLICE_MASK_LO, 0x800020, [], 64, [.VAT_SLICE_MASK_LO_SLICE]⟩,
   ⟨.VAT_SLICE_MASK_HI, 0x800028, [], 64, [.VAT_SLICE_MASK_HI_SLICE]⟩,
   ⟨.VAT_KEEP_QUOTA, 0x800100, [(8, 16)], 32, [.VAT_KEEP_QUOTA_WAYS]⟩,
   ⟨.VAT_KEEP_LINES, 0x800180, [(8, 16)], 64, [.VAT_KEEP_LINES_LINES]⟩,
   ⟨.VAT_HITS, 0x810000, [(256, 8)], 64, [.VAT_HITS_COUNT]⟩,
   ⟨.VAT_MISSES, 0x810008, [(256, 8)], 64, [.VAT_MISSES_COUNT]⟩,
   ⟨.VAT_WRITEBACKS, 0x810010, [(256, 8)], 64, [.VAT_WRITEBACKS_COUNT]⟩,
   ⟨.VAT_EVICTIONS, 0x810018, [(256, 8)], 64, [.VAT_EVICTIONS_COUNT]⟩]

/-- Part 2 of the register table. -/
def regTable2 : List RegInfo :=
  [⟨.VAT_ATOMICS, 0x810020, [(256, 8)], 64, [.VAT_ATOMICS_COUNT]⟩,
   ⟨.VAT_KEEP_DENIED, 0x810028, [(256, 8)], 64, [.VAT_KEEP_DENIED_COUNT]⟩,
   ⟨.VAT_LAST_DISCARDS, 0x810030, [(256, 8)], 64, [.VAT_LAST_DISCARDS_COUNT]⟩,
   ⟨.VAT_DETECT, 0x810038, [(256, 8)], 64, [.VAT_DETECT_COUNT]⟩,
   ⟨.VAT_LOST, 0x810040, [(256, 8)], 64, [.VAT_LOST_COUNT]⟩,
   ⟨.DROVER_STATUS, 0xc00000, [], 64, [.DROVER_STATUS_MIGRATING, .DROVER_STATUS_REBUILDING, .DROVER_STATUS_OBJECTS, .DROVER_STATUS_LENT_PAGES]⟩,
   ⟨.DROVER_CFG, 0xc00008, [], 64, [.DROVER_CFG_MAX_PASSES, .DROVER_CFG_FLIP_LOCAL, .DROVER_CFG_FLIP_NEIGHBOUR, .DROVER_CFG_FLIP_HOST, .DROVER_CFG_GRACE_MS, .DROVER_CFG_REBUILD_PCT]⟩,
   ⟨.DROVER_TIMEOUT, 0xc00010, [], 32, [.DROVER_TIMEOUT_NEIGHBOUR_US, .DROVER_TIMEOUT_HOST_US]⟩,
   ⟨.DROVER_QUOTA, 0xc00100, [(32, 16), (8, 3)], 64, [.DROVER_QUOTA_PAGES, .DROVER_QUOTA_USED]⟩,
   ⟨.DROVER_HOSTPOOL, 0xc00400, [(16, 16)], 128, [.DROVER_HOSTPOOL_BASE, .DROVER_HOSTPOOL_PAGES]⟩,
   ⟨.DROVER_BORROW, 0xc00600, [(8, 16)], 64, [.DROVER_BORROW_RANK, .DROVER_BORROW_VALID, .DROVER_BORROW_REVOKING, .DROVER_BORROW_GUARDED, .DROVER_BORROW_LEND_ID, .DROVER_BORROW_PAGES]⟩,
   ⟨.DROVER_WALKS, 0xc00800, [], 64, [.DROVER_WALKS_COUNT]⟩,
   ⟨.DROVER_MIGRATIONS, 0xc00808, [], 64, [.DROVER_MIGRATIONS_COUNT]⟩,
   ⟨.DROVER_FLIP_ABANDON, 0xc00810, [], 64, [.DROVER_FLIP_ABANDON_COUNT]⟩,
   ⟨.DROVER_EVICTIONS, 0xc00818, [], 64, [.DROVER_EVICTIONS_COUNT]⟩,
   ⟨.DROVER_DROPS, 0xc00820, [], 64, [.DROVER_DROPS_COUNT]⟩,
   ⟨.DROVER_TIER_FAIL, 0xc00828, [], 64, [.DROVER_TIER_FAIL_COUNT]⟩,
   ⟨.DROVER_FLIP_MAX_NS, 0xc00830, [], 64, [.DROVER_FLIP_MAX_NS_COUNT]⟩,
   ⟨.DROVER_DROP_LOG, 0xc00a00, [(8, 64)], 64, [.DROVER_DROP_LOG_OBJ, .DROVER_DROP_LOG_CTX, .DROVER_DROP_LOG_VALID, .DROVER_DROP_LOG_TIME_MS]⟩,
   ⟨.BEATER_STATUS, 0xd00000, [], 32, [.BEATER_STATUS_INFLIGHT, .BEATER_STATUS_SORTING, .BEATER_STATUS_UPDATING]⟩,
   ⟨.BEATER_CFG, 0xd00008, [], 32, [.BEATER_CFG_MAX_INFLIGHT, .BEATER_CFG_PEER_TIMEOUT_MS]⟩,
   ⟨.BEATER_TABLES, 0xd00100, [(8, 16)], 32, [.BEATER_TABLES_DEFINED]⟩,
   ⟨.BEATER_KEYS, 0xd00040, [], 64, [.BEATER_KEYS_COUNT]⟩,
   ⟨.BEATER_DISTINCT, 0xd00048, [], 64, [.BEATER_DISTINCT_COUNT]⟩,
   ⟨.BEATER_SECTORS_RD, 0xd00050, [], 64, [.BEATER_SECTORS_RD_COUNT]⟩,
   ⟨.BEATER_SECTORS_WR, 0xd00058, [], 64, [.BEATER_SECTORS_WR_COUNT]⟩,
   ⟨.BEATER_REPLICA_ROWS, 0xd00060, [], 64, [.BEATER_REPLICA_ROWS_COUNT]⟩,
   ⟨.BEATER_REMOTE_ROWS, 0xd00068, [], 64, [.BEATER_REMOTE_ROWS_COUNT]⟩,
   ⟨.BEATER_SERVED_ROWS, 0xd00070, [], 64, [.BEATER_SERVED_ROWS_COUNT]⟩,
   ⟨.BEATER_ROWS_UPDATED, 0xd00078, [], 64, [.BEATER_ROWS_UPDATED_COUNT]⟩,
   ⟨.BEATER_SKIPPED, 0xd00080, [], 64, [.BEATER_SKIPPED_COUNT]⟩,
   ⟨.BEATER_EMPTY_BAGS, 0xd00088, [], 64, [.BEATER_EMPTY_BAGS_COUNT]⟩,
   ⟨.BEATER_CVT_SAT, 0xd00090, [], 64, [.BEATER_CVT_SAT_COUNT]⟩,
   ⟨.BEATER_CVT_UFL, 0xd00098, [], 64, [.BEATER_CVT_UFL_COUNT]⟩,
   ⟨.BEATER_DETECT, 0xd000a0, [], 64, [.BEATER_DETECT_COUNT]⟩,
   ⟨.BEATER_RERUNS, 0xd000a8, [], 64, [.BEATER_RERUNS_COUNT]⟩,
   ⟨.BEATER_SB_STATUS, 0xd80000, [], 64, [.BEATER_SB_STATUS_TRACKED, .BEATER_SB_STATUS_FILLING, .BEATER_SB_STATUS_REPLICATED, .BEATER_SB_STATUS_BUSY]⟩,
   ⟨.BEATER_SB_CFG, 0xd80008, [], 32, [.BEATER_SB_CFG_SAMPLE_LOG2, .BEATER_SB_CFG_DECAY, .BEATER_SB_CFG_REFRESH_EVERY]⟩,
   ⟨.BEATER_SB_CTX, 0xd80100, [(8, 16)], 32, [.BEATER_SB_CTX_TRACK]⟩,
   ⟨.BEATER_SB_POOL_VA, 0xd80200, [(16, 16)], 64, [.BEATER_SB_POOL_VA_VA]⟩,
   ⟨.BEATER_SB_POOL_CFG, 0xd80208, [(16, 16)], 64, [.BEATER_SB_POOL_CFG_SLOT_UNITS, .BEATER_SB_POOL_CFG_SLOTS, .BEATER_SB_POOL_CFG_USED]⟩,
   ⟨.BEATER_SB_GROUP, 0xd80800, [(16, 64)], 128, [.BEATER_SB_GROUP_GROUP, .BEATER_SB_GROUP_DEGRADED, .BEATER_SB_GROUP_VALID, .BEATER_SB_GROUP_GEN, .BEATER_SB_GROUP_STEP]⟩,
   ⟨.BEATER_SB_PEEK_IDX, 0xd81000, [], 32, [.BEATER_SB_PEEK_IDX_INDEX]⟩,
   ⟨.BEATER_SB_PEEK, 0xd81008, [(8, 4)], 64, [.BEATER_SB_PEEK_DATA]⟩,
   ⟨.BEATER_SB_INSERTS, 0xd80040, [], 64, [.BEATER_SB_INSERTS_COUNT]⟩,
   ⟨.BEATER_SB_TRACK_MISS, 0xd80048, [], 64, [.BEATER_SB_TRACK_MISS_COUNT]⟩,
   ⟨.BEATER_SB_PROMOTED, 0xd80050, [], 64, [.BEATER_SB_PROMOTED_COUNT]⟩,
   ⟨.BEATER_SB_REFUSED, 0xd80058, [], 64, [.BEATER_SB_REFUSED_COUNT]⟩,
   ⟨.BEATER_SB_DEMOTED, 0xd80060, [], 64, [.BEATER_SB_DEMOTED_COUNT]⟩,
   ⟨.BEATER_SB_REREADS, 0xd80068, [], 64, [.BEATER_SB_REREADS_COUNT]⟩]

/-- Part 3 of the register table. -/
def regTable3 : List RegInfo :=
  [⟨.BEATER_SB_SKEW, 0xd80070, [], 64, [.BEATER_SB_SKEW_COUNT]⟩,
   ⟨.BEATER_SB_DROPPED, 0xd80078, [], 64, [.BEATER_SB_DROPPED_COUNT]⟩,
   ⟨.BEATER_SB_DETECT, 0xd80080, [], 64, [.BEATER_SB_DETECT_COUNT]⟩,
   ⟨.FARRIER_STATUS, 0xe00000, [], 32, [.FARRIER_STATUS_RUNNING, .FARRIER_STATUS_WAITING, .FARRIER_STATUS_RERUN]⟩,
   ⟨.FARRIER_CFG, 0xe00008, [], 32, [.FARRIER_CFG_CLIP_TIMEOUT_MS, .FARRIER_CFG_MAX_WAITING, .FARRIER_CFG_BEATER_SHARE]⟩,
   ⟨.FARRIER_SHARDS, 0xe00100, [(8, 16)], 32, [.FARRIER_SHARDS_DEFINED, .FARRIER_SHARDS_OWNED]⟩,
   ⟨.FARRIER_CLIP_CFG, 0xe00200, [(16, 16)], 128, [.FARRIER_CLIP_CFG_CTX, .FARRIER_CLIP_CFG_ENABLE, .FARRIER_CLIP_CFG_VALID, .FARRIER_CLIP_CFG_PREV_VALID, .FARRIER_CLIP_CFG_THRESH, .FARRIER_CLIP_CFG_TOL]⟩,
   ⟨.FARRIER_CLIP, 0xe00400, [(16, 16)], 128, [.FARRIER_CLIP_STEP, .FARRIER_CLIP_NORM, .FARRIER_CLIP_PREV_STEP, .FARRIER_CLIP_PREV_NORM]⟩,
   ⟨.FARRIER_MON_BAND, 0xe00600, [(8, 16)], 64, [.FARRIER_MON_BAND_LO, .FARRIER_MON_BAND_HI]⟩,
   ⟨.FARRIER_MON_LOG, 0xe00800, [(16, 64)], 128, [.FARRIER_MON_LOG_TGROUP, .FARRIER_MON_LOG_CTX, .FARRIER_MON_LOG_VALID, .FARRIER_MON_LOG_STEP, .FARRIER_MON_LOG_RATIO, .FARRIER_MON_LOG_TIME_MS]⟩,
   ⟨.FARRIER_COMMITS, 0xe00040, [], 64, [.FARRIER_COMMITS_COUNT]⟩,
   ⟨.FARRIER_ELEMENTS, 0xe00048, [], 64, [.FARRIER_ELEMENTS_COUNT]⟩,
   ⟨.FARRIER_RECORDS, 0xe00050, [], 64, [.FARRIER_RECORDS_COUNT]⟩,
   ⟨.FARRIER_FETCHES, 0xe00058, [], 64, [.FARRIER_FETCHES_COUNT]⟩,
   ⟨.FARRIER_LAGGED_RERUNS, 0xe00060, [], 64, [.FARRIER_LAGGED_RERUNS_COUNT]⟩,
   ⟨.FARRIER_DETECT, 0xe00068, [], 64, [.FARRIER_DETECT_COUNT]⟩,
   ⟨.FARRIER_CHUNK_RERUNS, 0xe00070, [], 64, [.FARRIER_CHUNK_RERUNS_COUNT]⟩,
   ⟨.FARRIER_CVT_SAT, 0xe00078, [], 64, [.FARRIER_CVT_SAT_COUNT]⟩,
   ⟨.FARRIER_CVT_UFL, 0xe00080, [], 64, [.FARRIER_CVT_UFL_COUNT]⟩,
   ⟨.FARRIER_MON_EVENTS, 0xe00088, [], 64, [.FARRIER_MON_EVENTS_COUNT]⟩,
   ⟨.FARRIER_MON_LOST, 0xe00090, [], 64, [.FARRIER_MON_LOST_COUNT]⟩,
   ⟨.RELAY_STATUS, 0xf00000, [], 32, [.RELAY_STATUS_INFLIGHT, .RELAY_STATUS_HELD, .RELAY_STATUS_PERMUTING, .RELAY_STATUS_FREE_UNITS]⟩,
   ⟨.RELAY_CFG, 0xf00008, [], 64, [.RELAY_CFG_PEER_TIMEOUT_MS, .RELAY_CFG_CREDIT_WINDOW, .RELAY_CFG_DIRECT_MAX, .RELAY_CFG_TREE_BYTES]⟩,
   ⟨.RELAY_INFLIGHT, 0xf00100, [(8, 16)], 32, [.RELAY_INFLIGHT_COUNT]⟩,
   ⟨.RELAY_GROUP, 0xf00200, [(16, 64)], 128, [.RELAY_GROUP_GROUP, .RELAY_GROUP_VALID, .RELAY_GROUP_CTX, .RELAY_GROUP_EPOCH, .RELAY_GROUP_STATE, .RELAY_GROUP_MEMBERS, .RELAY_GROUP_INDEX]⟩,
   ⟨.RELAY_BYTES_TX, 0xf00040, [], 64, [.RELAY_BYTES_TX_COUNT]⟩,
   ⟨.RELAY_BYTES_RX, 0xf00048, [], 64, [.RELAY_BYTES_RX_COUNT]⟩,
   ⟨.RELAY_COLLECTIVES, 0xf00050, [], 64, [.RELAY_COLLECTIVES_COUNT]⟩,
   ⟨.RELAY_CANCELLED, 0xf00058, [], 64, [.RELAY_CANCELLED_COUNT]⟩,
   ⟨.RELAY_TIMEOUTS, 0xf00060, [], 64, [.RELAY_TIMEOUTS_COUNT]⟩,
   ⟨.RELAY_RESENDS, 0xf00068, [], 64, [.RELAY_RESENDS_COUNT]⟩,
   ⟨.RELAY_CVT_SAT, 0xf00070, [], 64, [.RELAY_CVT_SAT_COUNT]⟩,
   ⟨.RELAY_CVT_UFL, 0xf00078, [], 64, [.RELAY_CVT_UFL_COUNT]⟩,
   ⟨.RELAY_CREDIT_REFUSED, 0xf00080, [], 64, [.RELAY_CREDIT_REFUSED_COUNT]⟩,
   ⟨.BLINK_STATUS, 0x1000000, [], 32, [.BLINK_STATUS_ACTIVE, .BLINK_STATUS_LATCHING, .BLINK_STATUS_EDITING]⟩,
   ⟨.BLINK_CFG, 0x1000008, [], 32, [.BLINK_CFG_MAX_ATTEND]⟩,
   ⟨.BLINK_PTAB, 0x1000100, [(16, 16)], 128, [.BLINK_PTAB_VA, .BLINK_PTAB_SLOTS]⟩,
   ⟨.BLINK_COMMANDS, 0x1000040, [], 64, [.BLINK_COMMANDS_COUNT]⟩,
   ⟨.BLINK_UNITS, 0x1000048, [], 64, [.BLINK_UNITS_COUNT]⟩,
   ⟨.BLINK_PAGES, 0x1000050, [], 64, [.BLINK_PAGES_COUNT]⟩,
   ⟨.BLINK_PAGES_SKIPPED, 0x1000058, [], 64, [.BLINK_PAGES_SKIPPED_COUNT]⟩,
   ⟨.BLINK_EMPTY_ROWS, 0x1000060, [], 64, [.BLINK_EMPTY_ROWS_COUNT]⟩,
   ⟨.BLINK_DETECT, 0x1000068, [], 64, [.BLINK_DETECT_COUNT]⟩,
   ⟨.BLINK_RERUNS, 0x1000070, [], 64, [.BLINK_RERUNS_COUNT]⟩,
   ⟨.BLINK_CVT_SAT, 0x1000078, [], 64, [.BLINK_CVT_SAT_COUNT]⟩,
   ⟨.BLINK_CVT_UFL, 0x1000080, [], 64, [.BLINK_CVT_UFL_COUNT]⟩,
   ⟨.HOKUKE_STATUS, 0x1100000, [], 32, [.HOKUKE_STATUS_RANK, .HOKUKE_STATUS_RANK_VALID, .HOKUKE_STATUS_ROUTES_SET]⟩,
   ⟨.HOKUKE_CFG, 0x1100008, [], 64, [.HOKUKE_CFG_RTO_US, .HOKUKE_CFG_RETRIES, .HOKUKE_CFG_RNR_US]⟩,
   ⟨.HOKUKE_ROUTE, 0x1110000, [(8, 16384)], 64, [.HOKUKE_ROUTE_ENTRY]⟩,
   ⟨.HOKUKE_TX_PACKETS, 0x1100040, [], 64, [.HOKUKE_TX_PACKETS_COUNT]⟩]

/-- Part 4 of the register table. -/
def regTable4 : List RegInfo :=
  [⟨.HOKUKE_RX_PACKETS, 0x1100048, [], 64, [.HOKUKE_RX_PACKETS_COUNT]⟩,
   ⟨.HOKUKE_RESENDS, 0x1100050, [], 64, [.HOKUKE_RESENDS_COUNT]⟩,
   ⟨.HOKUKE_TRANSIT_FLITS, 0x1100058, [], 64, [.HOKUKE_TRANSIT_FLITS_COUNT]⟩,
   ⟨.HOKUKE_UNREACHABLE, 0x1100060, [], 64, [.HOKUKE_UNREACHABLE_COUNT]⟩,
   ⟨.OE_STATUS, 0x1200000, [(131072, 8)], 32, [.OE_STATUS_STATE, .OE_STATUS_WIDTH, .OE_STATUS_INPUT, .OE_STATUS_A_OK, .OE_STATUS_B_OK, .OE_STATUS_LONG_REACH, .OE_STATUS_RANK_CLASH]⟩,
   ⟨.OE_CFG, 0x1200008, [(131072, 8)], 32, [.OE_CFG_LONG_REACH, .OE_CFG_LOSS_DBM, .OE_CFG_SER_EXP]⟩,
   ⟨.OE_LASER, 0x1200010, [(131072, 8)], 32, [.OE_LASER_A_PWR, .OE_LASER_B_PWR]⟩,
   ⟨.OE_LANE, 0x1200100, [(131072, 8), (8, 8)], 64, [.OE_LANE_LOCK, .OE_LANE_RETIRED, .OE_LANE_RX_PWR, .OE_LANE_SYM_ERR]⟩,
   ⟨.OE_PEER, 0x1200200, [(131072, 8)], 32, [.OE_PEER_RANK, .OE_PEER_VALID, .OE_PEER_TIME_VALID, .OE_PEER_ENGINE]⟩,
   ⟨.OE_PEER_OFFSET, 0x1200208, [(131072, 8)], 64, [.OE_PEER_OFFSET_VALUE]⟩,
   ⟨.OE_PEER_DELAY, 0x1200210, [(131072, 8)], 64, [.OE_PEER_DELAY_VALUE]⟩,
   ⟨.OE_FLITS_TX, 0x1200040, [(131072, 8)], 64, [.OE_FLITS_TX_COUNT]⟩,
   ⟨.OE_FLITS_RX, 0x1200048, [(131072, 8)], 64, [.OE_FLITS_RX_COUNT]⟩,
   ⟨.OE_CRC_FAIL, 0x1200050, [(131072, 8)], 64, [.OE_CRC_FAIL_COUNT]⟩,
   ⟨.OE_REPLAYS, 0x1200058, [(131072, 8)], 64, [.OE_REPLAYS_COUNT]⟩,
   ⟨.OE_FEC_CORR, 0x1200060, [(131072, 8)], 64, [.OE_FEC_CORR_COUNT]⟩,
   ⟨.OE_FEC_UNCORR, 0x1200068, [(131072, 8)], 64, [.OE_FEC_UNCORR_COUNT]⟩,
   ⟨.OE_LASER_SWITCHES, 0x1200070, [(131072, 8)], 64, [.OE_LASER_SWITCHES_COUNT]⟩,
   ⟨.OE_LANE_DROPS, 0x1200078, [(131072, 8)], 64, [.OE_LANE_DROPS_COUNT]⟩,
   ⟨.OE_RETRAINS, 0x1200080, [(131072, 8)], 64, [.OE_RETRAINS_COUNT]⟩,
   ⟨.HOKUKE_PEER, 0x1140000, [(32, 4096)], 256, [.HOKUKE_PEER_DMAC, .HOKUKE_PEER_TCI, .HOKUKE_PEER_VLAN, .HOKUKE_PEER_IPV6, .HOKUKE_PEER_SECOND, .HOKUKE_PEER_VALID, .HOKUKE_PEER_DSCP, .HOKUKE_PEER_IP_LO, .HOKUKE_PEER_IP_HI]⟩,
   ⟨.MAC_STATUS, 0x1400000, [(262144, 16)], 32, [.MAC_STATUS_ACTIVE, .MAC_STATUS_LINK, .MAC_STATUS_PREEMPT_ACTIVE, .MAC_STATUS_VERIFY_FAIL, .MAC_STATUS_PAUSED, .MAC_STATUS_WD_TRIPPED]⟩,
   ⟨.MAC_CFG, 0x1400008, [(262144, 16)], 32, [.MAC_CFG_RX_EN, .MAC_CFG_TX_EN, .MAC_CFG_PROMISC, .MAC_CFG_BCAST_EN, .MAC_CFG_ALLMULTI, .MAC_CFG_RAW_EN, .MAC_CFG_TS_ALL]⟩,
   ⟨.MAC_ADDR, 0x1400010, [(262144, 16)], 64, [.MAC_ADDR_ADDR]⟩,
   ⟨.MAC_L3_CFG, 0x1400018, [(262144, 16)], 64, [.MAC_L3_CFG_UDP_PORT, .MAC_L3_CFG_TTL, .MAC_L3_CFG_DATA_PCP, .MAC_L3_CFG_CTRL_PCP, .MAC_L3_CFG_SEG_PAYLOAD]⟩,
   ⟨.MAC_IP4, 0x1400020, [(262144, 16)], 32, [.MAC_IP4_ADDR]⟩,
   ⟨.MAC_IP6, 0x1400028, [(262144, 16)], 128, [.MAC_IP6_ADDR_LO, .MAC_IP6_ADDR_HI]⟩,
   ⟨.MAC_FLOW, 0x1400038, [(262144, 16)], 64, [.MAC_FLOW_MODE, .MAC_FLOW_PFC_EN, .MAC_FLOW_PAUSE_QUANTA, .MAC_FLOW_WD_MS, .MAC_FLOW_UNTAGGED_PRI]⟩,
   ⟨.MAC_XOFF, 0x1400040, [(262144, 16), (8, 8)], 32, [.MAC_XOFF_XOFF, .MAC_XOFF_XON]⟩,
   ⟨.MAC_PREEMPT, 0x1400080, [(262144, 16)], 32, [.MAC_PREEMPT_EN, .MAC_PREEMPT_VERIFY_DIS, .MAC_PREEMPT_EXPRESS_PRI, .MAC_PREEMPT_ADD_FRAG, .MAC_PREEMPT_VERIFY_MS]⟩,
   ⟨.MAC_RC_CFG, 0x1400088, [(262144, 16)], 64, [.MAC_RC_CFG_RC_MIN, .MAC_RC_CFG_RC_DEC, .MAC_RC_CFG_RC_HOLD_US, .MAC_RC_CFG_RC_INC_US, .MAC_RC_CFG_RC_INC]⟩,
   ⟨.MAC_TS_CFG, 0x1400090, [(262144, 16)], 64, [.MAC_TS_CFG_TX_ADJ, .MAC_TS_CFG_RX_ADJ]⟩,
   ⟨.MAC_TXTS_NS, 0x1400098, [(262144, 16)], 64, [.MAC_TXTS_NS_NS]⟩,
   ⟨.MAC_TXTS_POP, 0x14000a0, [(262144, 16)], 32, [.MAC_TXTS_POP_FRAC, .MAC_TXTS_POP_SLOT, .MAC_TXTS_POP_VALID]⟩,
   ⟨.MAC_RAWRX_BASE, 0x14000c0, [(262144, 16)], 64, [.MAC_RAWRX_BASE_LOC, .MAC_RAWRX_BASE_ADDR]⟩,
   ⟨.MAC_RAWTX_BASE, 0x14000e0, [(262144, 16)], 64, [.MAC_RAWTX_BASE_LOC, .MAC_RAWTX_BASE_ADDR]⟩,
   ⟨.MAC_RAWRX_CFG, 0x14000c8, [(262144, 16)], 32, [.MAC_RAWRX_CFG_EN, .MAC_RAWRX_CFG_SIZE_LOG2]⟩,
   ⟨.MAC_RAWTX_CFG, 0x14000e8, [(262144, 16)], 32, [.MAC_RAWTX_CFG_EN, .MAC_RAWTX_CFG_SIZE_LOG2]⟩,
   ⟨.MAC_RAWRX_HEAD, 0x14000d0, [(262144, 16)], 32, [.MAC_RAWRX_HEAD_CONSUMED]⟩,
   ⟨.MAC_RAWRX_TAIL, 0x14000d4, [(262144, 16)], 32, [.MAC_RAWRX_TAIL_WRITTEN]⟩,
   ⟨.MAC_RAWTX_TAIL, 0x14000f0, [(262144, 16)], 32, [.MAC_RAWTX_TAIL_POSTED]⟩,
   ⟨.MAC_RAWTX_DONE, 0x14000f4, [(262144, 16)], 32, [.MAC_RAWTX_DONE_SENT]⟩,
   ⟨.MAC_STATS_HALF_RX, 0x1400100, [(262144, 16)], 64, [.MAC_STATS_HALF_RX_HALF]⟩,
   ⟨.MAC_STATS_HALF_TX, 0x1400108, [(262144, 16)], 64, [.MAC_STATS_HALF_TX_HALF]⟩,
   ⟨.MAC_UC, 0x1400200, [(262144, 16), (8, 64)], 64, [.MAC_UC_ADDR, .MAC_UC_VALID]⟩,
   ⟨.MAC_HASH, 0x1400400, [(262144, 16), (8, 64)], 64, [.MAC_HASH_BITS]⟩,
   ⟨.OSTLER_BOOT_STATUS, 0x10000, [], 32, [.OSTLER_BOOT_STATUS_STAGE, .OSTLER_BOOT_STATUS_ERROR, .OSTLER_BOOT_STATUS_READY, .OSTLER_BOOT_STATUS_SECURITY, .OSTLER_BOOT_STATUS_ATTEMPTS]⟩,
   ⟨.OSTLER_BOOT_CTL, 0x10008, [], 32, [.OSTLER_BOOT_CTL_GO]⟩,
   ⟨.OSTLER_FW_INFO, 0x10010, [], 64, [.OSTLER_FW_INFO_SVN, .OSTLER_FW_INFO_SVN_FLOOR, .OSTLER_FW_INFO_KEY_SLOT, .OSTLER_FW_INFO_BUILD_LO]⟩,
   ⟨.OSTLER_CLAMP_COUNT, 0x10018, [], 32, [.OSTLER_CLAMP_COUNT_ENTRIES, .OSTLER_CLAMP_COUNT_LOST]⟩]

/-- Part 5 of the register table. -/
def regTable5 : List RegInfo :=
  [⟨.OSTLER_DEBUG_NONCE, 0x10040, [(8, 4)], 64, [.OSTLER_DEBUG_NONCE_NONCE]⟩,
   ⟨.OSTLER_DEBUG_CTL, 0x10060, [], 32, [.OSTLER_DEBUG_CTL_SUBMIT]⟩,
   ⟨.OSTLER_DEBUG_STATUS, 0x10068, [], 32, [.OSTLER_DEBUG_STATUS_OPEN, .OSTLER_DEBUG_STATUS_BUSY, .OSTLER_DEBUG_STATUS_RESULT]⟩,
   ⟨.OSTLER_SERIAL_LO, 0x10080, [], 64, [.OSTLER_SERIAL_LO_SERIAL]⟩,
   ⟨.OSTLER_SERIAL_HI, 0x10088, [], 64, [.OSTLER_SERIAL_HI_SERIAL]⟩,
   ⟨.OSTLER_FAULT_CFG, 0x10100, [], 64, [.OSTLER_FAULT_CFG_AUTO_RETIRE, .OSTLER_FAULT_CFG_TS_ERRS, .OSTLER_FAULT_CFG_TS_WIN_MS, .OSTLER_FAULT_CFG_MOD_ERRS, .OSTLER_FAULT_CFG_MOD_WIN_MS]⟩,
   ⟨.OSTLER_FAULT_STATUS, 0x10108, [], 32, [.OSTLER_FAULT_STATUS_MODULE_FAULT, .OSTLER_FAULT_STATUS_FAULT_N, .OSTLER_FAULT_STATUS_CLASS, .OSTLER_FAULT_STATUS_SOURCE, .OSTLER_FAULT_STATUS_ESC_COUNT]⟩,
   ⟨.OSTLER_ERRLOG_STATUS, 0x10110, [], 64, [.OSTLER_ERRLOG_STATUS_WRITTEN, .OSTLER_ERRLOG_STATUS_OVERFLOW]⟩,
   ⟨.OSTLER_ERRLOG_CONSUMED, 0x10118, [], 32, [.OSTLER_ERRLOG_CONSUMED_CONSUMED]⟩,
   ⟨.OSTLER_ABSORBED, 0x10140, [], 64, [.OSTLER_ABSORBED_COUNT]⟩,
   ⟨.OSTLER_RETURNED, 0x10148, [], 64, [.OSTLER_RETURNED_COUNT]⟩,
   ⟨.OSTLER_STEP_RESTARTS, 0x10150, [], 64, [.OSTLER_STEP_RESTARTS_COUNT]⟩,
   ⟨.OSTLER_TILES_RETIRED, 0x10158, [], 64, [.OSTLER_TILES_RETIRED_COUNT]⟩,
   ⟨.OSTLER_INTERRUPT_MAX_NS, 0x10160, [], 64, [.OSTLER_INTERRUPT_MAX_NS_COUNT]⟩,
   ⟨.TRACE_CFG, 0x1800000, [], 32, [.TRACE_CFG_KINDS, .TRACE_CFG_ALL_CMDS]⟩,
   ⟨.TRACE_BUF_BASE, 0x1800008, [], 64, [.TRACE_BUF_BASE_LOC, .TRACE_BUF_BASE_ADDR]⟩,
   ⟨.TRACE_BUF_CFG, 0x1800010, [], 64, [.TRACE_BUF_CFG_SIZE, .TRACE_BUF_CFG_MODE, .TRACE_BUF_CFG_POST]⟩,
   ⟨.TRACE_TRIG_CFG, 0x1800018, [], 32, [.TRACE_TRIG_CFG_MIN_OUTCOME]⟩,
   ⟨.TRACE_CTL, 0x1800020, [], 32, [.TRACE_CTL_TRIGGER]⟩,
   ⟨.TRACE_STATUS, 0x1800028, [], 128, [.TRACE_STATUS_RUNNING, .TRACE_STATUS_TRIGGERED, .TRACE_STATUS_WRITTEN, .TRACE_STATUS_TRIG_QUIRE, .TRACE_STATUS_WRAPS]⟩,
   ⟨.TRACE_DROPPED, 0x1800038, [], 64, [.TRACE_DROPPED_DROPPED]⟩,
   ⟨.GTIME_NOW, 0x1800100, [], 64, [.GTIME_NOW_NS]⟩,
   ⟨.GTIME_STEP, 0x1800108, [], 64, [.GTIME_STEP_STEP]⟩,
   ⟨.GTIME_SLEW, 0x1800110, [], 32, [.GTIME_SLEW_RATE_PPB]⟩,
   ⟨.GTIME_CFG, 0x1800118, [], 32, [.GTIME_CFG_MEASURE_MS]⟩,
   ⟨.PERF_SEL, 0x1801000, [(8, 64)], 64, [.PERF_SEL_SOURCE, .PERF_SEL_EVENT, .PERF_SEL_SUB, .PERF_SEL_CTX, .PERF_SEL_CTX_EN, .PERF_SEL_TRIG, .PERF_SEL_VALID, .PERF_SEL_EN]⟩,
   ⟨.PERF_CTR, 0x1801200, [(8, 64)], 64, [.PERF_CTR_COUNT]⟩,
   ⟨.PERF_THRESH, 0x1801400, [(8, 64)], 64, [.PERF_THRESH_THRESH]⟩,
   ⟨.PERF_CTL, 0x1801600, [], 64, [.PERF_CTL_CLEAR]⟩,
   ⟨.PERF_STATUS, 0x1801608, [], 64, [.PERF_STATUS_CROSSED]⟩,
   ⟨.PERF_HOST_RD, 0x1801700, [], 64, [.PERF_HOST_RD_COUNT]⟩,
   ⟨.PERF_HOST_WR, 0x1801708, [], 64, [.PERF_HOST_WR_COUNT]⟩,
   ⟨.PERF_DEV_WR, 0x1801710, [], 64, [.PERF_DEV_WR_COUNT]⟩,
   ⟨.PERF_DEV_RD, 0x1801718, [], 64, [.PERF_DEV_RD_COUNT]⟩,
   ⟨.PERF_DOORBELLS, 0x1801720, [], 64, [.PERF_DOORBELLS_COUNT]⟩,
   ⟨.PERF_MSIX, 0x1801728, [], 64, [.PERF_MSIX_COUNT]⟩,
   ⟨.CURB_POWER, 0x1d00000, [], 64, [.CURB_POWER_MW, .CURB_POWER_PEAK_MW_K]⟩,
   ⟨.CURB_ENERGY_UJ, 0x1d00008, [], 64, [.CURB_ENERGY_UJ_UJ]⟩,
   ⟨.CURB_TEMP, 0x1d00100, [(8, 16)], 32, [.CURB_TEMP_TEMP]⟩,
   ⟨.CURB_ACTIONS, 0x1d00040, [], 64, [.CURB_ACTIONS_COUNT]⟩,
   ⟨.CURB_GAP_CYCLES, 0x1d00048, [], 64, [.CURB_GAP_CYCLES_COUNT]⟩,
   ⟨.CURB_THROTTLE_CYCLES, 0x1d00050, [], 64, [.CURB_THROTTLE_CYCLES_COUNT]⟩,
   ⟨.OSTLER_GPIO, 0x10200, [], 32, [.OSTLER_GPIO_DIR, .OSTLER_GPIO_OUT, .OSTLER_GPIO_IN]⟩,
   ⟨.CURB_CFG, 0x1c00000, [], 32, [.CURB_CFG_CAP_W, .CURB_CFG_WARN_C]⟩,
   ⟨.CURB_STATUS, 0x1c00008, [], 32, [.CURB_STATUS_ACTIVE, .CURB_STATUS_THROTTLE, .CURB_STATUS_WARN, .CURB_STATUS_GAP, .CURB_STATUS_VGAP, .CURB_STATUS_LIMIT_W4]⟩,
   ⟨.MAC_RX, 0x1401000, [(262144, 16), (8, 45)], 64, [.MAC_RX_COUNT]⟩,
   ⟨.MAC_TX, 0x1401400, [(262144, 16), (8, 45)], 64, [.MAC_TX_COUNT]⟩,
   ⟨.MSIX_ADDR, 0x240000, [(16, 1024)], 64, [.MSIX_ADDR_ADDR]⟩,
   ⟨.MSIX_DATA, 0x240008, [(16, 1024)], 32, [.MSIX_DATA_DATA]⟩,
   ⟨.MSIX_CTL, 0x24000c, [(16, 1024)], 32, [.MSIX_CTL_MASK]⟩]

/-- Part 6 of the register table. -/
def regTable6 : List RegInfo :=
  [⟨.MSIX_PBA, 0x244000, [(8, 16)], 64, [.MSIX_PBA_PEND]⟩]

/-- The register table. -/
def regTable : List RegInfo :=
  regTable0 ++ regTable1 ++ regTable2 ++ regTable3 ++ regTable4 ++ regTable5 ++ regTable6

/-- The table row of a register. -/
def RegId.info (r : RegId) : RegInfo := regTable.getD r.ctorIdx ⟨r, 0, [], 0, []⟩


/-- The code of a register in the state's register map. -/
def RegId.code (r : RegId) : Nat := r.ctorIdx

/-- How many elements an array register has. -/
def RegInfo.count (r : RegInfo) : Nat := r.dims.foldl (fun n d => n * d.2) 1

/-- The byte offset, from the register's base, of element `i` (row-major) of an array with dimensions `ds`. -/
def elemOffset : List (Nat × Nat) → Nat → Nat
  | [], _ => 0
  | d :: ds, i =>
    let inner := ds.foldl (fun n e => n * e.2) 1
    i / inner * d.1 + elemOffset ds (i % inner)

/-- The BAR0 offset of element `i` of a register. -/
def RegId.offset (r : RegId) (i : Nat) : Nat := r.info.base + elemOffset r.info.dims i

/-- The element of an array register with dimensions `ds` that holds byte `o` past the base, and the byte's place
in it; none where `o` falls in no element of `size` bytes. -/
def findElem : List (Nat × Nat) → Nat → Nat → Option (Nat × Nat)
  | [], size, o => if o < size then some (0, o) else none
  | d :: ds, size, o =>
    let inner := ds.foldl (fun n e => n * e.2) 1
    if o / d.1 < d.2 then (findElem ds size (o % d.1)).map (fun p => (o / d.1 * inner + p.1, p.2)) else none

/-- The register, element and byte place that BAR0 offset `o` names, if a register stands there (R26, R28). -/
def regAt (o : Nat) : Option (RegId × Nat × Nat) :=
  regTable.findSome? (fun r =>
    if r.base ≤ o then
      (findElem r.dims (r.width / 8) (o - r.base)).map (fun p => (r.reg, p.1, p.2))
    else none)

end Sys2Proof.Machine
end

