-- ==== Sys2Proof/Machine/StateCore.lean ====
section
/-! DEFINITION. State of the clock, the commands in flight, the Hitch, the error log, the trace unit and the
boot: plain data. Registers stand in the register map of `State.lean`; here is what no register holds. -/

namespace Sys2Proof.Machine

/-- Time in sixteenths of a nanosecond (R16, R17, R522): `t` since the clock started, which no command moves
back; `g` global time; `step` the GTIME_STEP that the next tick adds (R523); `slew` the slew not yet applied,
in 10^-9 of a sixteenth (R524). -/
structure Clock where
  t : Nat
  g : Nat
  running : Bool
  step : Int
  slew : Int
  deriving DecidableEq, Repr

/-- The model's own counters of free values used (see `Config`): draws of stochastic rounding, other choices,
nonces. -/
structure FreeSt where
  draws : Nat
  uses : Nat
  nonces : Nat
  deriving DecidableEq, Repr

/-- The gate trailer of a packet (R67). -/
structure Trailer where
  waitGate : Nat
  signalGate : Nat
  waitValue : Nat
  deriving DecidableEq, Repr

/-- Where a command is between its fetch and its record: fetched and queued (R72), dispatched to its engine and
not started (R79), started, finished with a result that waits for its completion event (R84). -/
inductive Phase where
  | queued | waiting | running | done
  deriving DecidableEq, Repr

/-- What a completion record says beyond the packet's own fields (R84): status, detail, the ENGINE bytes. -/
structure Result where
  status : Nat
  detail : Nat
  engine : Nat
  deriving DecidableEq, Repr

/-- What a command's completion event does besides its record: counts (R120), a tile flag (R157), a mailbox
doorbell bit (R157), the end of a MATMUL's streaming (R132). -/
inductive Effect where
  | count (f : Fld) (idx n : Nat)
  | flag (tile f : Nat)
  | doorbell (mbx bit : Nat)
  | stream (tile : Nat)
  deriving DecidableEq, Repr

/-- A command in flight: its packet header (R65), ring, context, completion ring and tile, its parameters, and
how far it is. `seenT` is the time of its fetch, and from its dispatch on the time of that; `startT` the time of its
start. `cut` holds the first cut host address and the cut length (R51), `cutIdx` the index of its DATA entry; `det` is
set once a detection of the command was absorbed (OK_RECOMPUTED); `joined` whether it is counted in its tile's queue;
`detTile` the tile of a detection that ends it (R496); `spans` the tile-store ranges (first byte, last byte, written) of a
tile's command that has started (R129). -/
structure Cmd where
  id : Nat
  ring : Nat
  pos : Nat
  seq : Nat
  opcode : Nat
  flags : Nat
  len : Nat
  cookie : Nat
  ctx : Nat
  cq : Nat
  tile : Nat
  trailer : Trailer
  params : Params
  phase : Phase
  seenT : Nat
  startT : Nat
  result : Option Result
  effects : List Effect
  cut : Option (Nat × Nat)
  cutIdx : Option Nat
  det : Bool
  joined : Bool
  detTile : Option Nat
  spans : List (Nat × Nat × Bool)
  deriving DecidableEq, Repr

/-- An attention job in the queue of a tile (R397): its ATTEND, the tile, the tile's commands that were dispatched before it,
and the tile-store window's start. -/
structure Job where
  cmd : Nat
  tile : Nat
  behind : List Nat
  tsLo : Nat
  deriving DecidableEq, Repr

/-- A submission ring beside its registers: start of the re-poll window, whether a re-poll runs, time of the last
re-read, and the earliest time of the next packet fetch (R73, R78). -/
structure SqAux where
  tDb : Nat
  early : Bool
  lastPoll : Nat
  nextFetch : Nat
  deriving DecidableEq, Repr

/-- A completion ring beside its registers: reserved slots (R83), records not yet signalled (R90), the time of
the first of them, and whether a tail write-back waits for the end of a cut (R53). -/
structure CqAux where
  reserved : Nat
  unsignalled : Nat
  firstUnsig : Nat
  tailDue : Bool
  deriving DecidableEq, Repr

/-- A cut list entry (the layout at the end of chapter 02). -/
structure CutEntry where
  kind : Nat
  reason : Nat
  ring : Nat
  seq : Nat
  addr : Nat
  length : Nat
  source : Nat
  ctx : Nat
  time : Nat
  record : List Byte
  deriving DecidableEq, Repr

/-- A completion record held in ride-through mode (R53). -/
structure HeldRecord where
  cq : Nat
  record : List Byte
  irq : Bool
  deriving DecidableEq, Repr

/-- The Hitch beside its registers. `latched` is the ride-through setting of the cut (R537), `held` the hold
queue, `cuts` the cut list; MSI-X function mask and enable, and the pending vectors in the order they first
fired (R48); `snoop` the host-held lines oldest first (R34); `cxlOk` whether the host enabled CXL at the last
negotiation; `config` the configuration space that software wrote, by dword; `deviceReady` whether configuration
requests are answered; `cfgNext` a value of HITCH_CFG written during a cut (R537). -/
structure HitchSt where
  latched : Bool
  full : Bool
  held : List HeldRecord
  cuts : List CutEntry
  funcMask : Bool
  msixEnable : Bool
  fired : List Nat
  snoop : List Nat
  cxlOk : Bool
  config : Sparse (BitVec 32)
  barSize : Nat
  idePending : Bool
  lastCutT : Nat
  cfgNext : Option Nat
  deriving DecidableEq, Repr

/-- An error-log entry (R502). -/
structure ErrEntry where
  seq : Nat
  source : Nat
  cls : Nat
  outcome : Nat
  time : Nat
  status : Nat
  ctx : Nat
  flags : Nat
  ring : Nat
  cmdSeq : Nat
  tag : Nat
  addr : Nat
  interruptNs : Nat
  unit : Nat
  deriving DecidableEq, Repr

/-- A trace record (R525). -/
structure TraceRec where
  time : Nat
  source : Nat
  kind : Nat
  rank : Nat
  ctx : Nat
  a : Nat
  b : Nat
  c : Nat
  deriving DecidableEq, Repr

/-- A staged quire: its number, the drop count its QUIRE record reports, its event records. -/
structure Quire where
  num : Nat
  drops : Nat
  recs : List TraceRec
  deriving DecidableEq, Repr

/-- The trace unit beside its registers: the open quire's event records, the staged quires oldest first, the next
quire number, records accepted in tick `tickAt`, drops since power-up, the episode of drops not yet recorded
(count, first and last time), the last quire that a CENTRE buffer may write, the
records of tick `tickAt` beyond its limit (kept if the tick brings a trigger, R528), whether capture was started
and then stopped. -/
structure TraceSt where
  opened : List TraceRec
  staged : List Quire
  next : Nat
  tickAt : Nat
  tickRecs : Nat
  drops : Nat
  episode : Option (Nat × Nat × Nat)
  stopAfter : Option Nat
  held : List TraceRec
  entered : Bool
  deriving DecidableEq, Repr

/-- A clamp report entry (R483). -/
structure ClampEntry where
  offset : Nat
  size : Nat
  reason : Nat
  written : Nat
  used : Nat
  tag : Nat
  deriving DecidableEq, Repr

/-- Power, reset and boot beside their registers: the power-good inputs and PERST_N as asserted; the staging
window; OTP; Ostler SRAM; the configuration block as used; the clamp report; what the host selected; whether the
module has stopped for good (R472), whether a module fault has occurred; the hash H of the running image and its
BUILD (R479); times of INTERNAL and UPDATE_PERSISTENT statuses (R500); what was asked
over SPDM; the scope that the token under verification would open; LENGTH of the configuration block. -/
structure BootSt where
  pgAux : Bool
  pgMain : Bool
  pgStack : Bool
  pgOpt : Bool
  perstN : Bool
  perstSeen : Bool
  staging : Memory
  stagingRO : Bool
  otp : Memory
  sram : Memory
  block : Memory
  clamps : List ClampEntry
  pcieOnly : Bool
  spread : Nat
  stopped : Bool
  imageHash : List Byte
  build : List Byte
  modErrs : List Nat
  contexts : List Nat
  avsStopped : Bool
  sbAlert : Nat
  sbMask : Nat
  sbAddr : Option Nat
  spdmLog : List (List Byte)
  token : Option Nat
  length : Nat
  deriving DecidableEq, Repr

/-- Curb beside its registers: the power samples of the last 1 ms in mW, newest first, the energy in nJ beyond the
last whole µJ, and the earliest times of the next power and temperature samples. -/
structure CurbSt where
  samples : List Nat
  energyFrac : Nat
  nextPower : Nat
  nextTemp : Nat
  deriving DecidableEq, Repr

/-- What leaves the module besides host memory writes: MSI-X messages (address, data) in order, the open-drain
outputs as asserted, interrupts raised to the Ostler cores, answers to host reads (newest last), AVSBus set-points, and answers on the
sideband. -/
structure OutSt where
  msix : List (Nat × Nat)
  thermtrip : Bool
  alert : Bool
  coreIrq : List Nat
  reads : List (List Byte)
  avs : List (Nat × Nat)
  sideband : List Nat
  deriving DecidableEq, Repr

end Sys2Proof.Machine
end

