-- ==== Sys2Proof/Machine/StateEngine.lean ====
section
/-! DEFINITION. State of the Relay, the Beater, the Stud Book and the Farrier beside their registers (chapters 10 to 13): plain
data. -/

namespace Sys2Proof.Machine

/-- A group (R361): its number, context, current epoch, ranks in member order and this module's member index. -/
structure GroupSt where
  num : Nat
  ctx : Nat
  epoch : Nat
  ranks : List Nat
  self : Nat
  deriving DecidableEq, Repr

/-- A unit of collective data that waits for credit (R368): destination member, leg, index within its stream, whether it is
the stream's last, bytes. -/
structure OutUnit where
  dst : Nat
  leg : Nat
  index : Nat
  last : Bool
  body : List Byte
  deriving DecidableEq, Repr

/-- A list entry of LOOKUP_POOL and SORT_DEDUP as read: its table, MEAN, WEIGHTED, OUT_BF16, output address and stride, the
position of its first index, and of each bag the keys, none for a skipped index, with their weights (FP32). -/
structure LookEntry where
  table : Nat
  mean : Bool
  weighted : Bool
  bf16 : Bool
  outVa : Nat
  stride : Nat
  first : Nat
  bags : List (List (Option Nat × Nat))
  deriving DecidableEq, Repr

/-- A collective in flight (R364): its tag (group·2^24 + epoch·2^16 + bucket), context, opcode, the command that it
executes (none between the passes of a reduction), the group as it stood at the start, the digest (R369), the passes and
how many have completed, the start of the communicating command; this member's contribution; units that wait for
credit, units that each member granted, the members whose digest arrived, units granted to each member; the streams
that arrive, by leg·2^14 + member: their bytes, the units received, those complete and those acted on; detections that wait
for their unit (stream, index, time), whether one was recovered; its counts, the keys with their sources, the list of a LOOKUP_POOL, the
members that refused (R287, R384) or drained or finished their moves (R386), its phase, and the ranges (address, length) of its outputs (of a PERMUTE those that its moves
have written) and of its bucket, which an early end leaves undefined (R388 to R393). -/
structure Coll where
  tag : Nat
  ctx : Nat
  op : Nat
  cmd : Option Nat
  ranks : List Nat
  self : Nat
  digest : Nat
  passes : Nat
  passDone : Nat
  startT : Nat
  phase : Nat
  own : List Byte
  outq : List OutUnit
  credit : Sparse Nat
  met : List Nat
  grants : Sparse Nat
  streams : Sparse (List Byte)
  units : Sparse Nat
  ended : List Nat
  acted : List Nat
  dets : List (Nat × Nat × Nat)
  recovered : Bool
  sat : Nat
  ufl : Nat
  special : Bool
  tx : Nat
  rx : Nat
  keys : List (Nat × Nat)
  look : List LookEntry
  refused : List Nat
  drained : List Nat
  moved : List Nat
  small : Bool
  outs : List (Nat × Nat)
  bucket : List (Nat × Nat)
  deriving DecidableEq, Repr

/-- A collective of tag `tag` in which nothing has happened. -/
def Coll.init (tag ctx op : Nat) (cmd : Option Nat) (ranks : List Nat) (self digest passes now : Nat) : Coll :=
  { tag := tag, ctx := ctx, op := op, cmd := cmd, ranks := ranks, self := self, digest := digest, passes := passes,
    passDone := 0, startT := now, phase := 0, own := [], outq := [], credit := [], met := [], grants := [], streams := [],
    units := [], ended := [], acted := [], dets := [], recovered := false, sat := 0, ufl := 0, special := false, tx := 0, rx := 0,
    keys := [], look := [], refused := [], drained := [], moved := [], small := false, outs := [], bucket := [] }

/-- A command that the Relay holds (R364, R385): for room, or for a future epoch. -/
structure HeldColl where
  cmd : Nat
  epoch : Bool
  deriving DecidableEq, Repr

/-- The Relay beside its registers: groups by entry of RELAY_GROUP, collectives in flight, held commands in the
order in which they were held, credits that wait for their tag (source rank, tag, digest, units; R370), remembered
cancels (group, epoch, bucket or none for the whole epoch; R389), tags whose reduction has been delivered (R381), DRAINED
messages that came before this module's PERMUTE (source rank, group, epoch, whether its staging area is too small), and the
credits of this module that a peer has refused (its rank, tag, time of the refusal; R370). -/
structure RelaySt where
  groups : Sparse (Option GroupSt)
  colls : List Coll
  held : List HeldColl
  pending : List (Nat × Nat × Nat × Nat)
  cancels : List (Nat × Nat × Option Nat)
  delivered : List Nat
  early : List (Nat × Nat × Nat × Bool)
  refusals : List (Nat × Nat × Nat)
  deriving DecidableEq, Repr

/-- The Relay at power-up. -/
def RelaySt.reset : RelaySt := ⟨[], [], [], [], [], [], [], []⟩

/-- An entry of the Stud Book's directory (R301). -/
structure SbEntry where
  valid : Bool
  row : Nat
  table : Nat
  ctx : Nat
  state : Nat
  owner : Bool
  stale : Bool
  filled : Bool
  group : Nat
  slot : Nat
  version : Nat
  fillVer : Nat
  heat : Nat
  stepAt : Nat
  deriving DecidableEq, Repr

/-- A free way: every field 0 (R301). -/
def SbEntry.free : SbEntry := ⟨false, 0, 0, 0, 0, false, false, false, 0, 0, 0, 0, 0, 0⟩

/-- The Beater and the Stud Book beside their registers: table descriptors by context·4096 + table, directory entries
by index, and the (group, set) pairs in which a group entry has failed since the group's last REFRESH (R319). -/
structure BeaterSt where
  tables : Sparse (Option TableParams)
  book : Sparse SbEntry
  failed : List (Nat × Nat)
  deriving DecidableEq, Repr

/-- The Beater at power-up. -/
def BeaterSt.reset : BeaterSt := ⟨[], [], []⟩

/-- A shard (R323, R326): its descriptor, whether this module owns it, the current version and its STEP. -/
structure Shard where
  p : ShardParams
  owned : Bool
  version : Nat
  step : Nat
  deriving DecidableEq, Repr

/-- An entry of an UPDATE's or NORM_REDUCE's list: shard, gradient format, address of the gradient. -/
structure UpdEntry where
  shard : Nat
  fmt : Nat
  va : Nat
  deriving DecidableEq, Repr

/-- An UPDATE that the Farrier holds (R342): its command, context and list, and the time from which it waits on its clip
slot (R352). -/
structure HeldUpdate where
  cmd : Nat
  ctx : Nat
  entries : List UpdEntry
  since : Nat
  deriving DecidableEq, Repr

/-- What an UPDATE's writes of its slots leave for its commit: conversions counted, of each shard the sums of squares
of differences and of old values (R353), and its hyperparameter block, which is read once (R331). -/
structure Written where
  sat : Nat
  ufl : Nat
  mon : List (Nat × Nat × Nat)
  hypers : List (Nat × List Byte)
  deriving DecidableEq, Repr

/-- An UPDATE that has written its slots and holds its commit until its clip slot receives its step (R350), since time
`since`. -/
structure Lagged where
  cmd : Nat
  ctx : Nat
  entries : List UpdEntry
  factor : Nat
  done : Written
  since : Nat
  deriving DecidableEq, Repr

/-- A FETCH of a version not yet committed that waits (R345): a command of this module, or the request of a rank with its
reply's tag. -/
structure FetchWait where
  cmd : Option Nat
  rank : Nat
  tag : Nat
  ctx : Nat
  shard : Nat
  parts : Nat
  version : Nat
  deriving DecidableEq, Repr

/-- A slot held for a snapshot (R346). -/
structure SlotHold where
  cmd : Nat
  ctx : Nat
  shard : Nat
  version : Nat
  deriving DecidableEq, Repr

/-- An open accumulation of the update-to-weight monitor (R353): context, group, STEP, and the sums of squares of
differences and of old values by shard. -/
structure MonAcc where
  ctx : Nat
  tgroup : Nat
  step : Nat
  parts : List (Nat × Nat × Nat)
  deriving DecidableEq, Repr

/-- The Farrier beside its registers: shards by context·16384 + shard, held UPDATEs in dispatch order, lagged
commits, waiting FETCHes, slots held, open monitor groups, the entry of the monitor log written next. -/
structure FarrierSt where
  shards : Sparse (Option Shard)
  held : List HeldUpdate
  lagged : List Lagged
  fetches : List FetchWait
  holds : List SlotHold
  mon : List MonAcc
  monNext : Nat
  deriving DecidableEq, Repr

/-- The Farrier at power-up. -/
def FarrierSt.reset : FarrierSt := ⟨[], [], [], [], [], [], 0⟩

/-- A sequence of an ATTEND (R404, chapter 14): the fields of its descriptor, the page addresses that the latch holds, whether it
has ended early (1 in a lower tier, 2 at an unmapped page; R420), the empty rows counted so far. -/
structure SeqSt where
  slot : Nat
  expectGen : Nat
  kvLen : Nat
  kvStart : Nat
  qLen : Nat
  qPos0 : Nat
  maskStride : Nat
  qVa : Nat
  oVa : Nat
  lseVa : Nat
  maskVa : Nat
  doVa : Nat
  dqVa : Nat
  dkvVa : Nat
  pages : List Nat
  failed : Nat
  empty : Nat
  deriving DecidableEq, Repr

/-- An ATTEND in progress: its command, whether it still latches, its sequences, the next unit that no job has taken, the pages
processed, whether it wrote a special value, its conversions. -/
structure Attend where
  cmd : Nat
  latching : Bool
  seqs : List SeqSt
  next : Nat
  pages : Nat
  special : Bool
  sat : Nat
  ufl : Nat
  deriving DecidableEq, Repr

end Sys2Proof.Machine
end

