-- ==== Sys2Proof/Machine/StateNet.lean ====
section
/-! DEFINITION. State of the transport, of the optical links, of recipe messages (chapter 15) and of the frame MACs (chapter
16): plain data. -/

namespace Sys2Proof.Machine

/-- A message that has left for another rank: destination, class, context, content. -/
structure OutMsg where
  dst : Nat
  cls : Nat
  ctx : Nat
  msg : Msg
  deriving DecidableEq, Repr

/-- A message in flight (R439, R440, R442): number, first PSN and packets (none for a message that could not leave), those
acknowledged, the time of its last sending, resends done and packets resent, the command that it belongs to; for a refused
recipe message whether it waits to be tried again, the time of its first refusal and of its last try; the MAC by which it leaves, if any, the payload of a packet,
the packets that have left; what the receiver wrote of a message that was too long. -/
structure Flight where
  id : Nat
  out : OutMsg
  psn : Nat
  count : Nat
  acked : List Nat
  sentT : Nat
  tries : Nat
  resent : Nat
  cmd : Option Nat
  refused : Bool
  rnr : Option Nat
  rnrLast : Nat
  mac : Option Nat
  pay : Nat
  cut : Nat
  short : Option Nat
  deriving DecidableEq, Repr

/-- A recipe message being received: source, context, queue, message number, the receiving RECV_POST (none for a try that was
refused), bytes so far, length of the message. -/
structure Inbound where
  src : Nat
  ctx : Nat
  queue : Nat
  num : Nat
  cmd : Option Nat
  got : Nat
  length : Nat
  deriving DecidableEq, Repr

/-- The transport of one peer rank: next PSN to send, next PSN expected, accepted PSNs beyond it, packets received since the
last acknowledgement and the time of the first, time of the last SACK while a gap remains (R456), whether a datagram marked CE
was accepted since the last acknowledgement (R457), and of each queue the last message that was refused or truncated: queue
key, PSN, bytes written (R442). -/
structure Peer where
  txPsn : Nat
  rxNext : Nat
  rxAhead : List Nat
  unacked : Nat
  firstT : Nat
  sackT : Option Nat
  ecn : Bool
  short : List (Nat × Nat × Option Nat)
  deriving DecidableEq, Repr

/-- A peer that nothing was exchanged with. -/
def Peer.init : Peer := ⟨0, 0, [], 0, 0, .none, false, []⟩

/-- A flit in a replay buffer: its SEQ, and the message and packet that it belongs to, if it is this module's own. -/
structure HeldFlit where
  seq : Nat
  owner : Option (Nat × Nat)
  deriving DecidableEq, Repr

/-- A link at an engine (R428): next SEQ to send, replay buffer (oldest first), next SEQ expected, whether a NAK was sent and
not yet answered, the SEQ of the last NAK received and how many came for it in a row, state before HOLD, time of the state's
entry, light present, administratively down, entered TRAIN before, the peer's serial number, a switch-over in progress since
when and whether a loss caused it, lane drops that wait for the end of HOLD, data flits that wait for room in the replay buffer
(R429) or for the end of HOLD, by message and packet. -/
structure LinkSt where
  tx : Nat
  replay : List HeldFlit
  rx : Nat
  nakSent : Bool
  nakSeq : Nat
  naks : Nat
  before : Nat
  since : Nat
  light : Bool
  adminDown : Bool
  trained : Bool
  serial : Nat
  switching : Option (Nat × Bool)
  dead : List Nat
  waiting : List (Option (Nat × Nat))
  deriving DecidableEq, Repr

/-- A link at power-up. -/
def LinkSt.init : LinkSt := ⟨0, [], 0, false, 0, 0, 0, 0, false, false, false, 0, .none, [], []⟩

/-- A pause in force (R460): priority (0 in mode 1), its end, and since when transmission is paused without a break. -/
structure Pause where
  pri : Nat
  until_ : Nat
  since : Nat
  deriving DecidableEq, Repr

/-- A holdoff of the pause watchdog (R462): priority, whether it is that of the paused direction, its end. -/
structure Holdoff where
  pri : Nat
  tx : Bool
  until_ : Nat
  deriving DecidableEq, Repr

/-- A priority in XOFF (R461): since when, and when its pause was last sent. -/
structure Xoff where
  pri : Nat
  since : Nat
  last : Nat
  deriving DecidableEq, Repr

/-- The pacing of one destination rank by a MAC (R457): rate in Gb/s, times of the last decrease and of the last change. -/
structure Rate where
  rank : Nat
  rate : Nat
  decT : Nat
  incT : Nat
  deriving DecidableEq, Repr

/-- A frame MAC beside its registers: IPv4 ID counter, pauses, holdoffs, priorities in XOFF, bytes of each priority in the
receive buffer, verify mPackets sent and the time of the last, whether verification has succeeded (R459), transmit time-stamps
(slot and sixteenths of a ns) oldest first, rates. -/
structure Mac where
  ipId : Nat
  pauses : List Pause
  holdoffs : List Holdoff
  xoffs : List Xoff
  occ : Sparse Nat
  verifyN : Nat
  verifyT : Nat
  verified : Bool
  txts : List (Nat × Nat)
  rates : List Rate
  deriving DecidableEq, Repr

/-- A MAC at power-up. -/
def Mac.init : Mac := ⟨0, [], [], [], [], 0, 0, false, [], []⟩

/-- The network plane beside its registers: messages sent, newest last; messages in flight; recipe messages being received;
how many messages were sent on each queue to each rank; transport of each peer; links; MACs; the Ethernet frames that have left
(MAC, bytes with FCS); the flits forwarded for other ranks (engine, virtual channel, rank); the time of the last offset
measurement (R443); whether the engines are silent (R501). -/
structure NetSt where
  sent : List OutMsg
  flights : List Flight
  nextId : Nat
  inbound : List Inbound
  queueNum : Sparse Nat
  peers : Sparse Peer
  links : Sparse LinkSt
  macs : Sparse Mac
  frames : List (Nat × List Byte)
  forwarded : List (Nat × Nat × Nat)
  measureT : Nat
  silent : Bool
  deriving DecidableEq, Repr

/-- The network plane at power-up. -/
def NetSt.reset : NetSt := ⟨[], [], 0, [], [], [], [], [], [], [], 0, false⟩

end Sys2Proof.Machine
end

