-- ==== Sys2Proof/Machine/StateMem.lean ====
section
/-! DEFINITION. State of module memory, the Vat, the stack controllers and the Drover (chapters 07 to 09): plain
data. Module memory is held by module physical address as the CURRENT value of every byte (R212): the Vat's copy
where a line is resident, the stack's otherwise. Check words and parity lines are functions of those values
(R201, R209, R212) and are not stored; which parity lines are resident is. -/

namespace Sys2Proof.Machine

/-- A line resident in the Vat: the MPA line number of a data line, or the first data line's of a parity line's
stripe; state, owner context, KEEP mark, use count, and the stamp of its last use (R226 to R234). -/
structure VatLine where
  valid : Bool
  line : Nat
  parity : Bool
  dirty : Bool
  keep : Option Nat
  uses : Option Nat
  stamp : Nat
  deriving DecidableEq, Repr

/-- No line. -/
def VatLine.none : VatLine := ⟨false, 0, false, false, .none, .none, 0⟩

/-- A frame (R197, R208): its class, and while pages of it are mapped the stacks of its layout; an unmapped frame
follows CAPS_CHANNEL_MASK. -/
structure Frame where
  guarded : Bool
  layout : Option Nat
  deriving DecidableEq, Repr

/-- A detection at a Vat slice: slice number, time, whether both tag copies failed (R241). -/
structure SliceErr where
  slice : Nat
  time : Nat
  bothTags : Bool
  deriving DecidableEq, Repr

/-- Module memory and its controllers. `bytes` current values by MPA; `stackCopy` the stack's older copy of a
dirty resident line, by MPA line number; `vat` the resident lines by slot key; `lost` the lost lines by MPA line
number (R216, R555); `chkBuf` the buffered check sectors, oldest first (R204); `retired` the retired pages (R223,
R224) and `gone` those whose remap has flipped (R198); `failedRows` the DRAM rows whose pages are retired;
`rowEvents` repairs and retirements with their times, for the window of R218; `repairs` the repairs of each bank;
`scrub` the next slot that each stack scrubs; `holding` the parity slots of held stripes (R214); `lent` memory of
neighbours by (rank, lend, page, offset). -/
structure MemSt where
  bytes : Memory
  stackCopy : Sparse (List Byte)
  vat : Sparse VatLine
  stamp : Nat
  lost : List Nat
  chkBuf : List Nat
  frames : Sparse Frame
  retired : List Nat
  gone : List Nat
  failedRows : List Nat
  rowEvents : List (Nat × Nat × Nat)
  repairs : Sparse Nat
  pprNext : Sparse Nat
  scrub : Sparse Nat
  holding : List Nat
  sliceErrs : List SliceErr
  lent : Memory
  deriving DecidableEq, Repr

/-- A leaf entry of a page table (chapter 09): `target` is an MPA, a bus address, or a neighbour address
(rank, lend number, page, as one number; see `neighbourAddr`). -/
structure Leaf where
  valid : Bool
  write : Bool
  small : Bool
  tier : Nat
  mig : Bool
  target : Nat
  obj : Nat
  revoked : Bool
  deriving DecidableEq, Repr

/-- No mapping. -/
def Leaf.none : Leaf := ⟨false, false, false, 0, false, 0, 0, false⟩

/-- A migration in progress (R258 to R263): the command that runs it (none for the Drover's own), target tier and
lend, target addresses by page of the object, dirty 64 KiB blocks, passes done, start time of the running pass,
accesses waiting. -/
structure Mig where
  cmd : Option Nat
  tier : Nat
  lend : Nat
  targets : List Nat
  dirty : List Nat
  passes : Nat
  deriving DecidableEq, Repr

/-- An object (R242 to R244): its attributes, where it lies, the time of its last translated access (R256), a
migration, and the number of snapshots and rebuilds using it. -/
structure Obj where
  ctx : Nat
  obj : Nat
  va : Nat
  size : Nat
  small : Bool
  write : Bool
  guarded : Bool
  cache : Bool
  droppable : Bool
  tier : Nat
  lend : Nat
  lastUse : Nat
  mig : Option Mig
  users : Nat
  deriving DecidableEq, Repr

/-- A physical page that small pages of one context and guard class share (R245), with its used 64 KiB units. -/
structure SmallPage where
  ctx : Nat
  guarded : Bool
  ppn : Nat
  used : Nat
  deriving DecidableEq, Repr

/-- A lend on the lender (R252): number, borrower, class, pages, start of the grace, the REVOKEs that wait. -/
structure Lend where
  id : Nat
  rank : Nat
  guarded : Bool
  pages : List Nat
  graceT : Option Nat
  cmds : List Nat
  deriving DecidableEq, Repr

/-- A borrowed lend beside DROVER_BORROW: pages of it in use, start of the grace, start of a loss of path. -/
structure Borrow where
  used : List Nat
  graceT : Option Nat
  pathLostT : Option Nat
  deriving DecidableEq, Repr

/-- A SNAPSHOT that has copied and not completed (R267): its command, context, objects, those of them that it copied as
they are (and not from held slots, R346), and the (object, unit) pairs written since they were read. -/
structure Snap where
  cmd : Nat
  ctx : Nat
  first : Nat
  count : Nat
  plain : List Nat
  torn : List (Nat × Nat)
  deriving DecidableEq, Repr

/-- No use of a borrowed lend. -/
def Borrow.init : Borrow := ⟨[], .none, .none⟩

/-- A translation cache entry: cache (0 to 7 teams, 8 and 9 dies, 10 I/O die), set, page key (R246). -/
structure TlbEntry where
  cache : Nat
  set : Nat
  page : Nat
  deriving DecidableEq, Repr

/-- The Drover beside its registers. Page tables by (context, 64 KiB page number); objects; used pages of each
context's host pool; shared small pages; lends given and borrowed; translation caches; a REVOKE that the
borrower's answer ends; allocations that wait for a revocation; snapshots under way; whether the rebuild under way has
logged that no page is free (R264); commands whose next lower-tier access gets no answer (true) or fails (R251). -/
structure DroverSt where
  leaves : Sparse Leaf
  objs : List Obj
  hostUsed : Sparse (List Nat)
  smallPages : List SmallPage
  usedPages : List Nat
  lends : List Lend
  borrows : Sparse Borrow
  tlb : List TlbEntry
  snaps : List Snap
  rebuildLogged : Bool
  late : List (Nat × Bool)
  deriving DecidableEq, Repr

end Sys2Proof.Machine
end

