-- ==== Sys2Proof/Machine/StateTile.lean ====
section
/-! DEFINITION. State of a compute tile beside its registers (chapters 05 and 06): plain data. -/

namespace Sys2Proof.Machine

/-- The check setting in force for an open group (R164). -/
structure CheckCfg where
  enable : Bool
  tolExp : Nat
  tolAbs : Nat
  deriving DecidableEq, Repr

/-- An accumulation group or legacy slot (R137 to R148): its extent in accumulator bytes, entry size and type, how
it was initialised, the MATMULs it took, in order, for a replay (R153), the check setting at its ACC_OPEN, check
entries by tile row, tile rows with a saturated entry (R152), the tile-store address of the parity error that failed it
(R155), the ACC_CLOSE whose comparison failed and waits for the replay, with the time and tile row of that detection. -/
structure Group where
  isOpen : Bool
  isInt : Bool
  bf16 : Bool
  base : Nat
  rows : Nat
  initAddr : Option Nat
  matmuls : List MatmulParams
  check : CheckCfg
  chk : Sparse Int
  satRows : List Nat
  failed : Option Nat
  closing : Option Nat
  det : Option (Nat × Nat)
  cycles : Nat
  deriving DecidableEq, Repr

/-- No group. -/
def Group.none : Group :=
  ⟨false, false, false, 0, 0, .none, [], ⟨true, 12, 0⟩, [], [], .none, .none, .none, 0⟩

/-- The vector engine (chapter 06): the VKERN that runs, vector register words by 512·register + word, scalar
registers, VL, PC, instruction memory; of the run: the special bit (R178), whether it was replayed (R191), its counts
(R119) and lane cycles, the cycle from ENTRY at which the next instruction can issue, those at which lanes and port are
free and every instruction issued has completed, the cycle in which each register is written (vector registers 0 to 63,
scalar registers 64 to 95), the tile's cycle count at ENTRY (modulo 8), the time of its detection; the service buffer,
and the lane cycles of service work that waits (R187). -/
structure Vx where
  cmd : Option Nat
  v : Sparse (BitVec 32)
  s : Sparse (BitVec 64)
  vl : Nat
  pc : Nat
  imem : Sparse (BitVec 64)
  special : Bool
  replayed : Bool
  sat : Nat
  ufl : Nat
  busy : Nat
  cyc : Nat
  laneFree : Nat
  portFree : Nat
  done : Nat
  ready : Sparse Nat
  base : Nat
  det : Option Nat
  svc : Memory
  svcWait : Nat
  deriving DecidableEq, Repr

/-- The vector engine at power-up (R165, R126). -/
def Vx.init : Vx :=
  { cmd := .none, v := [], s := [], vl := 512, pc := 0, imem := [], special := false, replayed := false, sat := 0, ufl := 0,
    busy := 0, cyc := 0, laneFree := 0, portFree := 0, done := 0, ready := [], base := 0, det := .none, svc := [], svcWait := 0 }

/-- A tile: its store and accumulator memory, groups 0 to 7 and legacy slots (8 + slot), the vector engine, the
times of its tile-store parity detections (R496), the MATMUL that waits for nothing but the array, with the time since
when, and the time at which the array last ended a MATMUL (R132). -/
structure Tile where
  store : Memory
  acc : Memory
  groups : Sparse Group
  vx : Vx
  parity : List Nat
  prim : Option (Nat × Nat)
  streamT : Option Nat
  deriving DecidableEq, Repr

/-- A tile at power-up: every byte and every entry zero (R126). -/
def Tile.init : Tile := ⟨[], [], [], Vx.init, [], .none, .none⟩

end Sys2Proof.Machine
end

