-- ==== Sys2Proof/Machine/State.lean ====
section
/-! DEFINITION. The state of the block: everything the spec gives the machine, as plain data, and the queue of the
commands that wait. -/

namespace Sys2Proof.Machine

/-- Everything but the queue. `regs` holds every register of BAR0, by register and 64-bit word (`Ops.lean`); an
unlisted word holds its power-up value. `cmds` are the commands in flight: those of a ring that
wait for dispatch in the order of their fetch, the dispatched ones in the order of their dispatch (R293). `fetchNext` is the
earliest time of the next packet fetch of any ring (R78), `attends` holds Blinkers' commands, `lastServed` the ring that each engine served last (R82). -/
structure Block where
  clk : Clock
  free : FreeSt
  regs : Sparse (BitVec 64)
  cmds : List Cmd
  nextId : Nat
  jobs : List Job
  fetchNext : Nat
  lastServed : Sparse Nat
  sq : Sparse SqAux
  cq : Sparse CqAux
  hitch : HitchSt
  errlog : Sparse ErrEntry
  trace : TraceSt
  boot : BootSt
  curb : CurbSt
  host : Memory
  mem : MemSt
  drover : DroverSt
  tiles : Sparse Tile
  relay : RelaySt
  beater : BeaterSt
  farrier : FarrierSt
  attends : List Attend
  net : NetSt
  out : OutSt
  deriving DecidableEq, Repr

/-- The state: the queue of waiting commands, first in, first out, and the block. -/
structure State where
  pending : List Instr
  blk : Block
  deriving DecidableEq, Repr

/-- Why a step stops with a fault. -/
inductive Fault where
  /-- Raised by a register access whose offset lies outside the 64 MiB of BAR0 (R26): the address does not exist.
  Safe: the machine stops where the hardware sees no such access. -/
  | bar0Range
  deriving DecidableEq, Repr

/-- Why a step has no meaning. -/
inductive Refusal where
  /-- Raised by an arm of `exec` whose command has no meaning yet. Safe. -/
  | notModelled (mnemonic : String)
  deriving DecidableEq, Repr

/-- The clock before REFCLK_LINK runs: time 0, not running (R522). -/
def Clock.reset : Clock := ⟨0, 0, false, 0, 0⟩

/-- The Hitch at power-up. -/
def HitchSt.reset : HitchSt := ⟨false, false, [], [], false, false, [], [], false, [], 0, false, 0, .none⟩

/-- The trace unit at power-up. -/
def TraceSt.reset : TraceSt := ⟨[], [], 0, 0, 0, 0, .none, .none, [], false⟩

/-- Before PG_AUX: nothing asserted but PERST_N, which the host holds (R471); OTP blank (DESIGN CHOICE, in the
log). -/
def BootSt.reset : BootSt :=
  ⟨false, false, false, false, true, false, [], false, [], [], [], [], false, 0, false, [], [], [], [], false, 0, 0, .none, [], .none, 0⟩

/-- Curb at power-up. -/
def CurbSt.reset : CurbSt := ⟨[], 0, 0, 0⟩

/-- Nothing has left the module. -/
def OutSt.reset : OutSt := ⟨[], false, false, [], [], [], []⟩

/-- Module memory at power-up: every byte zero, nothing resident (R206). -/
def MemSt.reset : MemSt := ⟨[], [], [], 0, [], [], [], [], [], [], [], [], [], [], [], [], []⟩

/-- The Drover at power-up. -/
def DroverSt.reset : DroverSt := ⟨[], [], [], [], [], [], [], [], [], false, []⟩

/-- The block before PG_AUX is asserted (stage RESET). -/
def Block.reset : Block where
  clk := Clock.reset
  free := ⟨0, 0, 0⟩
  regs := []
  cmds := []
  nextId := 0
  jobs := []
  fetchNext := 0
  lastServed := []
  sq := []
  cq := []
  hitch := HitchSt.reset
  errlog := []
  trace := TraceSt.reset
  boot := BootSt.reset
  curb := CurbSt.reset
  host := []
  mem := MemSt.reset
  drover := DroverSt.reset
  tiles := []
  relay := RelaySt.reset
  beater := BeaterSt.reset
  farrier := FarrierSt.reset
  attends := []
  net := NetSt.reset
  out := OutSt.reset

/-- The machine right after reset: no command waits, the boot ROM has not started. -/
def State.reset : State := ⟨[], Block.reset⟩

end Sys2Proof.Machine
end

