-- ==== Sys2Proof/Machine/Ops.lean ====
section
/-! DEFINITION. Named operations over the block: registers (R5 to R7), time, free values, the error log (R502,
R503), module events and MSI-X (R48, R91), the trace unit (R525 to R531) and the performance counters (R516 to
R519). Every meaning goes through them. -/

namespace Sys2Proof.Machine

/-! ### Lifting -/

/-- A meaning that changes the block whatever its power inputs did. -/
def State.always (s : State) (f : Block → Block) : Host.Outcome State Fault Refusal := .next { s with blk := f s.blk }

/-- A meaning that only changes the block. After a power-good fall, a thermal trip or a regulator without acknowledgement
the module takes no further action (R472, R543, R548). -/
def State.run (s : State) (f : Block → Block) : Host.Outcome State Fault Refusal :=
  .next { s with blk := if s.blk.boot.stopped then s.blk else f s.blk }

/-! ### Registers -/

/-- How many 64-bit words an element of `r` takes in the register map. -/
def RegId.words (r : RegId) : Nat := ceilDiv r.info.width 64

/-- The key of word `w` of register `r`. -/
def RegId.key (r : RegId) (w : Nat) : Nat := r.code * 2 ^ 24 + w

/-- The power-up value of the word with key `k` (R7): each field at its power-up value, reserved bits 0. -/
def powerUp (k : Nat) : BitVec 64 :=
  match regTable[k / 2 ^ 24]? with
  | some r =>
    let part := k % 2 ^ 24 % ceilDiv r.width 64
    BitVec.ofNat 64 (r.fields.foldl (fun a f => if f.lo / 64 = part then a + f.reset * 2 ^ (f.lo % 64) else a) 0)
  | none => 0

/-- Word `w` of register `r`. -/
def Block.word (b : Block) (r : RegId) (w : Nat) : Nat := (Sparse.get powerUp b.regs (r.key w)).toNat

/-- The block with word `w` of `r` holding `v`. -/
def Block.setWord (b : Block) (r : RegId) (w v : Nat) : Block :=
  { b with regs := Sparse.set powerUp b.regs (r.key w) (BitVec.ofNat 64 v) }

/-- The word of the register map that holds field `f` of element `i`. -/
def Fld.word (f : Fld) (i : Nat) : Nat := i * f.reg.words + f.lo / 64

/-- Field `f` of element `i`. -/
def Block.rget (b : Block) (f : Fld) (i : Nat := 0) : Nat := bits (b.word f.reg (f.word i)) (f.lo % 64) f.width

/-- The block with field `f` of element `i` holding `v` modulo its width. -/
def Block.rset (b : Block) (f : Fld) (i : Nat) (v : Nat) : Block :=
  b.setWord f.reg (f.word i) (setBits (b.word f.reg (f.word i)) (f.lo % 64) f.width v)

/-- Whether field `f` of element `i` is not zero. -/
def Block.flag (b : Block) (f : Fld) (i : Nat := 0) : Bool := decide (b.rget f i ≠ 0)

/-- Adds `n` to a counter field, modulo its width (R514). -/
def Block.count (b : Block) (f : Fld) (i n : Nat) : Block := if n = 0 then b else b.rset f i (b.rget f i + n)

/-- Adds `n` to a field that saturates. -/
def Block.countSat (b : Block) (f : Fld) (i n : Nat) : Block :=
  b.rset f i (min (2 ^ f.width - 1) (b.rget f i + n))

/-- Every word of register `r` back at its power-up value (R7). -/
def Block.resetReg (b : Block) (r : RegId) : Block :=
  { b with regs := b.regs.filter (fun p => !decide (p.1 / 2 ^ 24 = r.code)) }

/-- The listed words of register `r`, as (word index, value): the words that differ from power-up. -/
def Block.listed (b : Block) (r : RegId) : List (Nat × Nat) :=
  b.regs.filterMap (fun p => if p.1 / 2 ^ 24 = r.code then some (p.1 % 2 ^ 24, p.2.toNat) else none)

/-! ### Time and free values -/

/-- Global time in whole nanoseconds, rounded down (R17, R522). -/
def Block.now (b : Block) : Nat := b.clk.g / 16 % 2 ^ 64

/-- Sixteenths of a nanosecond in a microsecond. -/
def usec : Nat := 16000
/-- Sixteenths of a nanosecond in a millisecond. -/
def msec : Nat := 16000000

/-- The next tick (R16, R17, R523, R524): 4 ns, a pending GTIME_STEP, and at most one sixteenth of slew. -/
def Block.tick (b : Block) : Block :=
  if b.clk.running then
    let rate := toSigned 32 (b.rget .GTIME_SLEW_RATE_PPB)
    let acc := b.clk.slew + rate * 64
    let adj : Int := if 1000000000 ≤ acc then 1 else if acc ≤ -1000000000 then -1 else 0
    let g : Int := b.clk.g + 64 + b.clk.step * 16 + adj
    { b with clk := { b.clk with t := b.clk.t + 64, g := (g % (2 ^ 68 : Int)).toNat, step := 0,
                                 slew := acc - adj * 1000000000 } }
  else b

/-- `n` ticks at once, for an event whose due time lies ahead: the due time is a multiple of the tick (R18). -/
def Block.ticks (b : Block) : Nat → Block
  | 0 => b
  | n + 1 => Block.ticks b.tick n

/-- The clock at or past time `t`: an event that a timer causes falls on the first tick not before its due time
(R18). Global time advances with it at the current rate. -/
def Block.advanceTo (b : Block) (t : Nat) : Block :=
  if b.clk.t < t ∧ b.clk.running then
    let n := ceilDiv (t - b.clk.t) 64
    let rate := toSigned 32 (b.rget .GTIME_SLEW_RATE_PPB)
    let acc := b.clk.slew + rate * 64 * n
    let adj := acc / 1000000000
    let g : Int := b.clk.g + 64 * n + b.clk.step * 16 + adj
    { b with clk := { b.clk with t := b.clk.t + 64 * n, g := (g % (2 ^ 68 : Int)).toNat, step := 0,
                                 slew := acc - adj * 1000000000 } }
  else b

/-- The number of the next free value, and the block after its use. -/
def Block.use (b : Block) : Nat × Block := (b.free.uses, { b with free := { b.free with uses := b.free.uses + 1 } })

/-- `n` bytes whose contents the spec leaves undefined, and the block after their use. -/
def Block.freeBytes (b : Block) (n : Nat) : List Byte × Block :=
  let u := b.use
  ((List.range n).map (Config.freeByte u.1), u.2)

/-- The next stochastic draw (R117). -/
def Block.draw (b : Block) : Nat × Block :=
  ((Config.srBits b.free.draws).toNat, { b with free := { b.free with draws := b.free.draws + 1 } })

/-! ### MSI-X and module events -/

/-- Whether vector `v` is masked (R48). -/
def Block.masked (b : Block) (v : Nat) : Bool := b.flag .MSIX_CTL_MASK v || b.hitch.funcMask || !b.hitch.msixEnable

/-- Whether the Hitch is cut (R51). -/
def Block.cutActive (b : Block) : Bool := b.flag .HITCH_STATUS_CUT_ACTIVE

/-- Whether vector `v` is pending. -/
def Block.vecPending (b : Block) (v : Nat) : Bool := bitAt (b.word .MSIX_PBA (v / 64)) (v % 64)

/-- The message of vector `v` leaves for the host (R48). -/
def Block.sendVector (b : Block) (v : Nat) : Block :=
  let m := (b.rget .MSIX_ADDR_ADDR v, b.rget .MSIX_DATA_DATA v)
  let b := { b with out := { b.out with msix := b.out.msix ++ [m] } }
  b.count .PERF_MSIX_COUNT 0 1

/-- Vector `v` fires (R48): sent, or pending while masked or cut; a pending vector gives no further message. -/
def Block.fireVector (b : Block) (v : Nat) : Block :=
  if 1024 ≤ v then b
  else if b.masked v || b.cutActive then
    if b.vecPending v then b
    else
      let b := b.setWord .MSIX_PBA (v / 64) (setBit (b.word .MSIX_PBA (v / 64)) (v % 64))
      { b with hitch := { b.hitch with fired := b.hitch.fired ++ [v] } }
  else b.sendVector v

/-- Pending vectors that have become sendable leave in the order they first fired (R48). -/
def Block.sendPending (b : Block) : Block :=
  if b.cutActive then b
  else
    b.hitch.fired.foldl (fun b v =>
      if b.masked v then b
      else
        let b := { b with hitch := { b.hitch with fired := b.hitch.fired.filter (fun x => !decide (x = v)) } }
        let b := b.setWord .MSIX_PBA (v / 64) (clearBit (b.word .MSIX_PBA (v / 64)) (v % 64))
        b.sendVector v) b

/-- Module event `e` (R91): its pending bit, and its vector when its route is enabled. -/
def Block.raiseEvent (b : Block) (e : Nat) : Block :=
  let b := b.rset .SPAOG_EVT_PEND_PEND 0 (setBit (b.rget .SPAOG_EVT_PEND_PEND) e)
  if b.flag .SPAOG_EVT_ROUTE_ENABLE e then b.fireVector (b.rget .SPAOG_EVT_ROUTE_VECTOR e) else b

/-! ### The trace unit -/

/-- Whether records of `kind` are enabled (R526). -/
def Block.kindOn (b : Block) (kind : Nat) : Bool :=
  decide (kind = 0 ∨ kind = 10 ∨ kind = 11 ∨ kind = 15) || bitAt (b.rget .TRACE_CFG_KINDS) (kind - 1)

/-- Puts a record into the open quire, which goes to staging when it holds 63 event records (R525). -/
def TraceSt.put (t : TraceSt) (r : TraceRec) : TraceSt :=
  let t := { t with opened := t.opened ++ [r] }
  if 63 ≤ t.opened.length then
    { t with opened := [], staged := t.staged ++ [⟨t.next, t.drops, t.opened⟩], next := (t.next + 1) % 2 ^ 32 }
  else t

/-- Whether staging takes a further record: 64 quires, one of them in reserve for a trigger's tick (R528). -/
def TraceSt.room (t : TraceSt) : Bool := decide (t.staged.length < 63)

/-- A record that is dropped (R528). -/
def Block.traceDrop (b : Block) (r : TraceRec) : Block :=
  let ep := match b.trace.episode with
    | some (n, t0, _) => (n + 1, t0, r.time)
    | none => (1, r.time, r.time)
  let b := { b with trace := { b.trace with drops := min (2 ^ 64 - 1) (b.trace.drops + 1), episode := some ep } }
  b.countSat .TRACE_DROPPED_DROPPED 0 1

/-- The records beyond the limit of the last tick are dropped once that tick has passed (R528). -/
def Block.traceSettle (b : Block) : Block :=
  if b.trace.tickAt = b.clk.t then b
  else
    let held := b.trace.held
    let b := { b with trace := { b.trace with tickAt := b.clk.t, tickRecs := 0, held := [] } }
    held.foldl Block.traceDrop b

/-- Capture enters the stopped state (R531). -/
def Block.traceHalt (b : Block) : Block :=
  if b.flag .TRACE_STATUS_RUNNING then
    (({ b with trace := { b.trace with entered := true, stopAfter := none } }).rset .TRACE_STATUS_RUNNING 0 0).raiseEvent 5
  else b

/-- Quire `q` is complete: a STOP buffer stops after its last quire, a CENTRE buffer after the last one that its trigger
allows (R531). -/
def Block.traceClosed (b : Block) (q : Nat) : Block :=
  if (b.rget .TRACE_BUF_CFG_MODE = 0 ∧ q + 1 = b.rget .TRACE_BUF_CFG_SIZE) ∨ b.trace.stopAfter = some q then b.traceHalt else b

/-- A record enters the open quire. -/
def Block.traceAdd (b : Block) (r : TraceRec) : Block :=
  let t := b.trace.put r
  let b' := { b with trace := { t with tickRecs := t.tickRecs + 1 } }
  if t.next = b.trace.next then b' else b'.traceClosed b.trace.next

/-- A record enters the open quire, behind a DROP record when an episode of drops ends with it (R528). -/
def Block.tracePut (b : Block) (r : TraceRec) : Block :=
  let b := match b.trace.episode with
    | some (n, t0, t1) =>
      let b := Block.traceAdd b ⟨r.time, 0x080, 11, r.rank, 15, n, t0, t1⟩
      { b with trace := { b.trace with episode := none, tickRecs := b.trace.tickRecs - 1 } }
    | none => b
  if b.flag .TRACE_STATUS_RUNNING then b.traceAdd r else b.countSat .TRACE_DROPPED_DROPPED 0 1

/-- The open quire, if it holds a record, is filled with PAD records and staged (R529). -/
def Block.traceFlush (b : Block) : Block :=
  let t := b.trace
  if t.opened = [] then b
  else
    let pad : TraceRec := ⟨b.now, 0x080, 15, 8, 15, 0, 0, 0⟩
    Block.traceClosed
      { b with trace := { t with opened := [], next := (t.next + 1) % 2 ^ 32,
                                 staged := t.staged ++ [⟨t.next, t.drops, t.opened ++ List.replicate (63 - t.opened.length) pad⟩] } }
      t.next

/-- An event offers a record to the trace unit (R526 to R528, R531). -/
def Block.traceRec (b : Block) (source kind rank ctx a bb c : Nat) : Block :=
  if b.kindOn kind then
    let r : TraceRec := ⟨b.now, source, kind, rank, ctx, a % 2 ^ 32, bb % 2 ^ 64, c % 2 ^ 64⟩
    if b.flag .TRACE_STATUS_RUNNING then
      let b := b.traceSettle
      if 4 ≤ b.trace.tickRecs then { b with trace := { b.trace with held := b.trace.held ++ [r] } }
      else if b.trace.room then b.tracePut r
      else b.traceDrop r
    else if b.trace.entered then b.countSat .TRACE_DROPPED_DROPPED 0 1
    else b
  else b

/-- The records beyond the limit of a tick that brings a trigger are kept after all (R528, R530). -/
def Block.tracePutHeld (b : Block) : Block :=
  b.trace.held.foldl Block.tracePut { b with trace := { b.trace with held := [] } }

/-- An episode of drops ends with a DROP record of the Ostler's (R528). -/
def Block.traceDropsEnd (b : Block) : Block :=
  match b.trace.episode with
  | some (n, t0, t1) =>
    let b := Block.traceAdd b ⟨b.now, 0x080, 11, 8, 15, n, t0, t1⟩
    { b with trace := { b.trace with episode := none } }
  | none => b

/-- A trigger is recorded in TRACE_STATUS, and a CENTRE buffer learns where to stop (R530, R531). -/
def Block.triggerNote (b : Block) : Block :=
  let q := b.trace.next
  let b := (b.rset .TRACE_STATUS_TRIGGERED 0 1).rset .TRACE_STATUS_TRIG_QUIRE 0 q
  if b.rget .TRACE_BUF_CFG_MODE = 2 then
    { b with trace := { b.trace with stopAfter := some ((q + b.rget .TRACE_BUF_CFG_POST) % 2 ^ 32) } }
  else b

/-- A trace trigger of a cause (R530): only the first after START counts; the tick's records are all kept, and the TRIGGER
record follows. -/
def Block.trigger (b : Block) (cause : Nat) : Block :=
  if b.flag .TRACE_STATUS_RUNNING && !b.flag .TRACE_STATUS_TRIGGERED then
    let b := b.traceSettle.tracePutHeld.traceDropsEnd
    let q := b.trace.next
    let b := b.triggerNote
    (b.tracePut ⟨b.now, 0x080, 10, 8, 15, cause, q, 0⟩).raiseEvent 5
  else b

/-! ### Performance counters -/

/-- Whether R516 lists the pair of a source number and an event code. -/
def perfListed (source event : Nat) : Bool :=
  let tile := decide (source < 0x40)
  let stack := decide (0x40 ≤ source ∧ source < 0x48)
  let vat := decide (0x48 ≤ source ∧ source < 0x50)
  let eng := decide (0x50 ≤ source ∧ source ≤ 0x56)
  let oe := decide (0x60 ≤ source ∧ source < 0x68)
  let mac := decide (0x70 ≤ source ∧ source < 0x80)
  let any := tile || stack || vat || eng || oe || mac || decide (0x57 ≤ source ∧ source ≤ 0x5B) || decide (source = 0x80)
  match event with
  | 0x01 => tile || eng
  | 0x02 => tile || eng
  | 0x03 => any
  | 0x04 => tile
  | 0x05 => tile
  | 0x06 => tile
  | 0x07 => tile || vat || stack || eng
  | 0x08 => tile || vat || stack || eng
  | 0x09 => tile || eng
  | 0x0A => tile || eng
  | 0x0B => tile
  | 0x0C => any
  | 0x0D => oe || mac
  | _ => false

/-- Counter `k` has risen to its threshold `th` (R519). -/
def Block.perfCross (b : Block) (k count th : Nat) (trig : Bool) : Block :=
  let b := b.rset .PERF_STATUS_CROSSED 0 (setBit (b.rget .PERF_STATUS_CROSSED) k)
  let b := b.raiseEvent 6
  let b := b.traceRec 0x080 6 5 15 k count th
  if trig then b.trigger 4 else b

/-- `n` events of code `event` from `source`, done for context `ctx` (R516, R517); `sub` is the direction of event
0x0D. A counter that rises to its threshold sets CROSSED, raises event 6, writes a PERF record and, with TRIG,
makes a trigger (R519). -/
def Block.perf (b : Block) (source event sub ctx n : Nat) : Block :=
  if n = 0 then b
  else
    (b.listed .PERF_SEL).foldl (fun b kv =>
      let k := kv.1
      let sel := kv.2
      if bitAt sel 31 && decide (bits sel 0 10 = source) && decide (bits sel 12 6 = event) && perfListed source event
          && (!bitAt sel 24 || decide (bits sel 20 4 = ctx)) && (decide (event ≠ 0x0D) || decide (bits sel 18 1 = sub)) then
        let old := b.rget .PERF_CTR_COUNT k
        let th := b.rget .PERF_THRESH_THRESH k
        let b := b.count .PERF_CTR_COUNT k n
        if th ≠ 0 ∧ old < th ∧ th ≤ old + n then b.perfCross k (old + n) th (bitAt sel 25) else b
      else b) b

/-! ### The error log -/

/-- What an error-log entry says, beside its SEQ (R502). `time` is the detection's tick when it differs from the
tick of writing. -/
structure ErrIn where
  source : Nat
  cls : Nat
  outcome : Nat
  status : Nat := 0
  ctx : Nat := 0xFF
  cmd : Option (Nat × Nat) := none
  mpa : Bool := false
  tag : Nat := 0
  addr : Nat := 0
  interruptNs : Nat := 0
  unit : Nat := 0
  time : Option Nat := none
  deriving DecidableEq, Repr

/-- An entry of the error log that nothing has written. -/
def ErrEntry.blank : ErrEntry := ⟨0, 0, 0, 0, 0, 0, 0, 0, 0, 0, 0, 0, 0, 0⟩

/-- The error-log entry of number `seq` that says `e` (R502). -/
def Block.errEntry (b : Block) (seq : Nat) (e : ErrIn) : ErrEntry :=
  { seq := seq, source := e.source, cls := e.cls, outcome := e.outcome, time := e.time.getD b.now,
    status := e.status, ctx := e.ctx,
    flags := b2n e.cmd.isSome + 2 * b2n e.mpa,
    ring := (e.cmd.getD (0, 0)).1, cmdSeq := (e.cmd.getD (0, 0)).2, tag := e.tag, addr := e.addr,
    interruptNs := min 0xFFFFFFFF e.interruptNs, unit := e.unit }

/-- The next entry is written over the oldest (R503); one that the host has not consumed counts as lost and raises event 2. -/
def Block.errStore (b : Block) (e : ErrIn) : Block :=
  let seq := b.rget .OSTLER_ERRLOG_STATUS_WRITTEN
  let old := Sparse.get (always ErrEntry.blank) b.errlog (seq % 4096)
  let b' := { b with errlog := Sparse.set (always ErrEntry.blank) b.errlog (seq % 4096) (b.errEntry seq e) }
  let b' := b'.rset .OSTLER_ERRLOG_STATUS_WRITTEN 0 (seq + 1)
  if old ≠ ErrEntry.blank ∧ !precedes 32 old.seq (b.rget .OSTLER_ERRLOG_CONSUMED_CONSUMED) then
    (b'.countSat .OSTLER_ERRLOG_STATUS_OVERFLOW 0 1).raiseEvent 2
  else b'

/-- Writes an error-log entry (R502, R503), with its ERRLOG trace record and its trigger (R526, R530); escalations at the
command and step level are counted by their entries. -/
def Block.errLog (b : Block) (e : ErrIn) : Block :=
  let b' := (b.errStore e).raiseEvent 1
  let b' := b'.count .OSTLER_RETURNED_COUNT 0 (b2n (e.outcome = 1))
  let b' := b'.count .OSTLER_STEP_RESTARTS_COUNT 0 (b2n (e.outcome = 2))
  let b' := b'.traceRec e.source 3 2 (if e.ctx = 0xFF then 15 else e.ctx) (b.rget .OSTLER_ERRLOG_STATUS_WRITTEN)
    (e.cls + 256 * e.outcome) e.addr
  let m := b.rget .TRACE_TRIG_CFG_MIN_OUTCOME
  if m ≠ 0 ∧ m ≤ e.outcome then b'.trigger 3 else b'

/-- An entry of a fault that reaches a command, and the further entry of its escalation to the checkpoint level when a
guarded line is lost (R499, R502). -/
def Block.lostEntry (b : Block) (e : ErrIn) (guarded : Bool) : Block :=
  let b := b.errLog { e with outcome := 1 }
  if guarded then b.errLog { e with outcome := 3 } else b

/-- An access error (class 0x20). -/
def Block.accessError (b : Block) (source : Nat) (cmd : Option (Nat × Nat)) (status addr : Nat) (ctx : Nat := 0xFF) : Block :=
  b.errLog { source := source, cls := 0x20, outcome := 5, status := status, cmd := cmd, addr := addr, ctx := ctx }

/-- The longest interruption since the last read (OSTLER_INTERRUPT_MAX_NS, R492). -/
def Block.interruption (b : Block) (ns : Nat) : Block :=
  if b.rget .OSTLER_INTERRUPT_MAX_NS_COUNT < ns then b.rset .OSTLER_INTERRUPT_MAX_NS_COUNT 0 ns else b

/-- An absorbed fault (R492): one entry, OUTCOME 0x00, and its counts. -/
def Block.absorbed (b : Block) (e : ErrIn) : Block :=
  let b := (b.count .OSTLER_ABSORBED_COUNT 0 1).interruption e.interruptNs
  (b.errLog { e with outcome := 0 }).perf e.source 0x0C 0 e.ctx 1

/-! ### Outputs -/

/-- An Ostler core is interrupted. -/
def Block.coreInterrupt (b : Block) (core : Nat) : Block := { b with out := { b.out with coreIrq := b.out.coreIrq ++ [core] } }

/-- The answer to a host or peer read leaves the module; 64-byte units count in PERF_HOST_RD. -/
def Block.answer (b : Block) (bs : List Byte) : Block :=
  let b := { b with out := { b.out with reads := b.out.reads ++ [bs] } }
  b.count .PERF_HOST_RD_COUNT 0 (ceilDiv bs.length 64)

/-- ALERT_N follows SB_ALERT and its mask (R553). -/
def Block.alertPin (b : Block) : Block :=
  { b with out := { b.out with alert := decide (b.boot.sbAlert &&& (0x1F - b.boot.sbMask) ≠ 0) } }

/-- A sideband alert bit is set (R553). -/
def Block.sbAlert (b : Block) (bit : Nat) : Block :=
  Block.alertPin { b with boot := { b.boot with sbAlert := setBit b.boot.sbAlert bit } }

/-! ### CAPS changes -/

/-- After the changed fields are written, CAPS_GEN counts the change and event 0 is raised (R24); before READY it
raises nothing (R475). -/
def Block.capsChanged (b : Block) : Block :=
  if b.flag .OSTLER_BOOT_STATUS_READY then (b.count .CAPS_GEN_GEN 0 1).raiseEvent 0 else b

end Sys2Proof.Machine
end

