-- ==== Sys2Proof/Machine/Net.lean ====
section
/-! DEFINITION. The transport's sending side (R435, R439, R440, R453) and the state of peers, links and MACs, shared by every
engine that reaches another rank. -/

namespace Sys2Proof.Machine

/-- The transport state of a peer rank. -/
def Block.peer (b : Block) (r : Nat) : Peer := Sparse.get (always Peer.init) b.net.peers r

/-- The transport state of a peer rank replaced. -/
def Block.setPeer (b : Block) (r : Nat) (p : Peer) : Block :=
  { b with net := { b.net with peers := Sparse.set (always Peer.init) b.net.peers r p } }

/-- A link's state. -/
def Block.link (b : Block) (n : Nat) : LinkSt := Sparse.get (always LinkSt.init) b.net.links n

/-- A link's state replaced. -/
def Block.setLink (b : Block) (n : Nat) (x : LinkSt) : Block :=
  { b with net := { b.net with links := Sparse.set (always LinkSt.init) b.net.links n x } }

/-- A MAC's state. -/
def Block.mac (b : Block) (n : Nat) : Mac := Sparse.get (always Mac.init) b.net.macs n

/-- A MAC's state changed. -/
def Block.onMac (b : Block) (n : Nat) (f : Mac → Mac) : Block :=
  { b with net := { b.net with macs := Sparse.set (always Mac.init) b.net.macs n (f (b.mac n)) } }

/-- This module's fabric rank. -/
def Block.rank (b : Block) : Nat := b.rget .HOKUKE_STATUS_RANK

/-- Whether engine `n` has an Ethernet role (R422). -/
def Block.ethRole (b : Block) (n : Nat) : Bool := decide (b.rget .CAPS_OE_ROLE n ≠ 0)

/-- Whether engine `n` can carry a packet (R435, R437): present, and its link ACTIVE, DEGRADED or in a HOLD that has
not ended, or an Ethernet role with a link up. -/
def Block.portUp (b : Block) (n : Nat) : Bool :=
  b.flag .CAPS_OE_PRESENT n && !b.net.silent &&
    (if b.ethRole n then b.flag .MAC_STATUS_LINK (2 * n) || b.flag .MAC_STATUS_LINK (2 * n + 1)
    else
      let st := b.rget .OE_STATUS_STATE n
      decide (st = 2 ∨ st = 3 ∨ st = 4))

/-- The choice of R435 for rank `r`: which of its four ports, and the port (0xE for local delivery). -/
def Block.portChoice (b : Block) (r : Nat) : Option (Nat × Nat) :=
  let e := b.rget .HOKUKE_ROUTE_ENTRY r
  if bitAt e 20 then
    ((List.range 4).map (fun k => (k, bits e (4 * k) 4))).find? (fun p => decide (p.2 = 14) || (decide (p.2 < 8) && b.portUp p.2))
  else none

/-- The peer entry of a route (R453); none where it makes the destination unreachable. -/
def Block.peerEntry (b : Block) (r : Nat) : Option Nat :=
  let i := bits (b.rget .HOKUKE_ROUTE_ENTRY r) 32 16
  if i < 4096 ∧ b.flag .HOKUKE_PEER_VALID i then some i else none

/-- The MAC by which a packet for rank `r` leaves engine `n` (HOKUKE_PEER.SECOND). -/
def Block.macFor (b : Block) (n i : Nat) : Nat :=
  2 * n + (if b.rget .CAPS_OE_ROLE n = 2 ∧ b.flag .HOKUKE_PEER_SECOND i then 1 else 0)

/-- The port by which a packet for rank `r` leaves, 0xE for local delivery; none where it is unreachable (R435, R453). An
Ethernet port carries no transport packet while the rank is not valid (R535). -/
def Block.portFor (b : Block) (r : Nat) : Option Nat :=
  match b.portChoice r with
  | some (_, p) =>
    if p < 8 ∧ b.ethRole p ∧ ((b.peerEntry r).isNone ∨ !b.flag .HOKUKE_STATUS_RANK_VALID) then none else some p
  | none => none

/-- Whether rank `r` can be reached. -/
def Block.reachable (b : Block) (r : Nat) : Bool := (b.portFor r).isSome

/-- The MAC by which a message for rank `r` leaves, when its port has an Ethernet role. -/
def Block.macTo (b : Block) (r : Nat) : Option Nat :=
  match b.portFor r, b.peerEntry r with
  | some p, some i => if p < 8 ∧ b.ethRole p then some (b.macFor p i) else none
  | _, _ => none

/-- The payload bytes of a packet for rank `r`: 4 KiB on the fabric (chapter 15), SEG_PAYLOAD over UDP (R455). -/
def Block.payTo (b : Block) (r : Nat) : Nat :=
  match b.macTo r with
  | some m => 64 * b.rget .MAC_L3_CFG_SEG_PAYLOAD m
  | none => 4096

/-- The packets of a message of `n` payload bytes. -/
def packetsOf (n pay : Nat) : Nat := max 1 (ceilDiv n pay)

/-- The payload bytes of packet `i` of a message. -/
def packetLen (m : Msg) (pay i : Nat) : Nat := min pay (m.body.length - i * pay)

/-- The flits of a packet: each carries up to 240 bytes of the payload with its 32-byte header. -/
def flitsOf (n : Nat) : Nat := ceilDiv (n + 32) 240

/-- Flits leave by an optical engine: SEQ, replay buffer, OE_FLITS_TX (R428). -/
def Block.putFlits (b : Block) (port : Nat) (owners : List (Option (Nat × Nat))) : Block :=
  let x := b.link port
  let l := (List.range owners.length).map (fun i => HeldFlit.mk ((x.tx + i) % 2 ^ 24) (owners.getD i none))
  let n := owners.length
  let b := b.setLink port { x with tx := (x.tx + n) % 2 ^ 24, replay := x.replay ++ l }
  (b.count .OE_FLITS_TX_COUNT port n).perf (0x60 + port) 0x0D 1 0xFF (ceilDiv (n * 256) 128)

/-- Data flits that wait leave while the link is ACTIVE or DEGRADED and the replay buffer of 16,384 flits has room (R429, R437). -/
def Block.drainFlits (b : Block) (port : Nat) : Block :=
  let x := b.link port
  let st := b.rget .OE_STATUS_STATE port
  if x.waiting ≠ [] ∧ (st = 2 ∨ st = 3) then
    let n := 16384 - x.replay.length
    (b.setLink port { x with waiting := x.waiting.drop n }).putFlits port (x.waiting.take n)
  else b

/-- Data flits are given to an optical engine. -/
def Block.sendFlits (b : Block) (port : Nat) (owners : List (Option (Nat × Nat))) : Block :=
  let x := b.link port
  (b.setLink port { x with waiting := x.waiting ++ owners }).drainFlits port

/-- The flits of the listed packets of a message in flight. -/
def Flight.flits (f : Flight) (ps : List Nat) : List (Option (Nat × Nat)) :=
  ps.flatMap (fun i => List.replicate (flitsOf (packetLen f.out.msg f.pay i)) (some (f.id, i)))

/-- A message for rank `dst` enters the transport (R439): its packets take the next PSNs of the pair; an unreachable
destination ends it (R440), which the answer tells. Over UDP its datagrams leave by TRANSPORT_SEGMENT_SEND. -/
def Block.sendMsg (b : Block) (dst cls ctx : Nat) (m : Msg) (cmd : Option Nat) : Block × Bool :=
  match b.portFor dst with
  | none => (b.count .HOKUKE_UNREACHABLE_COUNT 0 1, false)
  | some port =>
    let o : OutMsg := ⟨dst, cls, ctx, m⟩
    let p := b.peer dst
    let mac := b.macTo dst
    let pay := b.payTo dst
    let n := packetsOf m.body.length pay
    let f : Flight :=
      { id := b.net.nextId, out := o, psn := p.txPsn, count := n, acked := [], sentT := b.clk.t, tries := 0, resent := 0, cmd := cmd,
        refused := false, rnr := none, rnrLast := 0, mac := mac, pay := pay, cut := if mac.isSome then 0 else n, short := none }
    let b := { b with net := { b.net with sent := b.net.sent ++ [o], flights := b.net.flights ++ [f], nextId := b.net.nextId + 1 } }
    let b := b.setPeer dst { p with txPsn := (p.txPsn + n) % 2 ^ 32 }
    if mac.isSome then (b, true)
    else
      let b := b.count .HOKUKE_TX_PACKETS_COUNT 0 n
      (if port < 8 then b.sendFlits port (f.flits (List.range n)) else b, true)

/-- A message that could not leave stays in flight without packets until its end (R440) reaches the engine that issued it. -/
def Block.doom (b : Block) (o : OutMsg) : Block :=
  let f : Flight :=
    { id := b.net.nextId, out := o, psn := 0, count := 0, acked := [], sentT := b.clk.t, tries := 0, resent := 0, cmd := none,
      refused := false, rnr := none, rnrLast := 0, mac := none, pay := 4096, cut := 0, short := none }
  { b with net := { b.net with flights := b.net.flights ++ [f], nextId := b.net.nextId + 1 } }

/-- A message for whose sending no command waits. -/
def Block.tell (b : Block) (dst cls ctx : Nat) (m : Msg) : Block :=
  let r := b.sendMsg dst cls ctx m none
  if r.2 then r.1 else r.1.doom ⟨dst, cls, ctx, m⟩

/-- A message for each of several ranks; whether every one could be sent. -/
def Block.tellAll (b : Block) (dsts : List Nat) (cls ctx : Nat) (m : Msg) (cmd : Option Nat) : Block × Bool :=
  dsts.foldl (fun a d =>
    if cmd.isSome then let r := a.1.sendMsg d cls ctx m cmd; (r.1, a.2 && r.2) else (a.1.tell d cls ctx m, a.2)) (b, true)

end Sys2Proof.Machine
end

