-- ==== Sys2Proof/Machine/Crc.lean ====
section
/-! DEFINITION. Bit-reflected 32-bit cyclic redundancy checks: CRC-32C of stack lines, records and manifests (R201,
R266), and the frame check sequence of Ethernet (R449). -/

namespace Sys2Proof.Machine

/-- `k` shifts of a reflected CRC register with polynomial `poly`. -/
def crcShift (poly : Nat) : Nat → Nat → Nat
  | 0, c => c
  | k + 1, c => crcShift poly k (if c % 2 = 1 then (c / 2) ^^^ poly else c / 2)

/-- A reflected CRC register after the bytes of a list. -/
def crcBytes (poly : Nat) : List Byte → Nat → Nat
  | [], c => c
  | b :: bs, c => crcBytes poly bs (crcShift poly 8 (c ^^^ b.toNat))

/-- CRC-32C (R201): polynomial 0x1EDC6F41 reflected, initial value and final exclusive-or 0xFFFFFFFF. -/
def crc32c (bs : List Byte) : Nat := crcBytes 0x82F63B78 bs 0xFFFFFFFF ^^^ 0xFFFFFFFF

/-- The IEEE 802.3 frame check sequence. -/
def crc32 (bs : List Byte) : Nat := crcBytes 0xEDB88320 bs 0xFFFFFFFF ^^^ 0xFFFFFFFF

end Sys2Proof.Machine
end

