-- ==== Sys2Proof/Machine/Stack.lean ====
section
/-! DEFINITION. Stack memory: frames and slots (R196 to R202), check sectors (R204), capacity (R207), frame classes
(R208), lost lines (R216, R555) and map-out (R219, R220). -/

namespace Sys2Proof.Machine

/-- Bytes of a physical page. -/
def pageBytes : Nat := 2097152

/-- The slots of one pseudo-channel (R226). -/
def slotsPerPc : Nat := 9142272

/-- Whether pseudo-channel set `u` of stack `s` works (R197). -/
def Block.pcWorks (b : Block) (s u : Nat) : Bool := bitAt (b.rget .CAPS_CHANNEL_MASK_PSEUDO s) u

/-- The stacks whose pseudo-channel `u` works, as a mask. -/
def Block.setMask (b : Block) (u : Nat) : Nat :=
  (List.range 8).foldl (fun m s => if b.pcWorks s u then m + 2 ^ s else m) 0

/-- A frame's entry. -/
def Block.frame (b : Block) (f : Nat) : Frame := Sparse.get (always ⟨false, none⟩) b.mem.frames f

/-- A frame's entry replaced. -/
def Block.setFrame (b : Block) (f : Nat) (x : Frame) : Block :=
  { b with mem := { b.mem with frames := Sparse.set (always ⟨false, none⟩) b.mem.frames f x } }

/-- The stacks of a frame's layout, ascending: those that worked when its pages were mapped, or that work now for a
frame without mapped pages (R197, R220). -/
def Block.layout (b : Block) (f : Nat) : List Nat := setPositions 8 ((b.frame f).layout.getD (b.setMask (f % 32)))

/-- How many pages a frame holds (R198). -/
def Block.framePages (b : Block) (f : Nat) : Nat :=
  (b.layout f).length - (if (b.frame f).guarded then 1 else 0)

/-- A slot of the stacks: stack, pseudo-channel set, slot index in the pseudo-channel (R199). -/
structure Slot where
  s : Nat
  u : Nat
  z : Nat
  deriving DecidableEq, Repr

/-- Where a line lies (R199): its slot, its parity slot when the frame is guarded, its stripe. -/
structure Place where
  slot : Slot
  parity : Option Slot
  frame : Nat
  stripe : Nat
  deriving DecidableEq, Repr

/-- R199, from an MPA to its slot; none where no such page exists (R198). -/
def Block.place (b : Block) (mpa : Nat) : Option Place :=
  let ppn := mpa / pageBytes
  let f := ppn / 8
  let j := ppn % 8
  let u := f % 32
  let k := f / 32
  let p := b.layout f
  let w := p.length
  let g := (b.frame f).guarded
  let d := if g then w - 1 else w
  if 17856 ≤ f ∨ d ≤ j then none
  else
    let n := j * 16384 + mpa % pageBytes / 128
    let t := n / d
    let x := n % d
    let z := k * 16384 + t
    if g then
      let ps := p.getD (t % w) 0
      some ⟨⟨(p.filter (fun s => !decide (s = ps))).getD x 0, u, z⟩, some ⟨ps, u, z⟩, f, t⟩
    else some ⟨⟨p.getD x 0, u, z⟩, none, f, t⟩

/-- The slot tag (R202). -/
def Slot.tag (q : Slot) : Nat :=
  let v := q.z / 31
  q.s + q.u / 2 * 2 ^ 3 + q.u % 2 * 2 ^ 7 + v % 48 * 2 ^ 8 + v / 48 * 2 ^ 14 + q.z % 31 * 2 ^ 27

/-- The DRAM row of a slot: its tag with i = 0. -/
def Slot.row (q : Slot) : Nat := q.tag % 2 ^ 27

/-- The bank of a DRAM row tag. -/
def bankOf (row : Nat) : Nat := row % 2 ^ 14

/-- The CRC word of a line with its slot tag (R201). -/
def lineCrc (bs : List Byte) (tag : Nat) : Nat := crc32c (bs ++ bytesOf 4 tag)

/-- The key of a slot among resident lines: stack and slot index σ (R226). -/
def Slot.key (q : Slot) : Nat := q.s * 2 ^ 32 + (q.u * slotsPerPc + q.z)

/-- The 128 bytes of MPA line `l`: their current values (R212). -/
def Block.lineBytes (b : Block) (l : Nat) : List Byte := b.mem.bytes.readBytes (l * 128) 128

/-- The data lines of a guarded stripe, as MPA line numbers (R199 read backwards). -/
def stripeLines (b : Block) (f t : Nat) : List Nat :=
  let d := b.framePages f
  (List.range d).map (fun x =>
    let n := t * d + x
    (f * 8 + n / 16384) * 16384 + n % 16384)

/-- The parity of a stripe: the exclusive-or of the current values of its data lines (R209, R212). -/
def Block.parityOf (b : Block) (f t : Nat) : List Byte :=
  (stripeLines b f t).foldl (fun acc l => xorBytes acc (b.lineBytes l)) (List.replicate 128 0)

/-! ### Check sectors and line counters (R203, R204) -/

/-- The identity of the check sector of a slot. -/
def Slot.chk (q : Slot) : Nat := (q.s * 32 + q.u) * 2 ^ 20 + q.z / 31 * 2 + q.z % 31 / 16

/-- A use of a slot's check sector: read from the stack unless buffered, and kept in the stack's buffer of 4,096,
oldest out first (R204). -/
def Block.useChk (b : Block) (q : Slot) : Block :=
  if b.mem.chkBuf.contains q.chk then b
  else
    let b := b.count .STACK_CHK_FETCH_COUNT q.s 1
    let mine := b.mem.chkBuf.filter (fun c => decide (c / 2 ^ 25 = q.s))
    let keep := match mine with
      | old :: _ => if 4096 ≤ mine.length then b.mem.chkBuf.filter (fun c => !decide (c = old)) else b.mem.chkBuf
      | [] => b.mem.chkBuf
    { b with mem := { b.mem with chkBuf := keep ++ [q.chk] } }

/-- A line read from its stack (R203). -/
def Block.stackRead (b : Block) (q : Slot) : Block :=
  ((b.count .STACK_RD_LINES_COUNT q.s 1).perf (0x40 + q.s) 0x07 0 0xFF 1).useChk q

/-- A line written to its stack (R204, R205). -/
def Block.stackWrite (b : Block) (q : Slot) : Block :=
  ((b.count .STACK_WR_LINES_COUNT q.s 1).perf (0x40 + q.s) 0x08 0 0xFF 1).useChk q

/-! ### Lines that the stacks cannot give -/

/-- Whether the slot's place in its stack can be read or written at all: its pseudo-channel works and its DRAM row has
not failed (R220, R223). -/
def Block.slotUsable (b : Block) (q : Slot) : Bool := b.pcWorks q.s q.u && !b.mem.failedRows.contains q.row

/-- Whether line `l` is lost in its stack slot (R216, R555). -/
def Block.lineLost (b : Block) (l : Nat) : Bool := b.mem.lost.contains l

/-- Whether data line `l` has a copy in the Vat, which is then its current value (R212). -/
def Block.inVat (b : Block) (l : Nat) : Bool := b.mem.vat.any (fun p => p.2.valid && !p.2.parity && decide (p.2.line = l))

/-- Line `l` is lost: its slot holds zeros under a word that never matches (R555); an older value is gone. A copy in the Vat
keeps its value (R212). -/
def Block.loseLine (b : Block) (l : Nat) : Block :=
  { b with mem := { b.mem with
      lost := if b.mem.lost.contains l then b.mem.lost else b.mem.lost ++ [l]
      bytes := if b.inVat l then b.mem.bytes else b.mem.bytes.clear (l * 128) 128
      stackCopy := Sparse.del b.mem.stackCopy l } }

/-- Line `l` is valid again (R216). -/
def Block.reviveLine (b : Block) (l : Nat) : Block :=
  { b with mem := { b.mem with lost := b.mem.lost.filter (fun x => !decide (x = l)) } }

/-! ### Pages and classes -/

/-- Page `ppn` holds zeros, with no line lost and no older stack copy (R208, R244). -/
def Block.zeroPage (b : Block) (ppn : Nat) : Block :=
  { b with mem := { b.mem with
      bytes := b.mem.bytes.clear (ppn * pageBytes) pageBytes
      lost := b.mem.lost.filter (fun l => !decide (l / 16384 = ppn))
      stackCopy := b.mem.stackCopy.filter (fun p => !decide (p.1 / 16384 = ppn)) } }

/-- The class bit of frame `f` as REAM_FRAME_CLASS reports it in every stack (R208). -/
def Block.reportClass (b : Block) (f : Nat) (g : Bool) : Block :=
  (List.range 8).foldl (fun b n =>
    let i := n * 279 + f / 64
    let w := b.rget .REAM_FRAME_CLASS_GUARDED i
    b.rset .REAM_FRAME_CLASS_GUARDED i (if g then setBit w (f % 64) else clearBit w (f % 64))) b

/-- The frame takes a class while none of its pages is mapped, and its lines read as zero (R208). -/
def Block.setClass (b : Block) (f : Nat) (g : Bool) : Block :=
  let b := if (b.frame f).guarded = g then b else
    (List.range 8).foldl (fun b j => b.zeroPage (f * 8 + j)) ((b.setFrame f ⟨g, none⟩).reportClass f g)
  b.setFrame f ⟨g, some (b.setMask (f % 32))⟩

/-! ### Capacity (R207) -/

/-- The bytes of every frame under the working pseudo-channels, less retired pages. -/
def Block.checkedBytes (b : Block) : Nat :=
  (List.range 32).foldl (fun n u => n + 558 * popcount 8 (b.setMask u) * pageBytes) 0 - b.mem.retired.length * pageBytes

/-- The raw bytes of the working pseudo-channels: 1.125 GiB each. -/
def Block.rawBytes (b : Block) : Nat :=
  (List.range 32).foldl (fun n u => n + popcount 8 (b.setMask u) * 1207959552) 0

/-- The capacities as CAPS reports them (R207). -/
def Block.setCapacity (b : Block) : Block :=
  let c := b.checkedBytes
  ((b.rset .CAPS_MEM_RAW_BYTES 0 b.rawBytes).rset .CAPS_MEM_CHECKED_BYTES 0 c).rset .CAPS_MEM_ADDR_BYTES 0 (c - 1073741824)

/-- An entry of the ring of 32 repair events of stack `s` (STACK_PPR_LOG); the number of events so far is the
count kept in `pprNext`. -/
def Block.pprLog (b : Block) (s tag kind n : Nat) : Block :=
  let e := Sparse.get (always 0) b.mem.pprNext s
  let i := s * 32 + e % 32
  let b := ((b.rset .STACK_PPR_LOG_TAG i tag).rset .STACK_PPR_LOG_KIND i kind).rset .STACK_PPR_LOG_COUNT i (min 31 n)
  { b with mem := { b.mem with pprNext := Sparse.set (always 0) b.mem.pprNext s (e + 1) } }

end Sys2Proof.Machine
end

