-- ==== Sys2Proof/Machine/Vat.lean ====
section
/-! DEFINITION. The Vat: home slices and sets (R226), the outcome of an access by hint and state (R228 to R230),
KEEP quotas (R231 to R234), write-back (R235), parity deltas (R210), fills and what a fill cannot give (R213 to R216,
R220, R223). -/

namespace Sys2Proof.Machine

/-- Whether slice `sl` of the module works. -/
def Block.sliceWorks (b : Block) (sl : Nat) : Bool :=
  bitAt (b.rget (if sl < 64 then .VAT_SLICE_MASK_LO_SLICE else .VAT_SLICE_MASK_HI_SLICE)) (sl % 64)

/-- The home slice of slot key `k` (R226): slice 16n + j of group n. -/
def Block.homeSlice (b : Block) (k : Nat) : Nat :=
  let s := k / 2 ^ 32
  let g := k % 2 ^ 32
  let h := (g ^^^ (g / 2 ^ 11) ^^^ (g / 2 ^ 22)) % 16
  let j := ((List.range 16).find? (fun i => b.sliceWorks (16 * s + (h + i) % 16))).getD 0
  16 * s + (h + j) % 16

/-- The set of slot key `k` (R226). -/
def vatSet (k : Nat) : Nat := k % 2 ^ 32 / 16 % 2048

/-- The resident line with slot key `k`. -/
def Block.vline (b : Block) (k : Nat) : VatLine := Sparse.get (always VatLine.none) b.mem.vat k

/-- The keys of the resident lines in the set of `k`. -/
def Block.ways (b : Block) (k : Nat) : List Nat :=
  (b.mem.vat.filter (fun p => p.2.valid && decide (p.1 / 2 ^ 32 = k / 2 ^ 32) && decide (vatSet p.1 = vatSet k)
    && decide (b.homeSlice p.1 = b.homeSlice k))).map (fun p => p.1)

/-- The line with key `k` becomes `x`; VAT_KEEP_LINES follows the KEEP marks. -/
def Block.setLine (b : Block) (k : Nat) (x : VatLine) : Block :=
  let old := b.vline k
  let b := match old.keep with
    | some c => b.rset .VAT_KEEP_LINES_LINES c (b.rget .VAT_KEEP_LINES_LINES c - 1)
    | none => b
  let b := match x.keep with
    | some c => b.count .VAT_KEEP_LINES_LINES c 1
    | none => b
  { b with mem := { b.mem with vat := Sparse.set (always VatLine.none) b.mem.vat k x } }

/-- The line leaves the Vat. -/
def Block.dropLine (b : Block) (k : Nat) : Block := b.setLine k VatLine.none

/-- The slot of a key. -/
def slotOfKey (k : Nat) : Slot := ⟨k / 2 ^ 32, k % 2 ^ 32 / slotsPerPc, k % 2 ^ 32 % slotsPerPc⟩

/-- Whether the frame of MPA line `l` is guarded. -/
def Block.guardedLine (b : Block) (l : Nat) : Bool := (b.frame (l / 131072)).guarded

/-- Who makes an access: its source number and context, and the ring, sequence number and flight number of its command,
for the error log (R502) and the cut list (R51). -/
structure Who where
  src : Nat
  ctx : Nat
  cmd : Option (Nat × Nat) := none
  id : Option Nat := none
  deriving DecidableEq, Repr

/-- An entry of class 0x09 for a line of a stack that reaches the command (R216). -/
def Block.lineErr (b : Block) (w : Who) (l : Nat) (q : Slot) (guarded : Bool) : Block :=
  (b.lostEntry { source := 0x40 + q.s, cls := 0x09, outcome := 1, status := 0x0300, ctx := w.ctx, cmd := w.cmd,
                 mpa := true, tag := q.tag, addr := l * 128, unit := b2n guarded } guarded).perf (0x40 + q.s) 0x0C 0 w.ctx 1

/-- A dirty line is written to its stack (R235). A guarded line whose slot is unusable is dropped: the parity holds
its value (R220, R223); a scratch line there is lost. -/
def Block.writeBack (b : Block) (k : Nat) : Block :=
  let x := b.vline k
  if x.valid && x.dirty then
    let q := slotOfKey k
    let b := b.setLine k { x with dirty := false }
    if b.slotUsable q then
      let b := (b.count .VAT_WRITEBACKS_COUNT q.s 1).stackWrite q
      if x.parity then b
      else
        let b := b.reviveLine x.line
        { b with mem := { b.mem with stackCopy := Sparse.del b.mem.stackCopy x.line } }
    else if x.parity then b
    else if b.guardedLine x.line then b.reviveLine x.line
    else b.loseLine x.line
  else b

/-- Discard at use count 0 (R230). -/
def Block.discard (b : Block) (k : Nat) : Block :=
  let x := b.vline k
  let b := b.count .VAT_LAST_DISCARDS_COUNT (k / 2 ^ 32) 1
  if x.dirty && b.guardedLine x.line then (b.writeBack k).dropLine k
  else
    let old := Sparse.get (always []) b.mem.stackCopy x.line
    let b := if x.dirty ∧ old ≠ [] then
        { b with mem := { b.mem with bytes := b.mem.bytes.writeBytes (x.line * 128) old
                                     stackCopy := Sparse.del b.mem.stackCopy x.line } }
      else b
    b.dropLine k

/-- A way of the set of `k` is free, replacing a line without a KEEP mark if all 16 are taken (R234). -/
def Block.makeRoom (b : Block) (k : Nat) : Block :=
  let ws := b.ways k
  if ws.length < 16 then b
  else
    let open_ := ws.filter (fun w => decide ((b.vline w).keep = none))
    let u := b.use
    let v := open_.getD (Config.victim u.1 open_.length % max 1 open_.length) 0
    ((u.2.count .VAT_EVICTIONS_COUNT (k / 2 ^ 32) 1).writeBack v).dropLine v

/-- A line comes into the Vat. -/
def Block.allocLine (b : Block) (k : Nat) (l : Nat) (parity : Bool) : Block :=
  let b := b.makeRoom k
  let b := { b with mem := { b.mem with stamp := b.mem.stamp + 1 } }
  b.setLine k ⟨true, l, parity, false, none, none, b.mem.stamp⟩

/-- The line was used. -/
def Block.touch (b : Block) (k : Nat) : Block :=
  let b := { b with mem := { b.mem with stamp := b.mem.stamp + 1 } }
  b.setLine k { b.vline k with stamp := b.mem.stamp }

/-- Whether a line of a guarded stripe can be rebuilt from the others (R214, R215): no other slot is mapped out, and
every other line is resident or readable. -/
def Block.rebuildable (b : Block) (pl : Place) (l : Nat) : Bool :=
  match pl.parity with
  | none => false
  | some ps =>
    (stripeLines b pl.frame pl.stripe).all (fun m =>
      decide (m = l) ||
      match b.place (m * 128) with
      | none => false
      | some pm => b.pcWorks pm.slot.s pm.slot.u &&
          ((b.vline pm.slot.key).valid || (b.slotUsable pm.slot && !b.lineLost m)))
    && b.pcWorks ps.s ps.u && ((b.vline ps.key).valid || b.slotUsable ps)

/-- A line rebuilt from its stripe: the peers are read, and the reconstruction counted (R214). -/
def Block.rebuildLine (b : Block) (pl : Place) (l : Nat) : Block :=
  let ps := pl.parity.getD pl.slot
  let b := (stripeLines b pl.frame pl.stripe).foldl (fun b m =>
    match b.place (m * 128) with
    | some pm => if m = l ∨ (b.vline pm.slot.key).valid then b else b.stackRead pm.slot
    | none => b) b
  let b := if (b.vline ps.key).valid then b else b.stackRead ps
  (b.count .STACK_RECON_COUNT pl.slot.s 1).count .REAM_RECON_COUNT ps.s 1

/-- A read of a line from its stack (R203, R213, R216, R220, R223): the block after it, and whether the line came. A
lost line fails its check again, with its re-reads. -/
def Block.fill (b : Block) (w : Who) (pl : Place) (l : Nat) : Block × Bool :=
  let q := pl.slot
  let guarded := pl.parity.isSome
  if b.lineLost l then
    let n := 1 + b.rget .STACK_CFG_REREADS q.s
    let b := (b.stackRead q).count .STACK_RD_LINES_COUNT q.s (n - 1)
    let b := (b.count .STACK_CRC_MISMATCH_COUNT q.s n).count .STACK_LOST_COUNT q.s 1
    let b := match pl.parity with
      | some ps => b.count .REAM_DOUBLE_COUNT ps.s 1
      | none => b
    (b.lineErr w l q guarded, false)
  else if b.slotUsable q then (b.stackRead q, true)
  else if b.rebuildable pl l then (b.rebuildLine pl l, true)
  else
    let b := (b.loseLine l).count .STACK_LOST_COUNT q.s 1
    let b := match pl.parity with
      | some ps => b.count .REAM_DOUBLE_COUNT ps.s 1
      | none => b
    (b.lineErr w l q guarded, false)

/-- The parity line of a stripe is rebuilt from its data lines (R554): those that cannot be read are lost and count as
zero. -/
def Block.rebuildParity (b : Block) (pl : Place) : Block :=
  match pl.parity with
  | none => b
  | some ps =>
    let b := (stripeLines b pl.frame pl.stripe).foldl (fun b l =>
      match b.place (l * 128) with
      | some pm =>
        if (b.vline pm.slot.key).valid then b
        else if b.lineLost l then b
        else if b.slotUsable pm.slot then b.stackRead pm.slot
        else (b.loseLine l).count .STACK_LOST_COUNT pm.slot.s 1
      | none => b) b
    if (b.vline ps.key).valid then b else if b.slotUsable ps then b.stackWrite ps else b

/-- A parity delta is applied at the parity slice, which allocates the parity line if it is absent (R210). -/
def Block.delta (b : Block) (pl : Place) : Block :=
  match pl.parity with
  | none => b
  | some ps =>
    let k := ps.key
    let b := b.count .REAM_DELTAS_COUNT ps.s 1
    let first := (stripeLines b pl.frame pl.stripe).headD 0
    let b := if (b.vline k).valid then b.count .VAT_HITS_COUNT ps.s 1
      else
        let b := b.count .VAT_MISSES_COUNT ps.s 1
        let b := if b.slotUsable ps then b.stackRead ps else b
        b.allocLine k first true
    let b := b.touch k
    b.setLine k { b.vline k with dirty := true }

/-- The older copy that the stack keeps of a scratch line about to become dirty (R230). -/
def Block.keepOld (b : Block) (l : Nat) : Block :=
  if b.guardedLine l ∨ Sparse.get (always []) b.mem.stackCopy l ≠ [] then b
  else { b with mem := { b.mem with stackCopy := Sparse.set (always []) b.mem.stackCopy l (b.lineBytes l) } }

/-- KEEP on the resident line with key `k` (R231, R232). -/
def Block.keepRule (b : Block) (k ctx : Nat) : Block :=
  let x := b.vline k
  match x.keep with
  | some _ => b
  | none =>
    let ws := b.ways k
    let mine := (ws.filter (fun w => decide ((b.vline w).keep = some ctx))).length
    let all := (ws.filter (fun w => decide ((b.vline w).keep ≠ none))).length
    if b.rget .VAT_KEEP_QUOTA_WAYS ctx ≤ mine ∨ 12 ≤ all then b.count .VAT_KEEP_DENIED_COUNT (k / 2 ^ 32) 1
    else b.setLine k { x with keep := some ctx }

/-- A request at a home slice. -/
structure VReq where
  hint : Nat
  uses : Nat
  ctx : Nat
  write : Bool
  whole : Bool
  atomic : Bool
  deriving DecidableEq, Repr

/-- What follows once the access has been served (R228, R229): nothing, a write-back, a write-back and invalidation,
or a discard. -/
inductive Post where
  | none | back | backDrop | discard
  deriving DecidableEq, Repr

/-- The hint that governs an access (R228): STREAM is NORMAL on an atomic. -/
def VReq.hintOf (r : VReq) : Nat := if r.atomic && decide (r.hint = 1) then 0 else r.hint

/-- The use-count rule on the resident line with key `k` (R229). -/
def Block.lastRule (b : Block) (k uses : Nat) : Block × Post :=
  let x := b.vline k
  let n := match x.uses with
    | some n => n - 1
    | none => uses - 1
  (b.setLine k { x with uses := some n }, if n = 0 then .discard else .none)

/-- The hint's effect on the resident line with key `k`. -/
def Block.hintRule (b : Block) (k : Nat) (r : VReq) : Block × Post :=
  if r.hintOf = 2 then ((b.touch k).keepRule k r.ctx, .none)
  else if r.hintOf = 3 then (b.touch k).lastRule k r.uses
  else if r.hintOf = 1 then (b, if r.write then .back else .none)
  else (b.touch k, .none)

/-- An access of line `l` at its home slice before its bytes move (R228): the block, what follows, and whether the
line could be served (a fill that fails serves nothing, but for a whole-line write, before which the stripe's parity is rebuilt:
R216, R554, R558). -/
def Block.vatBegin (b : Block) (w : Who) (pl : Place) (l : Nat) (r : VReq) : Block × Post × Bool :=
  let k := pl.slot.key
  let guarded := pl.parity.isSome
  let needsFill := !r.write || guarded || !r.whole || r.atomic
  let b := b.perf (0x48 + pl.slot.s) (if r.write then 0x08 else 0x07) 0 r.ctx 1
  let started : Block × Post × Bool :=
    if (b.vline k).valid then
      let b := b.count .VAT_HITS_COUNT pl.slot.s 1
      let h := b.hintRule k r
      (h.1, h.2, true)
    else
      let b := b.count .VAT_MISSES_COUNT pl.slot.s 1
      let f := if needsFill then b.fill w pl l else (b, true)
      if !f.2 && !(r.write && r.whole && !r.atomic) then (f.1, .none, false)
      else if r.hintOf = 1 && !r.write then (f.1, .none, true)
      else
        let b := (if f.2 then f.1 else f.1.rebuildParity pl).allocLine k l false
        if r.hintOf = 1 then (b, .backDrop, true)
        else
          let h := b.hintRule k r
          (h.1, h.2, true)
  if started.2.2 && r.write then
    let b := started.1.keepOld l
    let b := b.delta pl
    (b.setLine k { b.vline k with dirty := true }, started.2.1, true)
  else started

/-- What follows the access. -/
def Block.vatEnd (b : Block) (k : Nat) : Post → Block
  | .none => b
  | .back => b.writeBack k
  | .backDrop => (b.writeBack k).dropLine k
  | .discard => b.discard k

/-- The Hitch back-invalidates the host's copy of a line before a module write into it (R34). -/
def Block.backInval (b : Block) (l : Nat) : Block :=
  { b with hitch := { b.hitch with snoop := b.hitch.snoop.filter (fun x => !decide (x / 2 = l)) } }

/-- Every resident line of page `ppn` leaves the Vat without write-back (R261); parity lines stay. -/
def Block.dropPage (b : Block) (ppn : Nat) : Block :=
  (b.mem.vat.filter (fun p => p.2.valid && !p.2.parity && decide (p.2.line / 16384 = ppn))).foldl
    (fun b p => b.dropLine p.1) b

end Sys2Proof.Machine
end

