-- ==== Sys2Proof/Machine/Drover.lean ====
section
/-! DEFINITION. Translation (R242, R246 to R248, R258) and the accesses of every unit: local memory through the Vat,
memory of neighbours and host memory (R249 to R251, R254), atomics (R236 to R239, R250). An access is an action: it
changes the block and either answers or ends with an `AccErr`. -/

namespace Sys2Proof.Machine

/-- How an access ends that is not served. -/
inductive AccErr where
  /-- no mapping, or no permission to write (R242, R247), with the address -/
  | unmapped (va : Nat)
  /-- a lost line, with the detail of LOST_DATA (R216, R240) -/
  | lost (detail : Nat)
  /-- a revoked page (R253) -/
  | revoked
  /-- a lower tier failed (1), was late (2), or an atomic outside the local tier (3) (R250, R251) -/
  | tier (detail : Nat)
  /-- a host-tier read during a cut (R251) -/
  | hostCut
  /-- an internal inconsistency (R198) -/
  | internal
  /-- the command ends with a status and detail of its own -/
  | fin (status detail : Nat)
  deriving DecidableEq, Repr

/-- The status and detail that an access error gives its command, with the chapter's status for an unmapped page. -/
def AccErr.status (unm : Nat × Nat) : AccErr → Nat × Nat
  | .unmapped _ => unm
  | .lost d => (0x0300, d)
  | .revoked => (0x0201, 0)
  | .tier d => (0x0200, d)
  | .hostCut => (0x0500, 0)
  | .internal => (0x0FFF, 0)
  | .fin s d => (s, d)

/-- An action on the block. -/
abbrev Act (α : Type) := ExceptT AccErr (StateM Block) α

/-- The outcome of an action at a block. -/
def Act.at {α : Type} (m : Act α) (b : Block) : Except AccErr α × Block := m b

/-- An action that only changes the block. -/
def act (f : Block → Block) : Act Unit := modify f

/-- What an access carries: who makes it, the hint and use count (R227), the translation cache it uses (R246). -/
structure Req where
  who : Who
  hint : Nat := 0
  uses : Nat := 0
  cache : Nat := 10
  deriving DecidableEq, Repr

/-- The key of the leaf entry of a 64 KiB page. -/
def leafKey (ctx va : Nat) : Nat := ctx * 2 ^ 40 + va / 65536

/-- A leaf entry. -/
def Block.leaf (b : Block) (k : Nat) : Leaf := Sparse.get (always Leaf.none) b.drover.leaves k

/-- A leaf entry replaced. -/
def Block.setLeaf (b : Block) (k : Nat) (x : Leaf) : Block :=
  { b with drover := { b.drover with leaves := Sparse.set (always Leaf.none) b.drover.leaves k x } }

/-- The leaf that maps `va`, with its key: that of a small page, or else of the 2 MiB page. -/
def Block.leafAt (b : Block) (ctx va : Nat) : Option (Nat × Leaf) :=
  let k := leafKey ctx va
  let big := leafKey ctx (va / pageBytes * pageBytes)
  if 2 ^ 56 ≤ va then none
  else if (b.leaf k).valid && (b.leaf k).small then some (k, b.leaf k)
  else if (b.leaf big).valid && !(b.leaf big).small then some (big, b.leaf big)
  else none

/-- The sets of a translation cache (R246). -/
def tlbSets (cache : Nat) : Nat := if cache < 8 then 1024 else if cache < 10 then 512 else 2048

/-- A translation looks its page up in a cache; a miss walks the table (R246). -/
def Block.tlbUse (b : Block) (who : Who) (cache key : Nat) : Block :=
  let set := Config.tlbSet cache key % tlbSets cache
  let e : TlbEntry := ⟨cache, set, key⟩
  if b.drover.tlb.contains e then b
  else
    let b := (b.count .DROVER_WALKS_COUNT 0 1).perf who.src 0x0A 0 who.ctx 1
    let mine := b.drover.tlb.filter (fun x => decide (x.cache = cache) && decide (x.set = set))
    let u := b.use
    let keep := match mine[Config.tlbVictim u.1 % 8]? with
      | some v => if 8 ≤ mine.length then b.drover.tlb.filter (fun x => !decide (x = v)) else b.drover.tlb
      | none => b.drover.tlb
    { u.2 with drover := { u.2.drover with tlb := keep ++ [e] } }

/-- Entries of the leaf keys that satisfy `p` leave every translation cache (R248). -/
def Block.tlbInval (b : Block) (p : Nat → Bool) : Block :=
  { b with drover := { b.drover with tlb := b.drover.tlb.filter (fun e => !p e.page) } }

/-- The address of a byte in a neighbour's lend, as the model's lent memory is keyed. -/
def neighbourAddr (rank lend page off : Nat) : Nat := ((rank * 256 + lend) * 2 ^ 18 + page) * pageBytes + off

/-- The borrowed lend slot that holds a neighbour address. -/
def Block.borrowOf (b : Block) (a : Nat) : Option Nat :=
  let q := a / pageBytes / 2 ^ 18
  (List.range 16).find? (fun i => b.flag .DROVER_BORROW_VALID i && decide (b.rget .DROVER_BORROW_RANK i = q / 256) &&
    decide (b.rget .DROVER_BORROW_LEND_ID i = q % 256))

/-- The state of a borrowed lend slot. -/
def Block.borrow (b : Block) (i : Nat) : Borrow := Sparse.get (always Borrow.init) b.drover.borrows i

/-- Where an access lands: an MPA, a neighbour address or a bus address. -/
inductive Target where
  | mpa (a : Nat)
  | neighbour (a : Nat)
  | host (a : Nat)
  deriving DecidableEq, Repr

/-- The object of context `ctx` with number `o`. -/
def Block.obj (b : Block) (ctx o : Nat) : Option Obj :=
  b.drover.objs.find? (fun x => decide (x.ctx = ctx) && decide (x.obj = o))

/-- Every object with that context and number changed by `f`. -/
def Block.updObj (b : Block) (ctx o : Nat) (f : Obj → Obj) : Block :=
  { b with drover := { b.drover with
      objs := b.drover.objs.map (fun x => if x.ctx = ctx ∧ x.obj = o then f x else x) } }

/-- A write into an object that a SNAPSHOT has read tears the snapshot's unit (R267). -/
def Block.noteTorn (b : Block) (ctx o unit : Nat) : Block :=
  { b with drover := { b.drover with snaps := b.drover.snaps.map (fun s =>
      if s.ctx = ctx ∧ s.plain.contains o ∧ !s.torn.contains (o, unit) then
        { s with torn := s.torn ++ [(o, unit)] } else s) } }

/-- The effects of a translation on its object: the age starts again (R256), and a write into a page under migration
marks its 64 KiB block dirty before it is applied (R258). -/
def Block.noteUse (b : Block) (ctx : Nat) (lf : Leaf) (va : Nat) (write : Bool) : Block :=
  let b := match b.obj ctx lf.obj with
    | some o => if write then b.noteTorn ctx lf.obj ((va - o.va) / pageBytes) else b
    | none => b
  b.updObj ctx lf.obj (fun o =>
    let m := if write && lf.mig then
        o.mig.map (fun m =>
          let blk := (va - o.va) / 65536
          { m with dirty := if m.dirty.contains blk then m.dirty else m.dirty ++ [blk] })
      else o.mig
    { o with lastUse := b.clk.t, mig := m })

/-- Translation of an address (R242, R246, R247, R253, R258). -/
def translate (q : Req) (va : Nat) (write : Bool) : Act Target := do
  let b ← get
  match b.leafAt q.who.ctx va with
  | none =>
    act (fun b => b.tlbUse q.who q.cache (leafKey q.who.ctx va))
    throw (.unmapped va)
  | some (k, lf) =>
    act (fun b => b.tlbUse q.who q.cache k)
    if write && !lf.write then throw (.unmapped va)
    else if lf.revoked then throw .revoked
    else
      act (fun b => b.noteUse q.who.ctx lf va write)
      let off := va % (if lf.small then 65536 else pageBytes)
      return match lf.tier with
        | 0 => .mpa (lf.target + off)
        | 1 => .neighbour (lf.target + off)
        | _ => .host (lf.target + off)

/-- A lower-tier access ends (R251). -/
def tierFail (d : Nat) : Act Unit := do
  act (fun b => b.count .DROVER_TIER_FAIL_COUNT 0 1)
  throw (.tier d)

/-- What a TIER_TIMEOUT or a link error has in store for the next lower-tier access of a command (R251): none, no answer
(true), or a failure. It is used once. -/
def tierBad (q : Req) : Act (Option Bool) := do
  let b ← get
  match b.drover.late.find? (fun p => decide (some p.1 = q.who.id)) with
  | some p =>
    act (fun b => { b with drover := { b.drover with late := b.drover.late.filter (fun x => !decide (x.1 = p.1)) } })
    return some p.2
  | none => return none

/-- The time that an access to a lower tier waits for its answer (DROVER_TIMEOUT). -/
def Block.tierWait (b : Block) (tier : Nat) : Nat :=
  (if tier = 1 then b.rget .DROVER_TIMEOUT_NEIGHBOUR_US else b.rget .DROVER_TIMEOUT_HOST_US) * usec

/-- A lower-tier access ends as late or failed (R251). -/
def tierEnd (tier : Nat) (late : Bool) : Act Unit := do
  if late then
    act (fun b => b.advanceTo (b.clk.t + b.tierWait tier))
    tierFail 2
  else tierFail 1

/-- Ends the access if its command's next lower-tier access is not answered. -/
def tierCheck (q : Req) (tier : Nat) : Act Unit := do
  match ← tierBad q with
  | some late => tierEnd tier late
  | none => return ()

/-- An access to a page that does not exist, or to a retired page after its flip (R198). -/
def internalErr (q : Req) (a : Nat) : Act Unit := do
  act (fun b => b.errLog { source := match b.place a with
                                     | some pl => 0x40 + pl.slot.s
                                     | none => 0x050
                           cls := 0x15, outcome := 1, status := 0x0FFF, ctx := q.who.ctx, cmd := q.who.cmd,
                           mpa := true, addr := a })
  throw .internal

/-- Whether the lend behind a neighbour address can be reached (R254). -/
def Block.lendUp (b : Block) (a : Nat) : Bool :=
  match b.borrowOf a with
  | some i => b.reachable (b.rget .DROVER_BORROW_RANK i)
  | none => true

/-- The request at the Vat for an access. -/
def Req.vat (q : Req) (write whole atomic : Bool) : VReq := ⟨q.hint, q.uses, q.who.ctx, write, whole, atomic⟩

/-- A local access of `n` bytes within one line: `f` gives the new bytes from the old ones (none for a read). It
answers the old bytes. -/
def localAccess (q : Req) (a n : Nat) (f : Option (List Byte → List Byte)) (atomic : Bool) : Act (List Byte) := do
  let b ← get
  match b.place a with
  | none => internalErr q a; return []
  | some pl =>
    if b.mem.gone.contains (a / pageBytes) then internalErr q a; return []
    else
      let l := a / 128
      let wr := f.isSome
      let r := b.vatBegin q.who pl l (q.vat wr (decide (n = 128) && !atomic) atomic)
      set r.1
      if !r.2.2 then throw (.lost (if pl.parity.isSome then 0x0011 else 0x0010))
      let old := r.1.mem.bytes.readBytes a n
      match f with
      | none => act (fun b => b.vatEnd pl.slot.key r.2.1)
      | some g =>
        act (fun b =>
          let b := b.backInval l
          let b := { b with mem := { b.mem with bytes := b.mem.bytes.writeBytes a ((g old).take n) } }
          let b := if atomic then b.count .VAT_ATOMICS_COUNT pl.slot.s 1 else b
          b.vatEnd pl.slot.key r.2.1)
      return old

/-- The source number of the engine that executes an opcode (R21): a tile's for class 0x01; class 0x08, for which the
table has no number of its own, is the Relay's (DESIGN CHOICE). -/
def sourceOf (opcode tile : Nat) : Nat :=
  match opcode / 256 with
  | 1 => tile
  | 2 => if opcode = 0x0205 ∨ opcode = 0x0206 ∨ opcode = 0x0207 then 0x052 else 0x051
  | 3 => 0x053
  | 4 => 0x054
  | 5 => 0x055
  | 6 => 0x050
  | 7 => 0x058
  | _ => 0x054

/-- A host-bound write of a command meets the cut (R51): its first cut address and its length are kept in one DATA
entry of the cut list, which the command names (R55: 0xFFFF when the list is full). -/
def Block.noteCut (b : Block) (id a n : Nat) : Block :=
  match b.cmds.find? (fun c => decide (c.id = id)) with
  | none => b
  | some c =>
    match c.cutIdx, c.cut with
    | some i, some (a0, len) =>
      { b with
        cmds := b.cmds.map (fun (x : Cmd) => if x.id = id then { x with cut := some (a0, len + n) } else x)
        hitch := { b.hitch with cuts := b.hitch.cuts.mapIdx (fun j e => if j = i then { e with length := len + n } else e) } }
    | _, _ =>
      let full := decide (1024 ≤ b.hitch.cuts.length)
      let i := if full then 0xFFFF else b.hitch.cuts.length
      let src := sourceOf c.opcode c.tile
      let e : CutEntry := ⟨1, b.rget .HITCH_STATUS_LAST_REASON, c.ring, c.seq, a, n, src, c.ctx, b.now, []⟩
      let b := { b with cmds := b.cmds.map (fun (x : Cmd) => if x.id = id then { x with cut := some (a, n), cutIdx := some i } else x) }
      if full then b.countSat .HITCH_CUT_STATUS_OVERFLOW 0 1
      else
        let b := { b with hitch := { b.hitch with cuts := b.hitch.cuts ++ [e] } }
        b.rset .HITCH_CUT_STATUS_COUNT 0 b.hitch.cuts.length

/-- Bytes written to host memory (PERF_DEV_WR). -/
def Block.hostWrite (b : Block) (a : Nat) (bs : List Byte) : Block :=
  { (b.count .PERF_DEV_WR_COUNT 0 (ceilDiv bs.length 64)) with host := b.host.writeBytes a bs }

/-- A read of `n` bytes within one line (R249, R251). -/
def readPiece (q : Req) (va n : Nat) : Act (List Byte) := do
  let t ← translate q va false
  act (fun b => b.perf q.who.src 0x07 0 q.who.ctx 1)
  match t with
  | .mpa a => localAccess q a n none false
  | .neighbour a =>
    tierCheck q 1
    let b ← get
    if b.lendUp a then
      act (fun b => (b.count .HOKUKE_TX_PACKETS_COUNT 0 1).count .HOKUKE_RX_PACKETS_COUNT 0 1)
      return b.mem.lent.readBytes a n
    else tierFail 1; return []
  | .host a =>
    let b ← get
    if b.cutActive then throw .hostCut
    else
      tierCheck q 2
      act (fun b => b.count .PERF_DEV_RD_COUNT 0 (ceilDiv n 64))
      return b.host.readBytes a n

/-- A write within one line (R249, R251). A host-tier write during a cut is cut (R51): the command goes on, and its
completion reports it. -/
def writePiece (q : Req) (va : Nat) (bs : List Byte) : Act Unit := do
  let t ← translate q va true
  act (fun b => b.perf q.who.src 0x08 0 q.who.ctx 1)
  match t with
  | .mpa a => let _ ← localAccess q a bs.length (some (fun _ => bs)) false; return ()
  | .neighbour a =>
    tierCheck q 1
    let b ← get
    if b.lendUp a then
      act (fun b => { (b.count .HOKUKE_TX_PACKETS_COUNT 0 1) with mem := { b.mem with lent := b.mem.lent.writeBytes a bs } })
    else tierFail 1
  | .host a =>
    let b ← get
    if b.cutActive then
      match q.who.id with
      | some i => act (fun b => b.noteCut i a bs.length)
      | none => throw .hostCut
    else
      tierCheck q 2
      act (fun b => b.hostWrite a bs)

/-- An atomic of `n` bytes within one line (R238): `f` gives the new bytes. It answers the old bytes. -/
def atomicPiece (q : Req) (va n : Nat) (f : List Byte → List Byte) : Act (List Byte) := do
  match ← translate q va true with
  | .mpa a => localAccess q a n (some f) true
  | _ => throw (.tier 3)

/-- The pieces of a range that lie within one 128-byte line each, in ascending address. -/
def pieces : Nat → Nat → Nat → List (Nat × Nat)
  | 0, _, _ => []
  | fuel + 1, va, n =>
    if n = 0 then []
    else
      let m := min n (128 - va % 128)
      (va, m) :: pieces fuel (va + m) (n - m)

/-- The pieces of `n` bytes from `va`. -/
def piecesOf (va n : Nat) : List (Nat × Nat) := pieces (n / 128 + 2) va n

/-- `n` bytes read from device virtual address `va`. -/
def readVa (q : Req) (va n : Nat) : Act (List Byte) := do
  let l ← (piecesOf va n).mapM (fun p => readPiece q p.1 p.2)
  return l.flatten

/-- Bytes written to device virtual address `va`. -/
def writeVa (q : Req) (va : Nat) (bs : List Byte) : Act Unit := do
  for p in piecesOf va bs.length do
    writePiece q p.1 ((bs.drop (p.1 - va)).take p.2)

/-- A little-endian number read from memory (R3). -/
def readNatVa (q : Req) (va n : Nat) : Act Nat := do
  let l ← readVa q va n
  return ofBytes l

end Sys2Proof.Machine
end

