-- ==== Sys2Proof/Machine/Engine.lean ====
section
/-! DEFINITION. Commands in flight, as every engine handles them: finding one, running its row when it waits, giving it
its result (R88, R494). The completion event posts the record (`Complete.lean`). -/

namespace Sys2Proof.Machine

/-- The command in flight with number `id`. -/
def Block.findCmd (b : Block) (id : Nat) : Option Cmd := b.cmds.find? (fun c => decide (c.id = id))

/-- The command in flight with number `id` changed by `f`. -/
def Block.updCmd (b : Block) (id : Nat) (f : Cmd → Cmd) : Block :=
  { b with cmds := b.cmds.map (fun (c : Cmd) => if c.id = id then f c else c) }

/-- Whether a module fault has occurred. -/
def Block.faulted (b : Block) : Bool := b.flag .OSTLER_FAULT_STATUS_MODULE_FAULT

/-- Whether engines start commands: not after a module fault or a power-good fall (R472, R501), and not during a cut
in pause mode (R52). -/
def Block.mayStart (b : Block) : Bool := !b.faulted && !b.boot.stopped && !(b.cutActive && b.flag .HITCH_STATUS_PAUSED)

/-- The status detail and engine bytes of a command that ends. -/
def Block.finish (b : Block) (id status detail engine : Nat) : Block :=
  b.updCmd id (fun c => { c with phase := .done, result := some ⟨status, detail, engine⟩ })

/-- The command has started and goes on. -/
def Block.setRunning (b : Block) (id : Nat) : Block :=
  b.updCmd id (fun c => { c with phase := .running, startT := b.clk.t })

/-- An effect of the command's completion event. -/
def Block.addEffect (b : Block) (id : Nat) (e : Effect) : Block :=
  b.updCmd id (fun c => { c with effects := c.effects ++ [e] })

/-- The engine of a command (R81, R89): a tile for class 0x01, one for each other class. -/
def Cmd.engine (c : Cmd) : Nat := if c.opcode / 256 = 1 then c.tile else 0x100 + c.opcode / 256

/-- Whether no earlier command of the same ring and engine still waits (R80); the Relay has an order of its own, and a command
held for a future epoch holds nothing back (R366). -/
def Block.inRingOrder (b : Block) (c : Cmd) : Bool :=
  decide (c.opcode / 256 = 4) ||
  match b.cmds.find? (fun (x : Cmd) => decide (x.ring = c.ring) && decide (x.engine = c.engine) && decide (x.phase = .waiting) &&
      !b.relay.held.any (fun h => h.epoch && decide (h.cmd = x.id))) with
  | some x => decide (x.id = c.id)
  | none => true

/-- Whether Ostler serves an opcode after a module fault (R501): CONFIG_READ and ERRLOG_READ. -/
def ostlerServes (opcode : Nat) : Bool := decide (opcode = 0x0703 ∨ opcode = 0x0705)

/-- A command of a unit that its row may start now. -/
def Block.startable (b : Block) (id : Nat) (p : Params) : Option Cmd :=
  match b.findCmd id with
  | some c =>
    if c.params = p ∧ c.phase = .waiting ∧ (b.mayStart ∨ (b.faulted ∧ !b.boot.stopped ∧ ostlerServes c.opcode)) ∧ b.inRingOrder c then
      some c else none
  | none => none

/-- A row of an engine's command: it happens when the command waits with these parameters and `ready` holds, and does
nothing otherwise (DESIGN CHOICE: an event that cannot happen changes nothing). -/
def Block.runCmd (b : Block) (id : Nat) (p : Params) (ready : Cmd → Block → Bool) (go : Cmd → Block → Block) : Block :=
  match b.startable id p with
  | some c => if ready c b then go c (b.updCmd id (fun c => { c with startT := b.clk.t })) else b
  | none => b

/-- No condition beyond the command's own. -/
def always2 : Cmd → Block → Bool := fun _ _ => true

/-- Who a command's accesses belong to. -/
def Cmd.who (c : Cmd) : Who := ⟨sourceOf c.opcode c.tile, c.ctx, some (c.ring, c.seq), some c.id⟩

/-- The requests of a command with a hint. -/
def Cmd.req (c : Cmd) (hint uses : Nat) (cache : Nat := 10) : Req := ⟨c.who, hint, uses, cache⟩

/-- Ends a command with the outcome of an action: its status, detail and engine bytes, or those of an access error
(`unm` is the chapter's status for an unmapped page). -/
def Block.conclude (b : Block) (id : Nat) (unm : Nat × Nat) (m : Act (Nat × Nat × Nat)) : Block :=
  match m b with
  | (.ok (s, d, e), b) => b.finish id s d e
  | (.error x, b) => let r := x.status unm; b.finish id r.1 r.2 0

/-- As `conclude`, with the first faulting address of an unmapped page in the engine bytes (status `unm`). -/
def Block.concludeVa (b : Block) (id unm : Nat) (m : Act (Nat × Nat × Nat)) : Block :=
  match m b with
  | (.ok (s, d, e), b) => b.finish id s d e
  | (.error (.unmapped a), b) => b.finish id unm 0 (a % 2 ^ 56)
  | (.error x, b) => let r := x.status (0, 0); b.finish id r.1 r.2 0

/-- What an action answers; an access error ends the command as `concludeVa` does. -/
def Block.withAct {α : Type} (b : Block) (id unm : Nat) (m : Act α) (k : α → Block → Block) : Block :=
  match m b with
  | (.ok x, b) => k x b
  | (.error (.unmapped a), b) => b.finish id unm 0 (a % 2 ^ 56)
  | (.error x, b) => let r := x.status (0, 0); b.finish id r.1 r.2 0

/-- As `conclude`, for a command whose completion another event brings: an action that answers none leaves it
running. -/
def Block.proceed (b : Block) (id : Nat) (unm : Nat × Nat) (m : Act (Option (Nat × Nat × Nat))) : Block :=
  match m (b.setRunning id) with
  | (.ok (some (s, d, e)), b) => b.finish id s d e
  | (.ok none, b) => b
  | (.error x, b) => let r := x.status unm; b.finish id r.1 r.2 0

/-- Runs an action for its effects, whatever it answers. -/
def Block.runAct {α : Type} (b : Block) (m : Act α) : Block := (m b).2

/-- The engine bytes of a record from two 32-bit halves. -/
def halves (lo hi : Nat) : Nat := lo % 2 ^ 32 + hi % 2 ^ 32 * 2 ^ 32

/-- RANGE (0x0100) for a command whose parameters break a rule; nothing is executed (R8, R88). -/
def rangeErr {α : Type} : Act α := throw (.fin 0x0100 0)

end Sys2Proof.Machine
end

