-- ==== Sys2Proof/Machine/Pages.lean ====
section
/-! DEFINITION. The Drover's pages: allocation in consecutive pseudo-channel sets (R245), small pages, host pools and
lends, freeing, moving an object or a page (R261, R264, R265), eviction and drops (R256, R257), quotas (R255). -/

namespace Sys2Proof.Machine

/-- The frames from this number on hold the firmware reserve of 1 GiB (R207): the highest-numbered frames that
together hold it (DESIGN CHOICE: firmware's own choice). -/
def reserveGo (b : Block) : Nat → Nat → Nat → Nat
  | 0, f, _ => f
  | fuel + 1, f, acc =>
    if 512 ≤ acc then f else reserveGo b fuel (f - 1) (acc + popcount 8 (b.setMask ((f - 1) % 32)))

/-- The first frame of the firmware reserve. -/
def Block.reserveBase (b : Block) : Nat := reserveGo b 4096 17856 0

/-- Whether page `ppn` may be allocated. -/
def Block.pageFree (b : Block) (ppn : Nat) : Bool := !b.drover.usedPages.contains ppn && !b.mem.retired.contains ppn

/-- How many pages a frame of set `u` holds when it is mapped now with class `g` (R198). -/
def Block.freshPages (b : Block) (u : Nat) (g : Bool) : Nat := popcount 8 (b.setMask u) - (if g then 1 else 0)

/-- The frames of set `u` with mapped pages, class `g` and only working stacks, outside the reserve. -/
def Block.mappedFrames (b : Block) (u : Nat) (g : Bool) (base : Nat) : List Nat :=
  (b.mem.frames.filter (fun p => decide (p.1 % 32 = u) && decide (p.1 < base) &&
    decide (p.2.layout = some (b.setMask u)) && decide (p.2.guarded = g))).map (fun p => p.1)

/-- The free pages of a frame. -/
def Block.frameFree (b : Block) (f n : Nat) : List Nat :=
  ((List.range n).map (fun j => f * 8 + j)).filter b.pageFree

/-- How many free pages set `u` has for class `g` (R245). -/
def Block.setFree (b : Block) (u : Nat) (g : Bool) (base : Nat) : Nat :=
  let mine := b.mappedFrames u g base
  let anyMapped := (b.mem.frames.filter (fun p => decide (p.1 % 32 = u) && decide (p.1 < base) && p.2.layout.isSome)).length
  let total := (base + 31 - u) / 32
  let bad := (b.mem.retired.filter (fun q => decide (q / 8 % 32 = u) && decide (q / 8 < base) &&
    decide ((b.frame (q / 8)).layout = none) && decide (q % 8 < b.freshPages u g))).length
  (total - anyMapped) * b.freshPages u g - bad +
    mine.foldl (fun n f => n + (b.frameFree f (b.framePages f)).length) 0

/-- A page of class `g` in set `u`, taken from a frame already mapped with that class or else from the lowest unmapped
frame, which takes the class (R208). -/
def Block.takePage (b : Block) (u : Nat) (g : Bool) : Option (Nat × Block) :=
  let base := b.reserveBase
  let use := fun (b : Block) (ppn : Nat) =>
    (ppn, { b with drover := { b.drover with usedPages := b.drover.usedPages ++ [ppn] } })
  match (b.mappedFrames u g base).findSome? (fun f => (b.frameFree f (b.framePages f)).head?) with
  | some ppn => some (use b ppn)
  | none =>
    match (List.range 558).find? (fun k => decide (k * 32 + u < base) && decide ((b.frame (k * 32 + u)).layout = none) &&
        !(b.frameFree (k * 32 + u) (b.freshPages u g)).isEmpty) with
    | some k =>
      let f := k * 32 + u
      ((b.frameFree f (b.freshPages u g)).head?).map (fun ppn => use (b.setClass f g) ppn)
    | none => none

/-- The next page of a placement: in set `u`, or in the next set after it that has one (R245); with the set that the
placement continues from. -/
def Block.nextPage (b : Block) (u : Nat) (g : Bool) : Option (Nat × Nat × Block) :=
  (List.range 32).findSome? (fun d =>
    let v := (u + d) % 32
    (b.takePage v g).map (fun r => (r.1, (v + 1) % 32, r.2)))

/-- `n` pages from set `u` on (R245). -/
def Block.takePages (b : Block) (g : Bool) : Nat → Nat → Option (List Nat × Block)
  | 0, _ => some ([], b)
  | n + 1, u =>
    match b.nextPage u g with
    | none => none
    | some (ppn, u', b') => (Block.takePages b' g n u').map (fun r => (ppn :: r.1, r.2))

/-- The set with the most free pages of a class, the lowest among equals (R245). -/
def Block.firstSet (b : Block) (g : Bool) : Nat :=
  let base := b.reserveBase
  ((List.range 32).foldl (fun best u => let n := b.setFree u g base; if best.2 < n then (u, n) else best) (0, 0)).1

/-- `n` local pages of a class (R245), none when there are not enough. -/
def Block.allocLocal (b : Block) (g : Bool) (n : Nat) : Option (List Nat × Block) := b.takePages g n (b.firstSet g)

/-- A local page is freed: its Vat lines leave without write-back (R261), and a frame with no mapped page returns to
the pool (R220). -/
def Block.freePage (b : Block) (ppn : Nat) : Block :=
  let b := b.dropPage ppn
  let b := { b with drover := { b.drover with usedPages := b.drover.usedPages.filter (fun q => !decide (q = ppn)) } }
  if b.drover.usedPages.any (fun q => decide (q / 8 = ppn / 8)) then b
  else b.setFrame (ppn / 8) { b.frame (ppn / 8) with layout := none }

/-! ### Small pages (R245) -/

/-- One 64 KiB unit for a context and class: in a shared page with room, or in a new page. -/
def Block.takeUnit (b : Block) (ctx : Nat) (g : Bool) : Option (Nat × Block) :=
  match b.drover.smallPages.findIdx? (fun s => decide (s.ctx = ctx) && decide (s.guarded = g) && decide (popcount 32 s.used < 32)) with
  | some i =>
    match b.drover.smallPages[i]? with
    | some s =>
      let j := ((List.range 32).find? (fun j => !bitAt s.used j)).getD 0
      some (s.ppn * pageBytes + j * 65536,
        { b with drover := { b.drover with
            smallPages := b.drover.smallPages.set i { s with used := setBit s.used j } } })
    | none => none
  | none =>
    (b.allocLocal g 1).bind (fun r =>
      match r.1 with
      | [ppn] => some (ppn * pageBytes,
          { r.2 with drover := { r.2.drover with smallPages := r.2.drover.smallPages ++ [⟨ctx, g, ppn, 1⟩] } })
      | _ => none)

/-- `n` units. -/
def Block.takeUnits (b : Block) (ctx : Nat) (g : Bool) : Nat → Option (List Nat × Block)
  | 0 => some ([], b)
  | n + 1 =>
    match b.takeUnit ctx g with
    | none => none
    | some (a, b') => (Block.takeUnits b' ctx g n).map (fun r => (a :: r.1, r.2))

/-- A unit is freed, and its page with its last unit. -/
def Block.freeUnit (b : Block) (a : Nat) : Block :=
  let ppn := a / pageBytes
  let j := a % pageBytes / 65536
  let sp := b.drover.smallPages.map (fun s => if s.ppn = ppn then { s with used := clearBit s.used j } else s)
  let gone := sp.any (fun s => decide (s.ppn = ppn) && decide (s.used = 0))
  let b := { b with drover := { b.drover with smallPages := sp.filter (fun s => !(decide (s.ppn = ppn) && decide (s.used = 0))) } }
  let lo := a / 128
  let b := (b.mem.vat.filter (fun p => p.2.valid && !p.2.parity && decide (lo ≤ p.2.line ∧ p.2.line < lo + 512))).foldl
    (fun b p => b.dropLine p.1) b
  if gone then b.freePage ppn else b

/-! ### Objects in a tier -/

/-- The page size of an object. -/
def objPage (small : Bool) : Nat := if small then 65536 else pageBytes

/-- How many 2 MiB pages an object counts (R255). -/
def objUnits (size : Nat) : Nat := ceilDiv size pageBytes

/-- The used pages of a context's host pool. -/
def Block.hostPages (b : Block) (ctx : Nat) : List Nat := Sparse.get (always []) b.drover.hostUsed ctx

/-- The first `n` free numbers below `m`. -/
def freeNumbers (used : List Nat) (m n : Nat) : Option (List Nat) :=
  let l := ((List.range m).filter (fun i => !used.contains i)).take n
  if l.length = n then some l else none

/-- Target addresses of the pages of an object in a tier: one for each page of the object; none where the tier has no
room. -/
def Block.allocTier (b : Block) (ctx : Nat) (g small : Bool) (size tier lend : Nat) : Option (List Nat × Block) :=
  let n := size / objPage small
  if tier = 0 then
    if small then b.takeUnits ctx g n
    else (b.allocLocal g n).map (fun r => (r.1.map (fun p => p * pageBytes), r.2))
  else
    let per := pageBytes / objPage small
    let spread := fun (l : List Nat) (at_ : Nat → Nat) =>
      ((List.range n).map (fun i => at_ (l.getD (i / per) 0) + i % per * objPage small))
    if tier = 1 then
      let br := b.borrow lend
      if b.flag .DROVER_BORROW_VALID lend && !b.flag .DROVER_BORROW_REVOKING lend &&
          decide (b.flag .DROVER_BORROW_GUARDED lend = g) then
        (freeNumbers br.used (b.rget .DROVER_BORROW_PAGES lend) (objUnits size)).map (fun l =>
          (spread l (fun p => neighbourAddr (b.rget .DROVER_BORROW_RANK lend) (b.rget .DROVER_BORROW_LEND_ID lend) p 0),
            { b with drover := { b.drover with
                borrows := Sparse.set (always Borrow.init) b.drover.borrows lend { br with used := br.used ++ l } } }))
      else none
    else
      (freeNumbers (b.hostPages ctx) (b.rget .DROVER_HOSTPOOL_PAGES ctx) (objUnits size)).map (fun l =>
        (spread l (fun p => (b.rget .DROVER_HOSTPOOL_BASE ctx + p) * pageBytes),
          { b with drover := { b.drover with
              hostUsed := Sparse.set (always []) b.drover.hostUsed ctx (b.hostPages ctx ++ l) } }))

/-- The pages of an object in a tier are freed. -/
def Block.freeTier (b : Block) (ctx : Nat) (small : Bool) (tier lend : Nat) (targets : List Nat) : Block :=
  if tier = 0 then
    targets.foldl (fun b a => if small then b.freeUnit a else b.freePage (a / pageBytes)) b
  else if tier = 1 then
    let br := b.borrow lend
    let ps := targets.map (fun a => a / pageBytes % 2 ^ 18)
    { b with drover := { b.drover with
        borrows := Sparse.set (always Borrow.init) b.drover.borrows lend { br with used := br.used.filter (fun p => !ps.contains p) } } }
  else
    let ps := targets.map (fun a => a / pageBytes - b.rget .DROVER_HOSTPOOL_BASE ctx)
    { b with drover := { b.drover with
        hostUsed := Sparse.set (always []) b.drover.hostUsed ctx ((b.hostPages ctx).filter (fun p => !ps.contains p)) } }

/-- The (address, byte) pairs of a range, by offset. -/
def Memory.slice (m : Memory) (a n : Nat) : List (Nat × Byte) :=
  (m.filter (fun p => decide (a ≤ p.1) && decide (p.1 < a + n))).map (fun p => (p.1 - a, p.2))

/-- A range that holds the given (offset, byte) pairs and zeros elsewhere. -/
def Memory.putSlice (m : Memory) (a n : Nat) (l : List (Nat × Byte)) : Memory :=
  l.foldl (fun m p => m.write (a + p.1) p.2) (m.clear a n)

/-- The bytes at an address of a tier. -/
def Block.tierSlice (b : Block) (tier a n : Nat) : List (Nat × Byte) :=
  match tier with
  | 0 => b.mem.bytes.slice a n
  | 1 => b.mem.lent.slice a n
  | _ => b.host.slice a n

/-- Lost lines among the MPA lines of a range. -/
def Block.lostIn (b : Block) (a n : Nat) : List Nat :=
  b.mem.lost.filter (fun l => decide (a / 128 ≤ l) && decide (l < (a + n) / 128))

/-- A range of a tier holds the given pairs and zeros elsewhere. -/
def Block.putTier (b : Block) (tier a n : Nat) (l : List (Nat × Byte)) : Block :=
  match tier with
  | 0 => { b with mem := { b.mem with bytes := b.mem.bytes.putSlice a n l
                                      lost := b.mem.lost.filter (fun x => !(decide (a / 128 ≤ x) && decide (x < (a + n) / 128)))
                                      stackCopy := b.mem.stackCopy.filter (fun p => !(decide (a / 128 ≤ p.1) && decide (p.1 < (a + n) / 128))) } }
  | 1 => { b with mem := { b.mem with lent := b.mem.lent.putSlice a n l } }
  | _ =>
    let b := b.count .PERF_DEV_WR_COUNT 0 (n / 64)
    { b with host := b.host.putSlice a n l }

/-- Contents that a rule leaves undefined (R282, R388, R389, R391, R393, R513): every mapped and writable byte of the range holds a
free value. -/
def Block.freeWork (b : Block) (ctx va n : Nat) : Block :=
  b.drover.leaves.foldl (fun b kv =>
    let lf := kv.2
    let page := kv.1 % 2 ^ 40 * 65536
    let size := if lf.small then 65536 else pageBytes
    let lo := max page va
    let hi := min (page + size) (va + n)
    if kv.1 / 2 ^ 40 = ctx ∧ lf.valid ∧ lf.write ∧ lo < hi then
      let u := b.use
      let l := ((List.range (hi - lo)).map (fun i => (i, Config.freeByte u.1 i))).filter (fun x => !decide (x.2 = 0))
      u.2.putTier lf.tier (lf.target + (lo - page)) (hi - lo) l
    else b) b

/-- The leaf keys of an object's pages. -/
def Obj.keys (o : Obj) : List Nat :=
  (List.range (o.size / objPage o.small)).map (fun i => leafKey o.ctx (o.va + i * objPage o.small))

/-- The targets of an object's pages. -/
def Block.targets (b : Block) (o : Obj) : List Nat := o.keys.map (fun k => (b.leaf k).target)

/-- The leaf entries of an object name new targets in a tier, valid in every cache (R248). -/
def Block.mapLeaves (b : Block) (o : Obj) (tier : Nat) (targets : List Nat) (mig : Bool) : Block :=
  let b := (o.keys.zip targets).foldl (fun b p =>
    b.setLeaf p.1 ⟨true, o.write, o.small, tier, mig, p.2, o.obj, false⟩) b
  b.tlbInval (fun k => o.keys.contains k)

/-- The MIG bits of an object's leaves. -/
def Block.setMig (b : Block) (o : Obj) (mig : Bool) : Block :=
  o.keys.foldl (fun b k => b.setLeaf k { b.leaf k with mig := mig }) b

/-- The object has no leaf entry any more. -/
def Block.clearLeaves (b : Block) (o : Obj) : Block :=
  let b := { b with drover := { b.drover with leaves := b.drover.leaves.filter (fun p => !o.keys.contains p.1) } }
  b.tlbInval (fun k => o.keys.contains k)

/-! ### Quotas (R255) -/

/-- The register element of a context's quota in a tier. -/
def quotaIdx (ctx tier : Nat) : Nat := ctx * 3 + tier

/-- Whether a pinned object of `n` units fits a context's quota in a tier. -/
def Block.quotaRoom (b : Block) (ctx tier n : Nat) : Bool :=
  decide (b.rget .DROVER_QUOTA_USED (quotaIdx ctx tier) + n ≤ b.rget .DROVER_QUOTA_PAGES (quotaIdx ctx tier))

/-- USED of a quota rises or falls by the units of a pinned object. -/
def Block.quotaAdd (b : Block) (o : Obj) (tier : Nat) (up : Bool) : Block :=
  if o.cache then b
  else
    let i := quotaIdx o.ctx tier
    let u := b.rget .DROVER_QUOTA_USED i
    b.rset .DROVER_QUOTA_USED i (if up then u + objUnits o.size else u - objUnits o.size)

/-! ### Ending and moving objects -/

/-- A migration ends with its object at the source: its target is freed (R259, R262, R263). -/
def Block.endMig (b : Block) (o : Obj) : Block :=
  match o.mig with
  | none => b
  | some m =>
    let b := b.freeTier o.ctx o.small m.tier m.lend m.targets
    let b := b.rset .DROVER_STATUS_MIGRATING 0 (b.rget .DROVER_STATUS_MIGRATING - 1)
    (b.setMig o false).updObj o.ctx o.obj (fun o => { o with mig := none })

/-- The MIGRATE command of an object's migration ends with a status. -/
def Block.endMigCmd (b : Block) (o : Obj) (status detail : Nat) : Block :=
  match o.mig.bind (fun m => m.cmd) with
  | some id => b.finish id status detail 0
  | none => b

/-- An object is unmapped: a migration of it is cancelled (R263), its leaves invalidated (R248), its pages freed. -/
def Block.removeObj (b : Block) (o : Obj) : Block :=
  let b := (b.endMigCmd o 0x6002 0).endMig o
  let ts := b.targets o
  let b := b.clearLeaves o
  let b := (b.freeTier o.ctx o.small o.tier o.lend ts).quotaAdd o o.tier false
  let b := { b with drover := { b.drover with objs := b.drover.objs.filter (fun x => !decide (x.ctx = o.ctx ∧ x.obj = o.obj)) } }
  b.rset .DROVER_STATUS_OBJECTS 0 (b.rget .DROVER_STATUS_OBJECTS - 1)

/-- A droppable object is dropped: unmapped, counted and logged (R257). -/
def Block.dropObj (b : Block) (o : Obj) : Block :=
  let b := b.removeObj o
  let e := b.rget .DROVER_DROPS_COUNT % 64
  let b := b.count .DROVER_DROPS_COUNT 0 1
  let b := (b.rset .DROVER_DROP_LOG_OBJ e o.obj).rset .DROVER_DROP_LOG_CTX e o.ctx
  (b.rset .DROVER_DROP_LOG_VALID e 1).rset .DROVER_DROP_LOG_TIME_MS e (b.now / 1000000)

/-- The commit of a flip (R260, R261): the pages are copied, the leaves switched, the source freed. -/
def Block.commitMove (b : Block) (o : Obj) (tier lend : Nat) (targets : List Nat) : Block :=
  let src := b.targets o
  let b := (src.zip targets).foldl (fun b p =>
    b.putTier tier p.2 (objPage o.small) (b.tierSlice o.tier p.1 (objPage o.small))) b
  let b := b.mapLeaves o tier targets false
  let b := b.freeTier o.ctx o.small o.tier o.lend src
  let b := (b.quotaAdd o o.tier false).quotaAdd o tier true
  let b := b.count .DROVER_MIGRATIONS_COUNT 0 1
  b.updObj o.ctx o.obj (fun x => { x with tier := tier, lend := lend, mig := none })

/-- Whether every page of an object can be read: no lost line in the local tier, no revoked page in a neighbour's (R253, R262). -/
def Block.readable (b : Block) (o : Obj) : Bool :=
  if o.tier = 0 then (b.targets o).all (fun a => (b.lostIn a (objPage o.small)).isEmpty)
  else o.keys.all (fun k => !(b.leaf k).revoked)

/-- Whether the lender of a borrowed slot can be reached (R254). -/
def Block.lenderUp (b : Block) (slot : Nat) : Bool := b.reachable (b.rget .DROVER_BORROW_RANK slot)

/-- Whether the links that a copy of an object to a tier needs can carry it (R251, R254). -/
def Block.linksUp (b : Block) (o : Obj) (tier lend : Nat) : Bool :=
  !(b.cutActive && (decide (tier = 2) || decide (o.tier = 2))) && (decide (tier ≠ 1) || b.lenderUp lend) &&
    (decide (o.tier ≠ 1) || (b.targets o).all b.lendUp)

/-- An object moves to another tier as a whole, if the tier has room and it can be read and copied. -/
def Block.moveObj (b : Block) (o : Obj) (tier lend : Nat) : Option Block :=
  if b.readable o && b.linksUp o tier lend then
    (b.allocTier o.ctx o.guarded o.small o.size tier lend).map (fun r => r.2.commitMove o tier lend r.1)
  else none

/-! ### Eviction (R256, R257) -/

/-- The age of an object in whole milliseconds, saturating (R256). -/
def Block.age (b : Block) (o : Obj) : Nat := min (2 ^ 32 - 1) ((b.clk.t - o.lastUse) / msec)

/-- Whether object `x` is evicted before object `y`: older first, then the lower context and object number (R256). -/
def Block.evictsBefore (b : Block) (x y : Obj) : Bool :=
  decide (b.age y < b.age x) ||
  (decide (b.age x = b.age y) && (decide (x.ctx < y.ctx) || (decide (x.ctx = y.ctx) && decide (x.obj ≤ y.obj))))

/-- The cache-class objects of a tier that may be evicted, in the order of R256. -/
def Block.evictable (b : Block) (tier : Nat) : List Obj :=
  orderBy b.evictsBefore (b.drover.objs.filter (fun o => o.cache && decide (o.tier = tier) && decide (o.mig = none) && decide (o.users = 0) &&
    !b.drover.snaps.any (fun s => decide (s.ctx = o.ctx) && decide (s.first ≤ o.obj) && decide (o.obj < s.first + s.count))))

/-- One eviction of an object: one tier down, or dropped, or not at all (R257). -/
def Block.evict (b : Block) (o : Obj) : Option Block :=
  let down := if o.tier = 0 then
      let viaNb := if b.quotaRoom o.ctx 1 (objUnits o.size) then
          (List.range 16).findSome? (fun i => b.moveObj o 1 i) else none
      match viaNb with
      | some b' => some b'
      | none => b.moveObj o 2 0
    else if o.tier = 1 then b.moveObj o 2 0
    else none
  match down with
  | some b' => some (b'.count .DROVER_EVICTIONS_COUNT 0 1)
  | none => if o.droppable then some ((b.dropObj o).count .DROVER_EVICTIONS_COUNT 0 1) else none

/-- An allocation in a tier, with evictions while it finds no room (R245, R256, R257). -/
def Block.allocEvict (ctx : Nat) (g small : Bool) (size tier lend : Nat) : Nat → Block → Option (List Nat × Block)
  | 0, b => b.allocTier ctx g small size tier lend
  | fuel + 1, b =>
    match b.allocTier ctx g small size tier lend with
    | some r => some r
    | none =>
      match (b.evictable tier).findSome? b.evict with
      | some b' => Block.allocEvict ctx g small size tier lend fuel b'
      | none => none

/-- As `allocEvict`, with as many evictions as there are objects. -/
def Block.alloc (b : Block) (ctx : Nat) (g small : Bool) (size tier lend : Nat) : Option (List Nat × Block) :=
  Block.allocEvict ctx g small size tier lend b.drover.objs.length b

/-! ### One-page moves (R264, R265) -/

/-- Whether line `l` can still be read at its place: resident, or usable and not lost, or rebuildable. -/
def Block.lineReadable (b : Block) (l : Nat) : Bool :=
  match b.place (l * 128) with
  | none => false
  | some pl => (b.vline pl.slot.key).valid ||
      (!b.lineLost l && (b.slotUsable pl.slot || b.rebuildable pl l))

/-- Every leaf, shared page and lend that names page `old` names page `new`. -/
def Block.renamePage (b : Block) (old new : Nat) : Block :=
  let mine := b.drover.leaves.filter (fun p => p.2.valid && decide (p.2.tier = 0) && decide (p.2.target / pageBytes = old))
  let b := mine.foldl (fun b p => b.setLeaf p.1 { p.2 with target := new * pageBytes + p.2.target % pageBytes }) b
  let b := b.tlbInval (fun k => mine.any (fun p => decide (p.1 = k)))
  { b with drover := { b.drover with
      smallPages := b.drover.smallPages.map (fun s => if s.ppn = old then { s with ppn := new } else s)
      lends := b.drover.lends.map (fun l => { l with pages := l.pages.map (fun p => if p = old then new else p) }) } }

/-- The longest flip so far (DROVER_FLIP_MAX_NS); a flip takes at most 20 µs (R260). -/
def Block.flipTime (b : Block) (ns : Nat) : Block :=
  let n := min 20000 ns
  if b.rget .DROVER_FLIP_MAX_NS_COUNT < n then b.rset .DROVER_FLIP_MAX_NS_COUNT 0 n else b

/-- A page moves to a free page of its class by a one-page migration (R264): lines that cannot be read are lost at the
new place; the old page is freed. None where no free page of the class exists. -/
def Block.movePage (b : Block) (ppn flipNs : Nat) : Option Block :=
  let g := (b.frame (ppn / 8)).guarded
  (Block.allocEvict 0 g false pageBytes 0 0 b.drover.objs.length b).bind (fun r =>
    match r.1 with
    | [a] =>
      let b := r.2
      let bad := ((List.range 16384).map (fun i => ppn * 16384 + i)).filter (fun l => !b.lineReadable l)
      let b := b.putTier 0 a pageBytes (b.mem.bytes.slice (ppn * pageBytes) pageBytes)
      let b := bad.foldl (fun b l => b.loseLine (a / 128 + l % 16384)) b
      let b := b.renamePage ppn (a / pageBytes)
      let b := (b.freePage ppn).count .DROVER_MIGRATIONS_COUNT 0 1
      some (b.flipTime flipNs)
    | _ => none)

end Sys2Proof.Machine
end

