-- ==== Sys2Proof/Machine/TileBase.lean ====
section
/-! DEFINITION. What every unit sees of a tile: whether it works, its queue (R128), its flags (R157), and the gate through
which host requests reach registers (R28, R56, R473, R486). -/

namespace Sys2Proof.Machine

/-- A tile. -/
def Block.tile (b : Block) (n : Nat) : Tile := Sparse.get (always Tile.init) b.tiles n

/-- A tile replaced. -/
def Block.setTile (b : Block) (n : Nat) (x : Tile) : Block :=
  { b with tiles := Sparse.set (always Tile.init) b.tiles n x }

/-- A tile changed by `f`. -/
def Block.onTile (b : Block) (n : Nat) (f : Tile → Tile) : Block := b.setTile n (f (b.tile n))

/-- Whether tile `n` works: CAPS_TILE_MASK. -/
def Block.tileWorks (b : Block) (n : Nat) : Bool := decide (n < 64) && bitAt (b.rget .CAPS_TILE_MASK_TILE) n

/-- A command or an attention job joins the tile's queue (R128, R397). -/
def Block.tileJoin (b : Block) (n : Nat) : Block :=
  let b := b.rset .TILE_STATUS_QUEUED n (b.rget .TILE_STATUS_QUEUED n + 1)
  if b.rget .TILE_STATUS_STATE n = 0 then b.rset .TILE_STATUS_STATE n 1 else b

/-- A command or an attention job leaves the tile's queue; the tile is IDLE when the queue is empty. -/
def Block.tileLeave (b : Block) (n : Nat) : Block :=
  let b := b.rset .TILE_STATUS_QUEUED n (b.rget .TILE_STATUS_QUEUED n - 1)
  if b.rget .TILE_STATUS_QUEUED n = 0 ∧ b.rget .TILE_STATUS_STATE n = 1 then b.rset .TILE_STATUS_STATE n 0 else b

/-- The element of TILE_FLAG that is flag `f` of tile `n`. -/
def flagIdx (n f : Nat) : Nat := n * 16 + f % 16

/-- TILE_FLAG[f] of tile `n` is incremented modulo 2^32 (R99, R157). -/
def Block.flagUp (b : Block) (n f : Nat) : Block := b.count .TILE_FLAG_VALUE (flagIdx n f) 1

/-! ### The way of a host request to a register -/

/-- Whether an offset lies in the block of a retired or lost unit, or of an unused MAC (R28). -/
def Block.unitGone (b : Block) (off : Nat) : Bool :=
  if 0x400000 ≤ off ∧ off < 0x800000 then !b.tileWorks ((off - 0x400000) / 0x10000)
  else if 0xA00000 ≤ off ∧ off < 0xC00000 then decide (b.rget .STACK_STATUS_STATE ((off - 0xA00000) / 0x40000) = 2)
  else if 0x1200000 ≤ off ∧ off < 0x1300000 then !b.flag .CAPS_OE_PRESENT ((off - 0x1200000) / 0x20000)
  else if 0x1400000 ≤ off ∧ off < 0x1800000 then
    let m := (off - 0x1400000) / 0x40000
    let role := b.rget .CAPS_OE_ROLE (m / 2)
    !b.flag .CAPS_OE_PRESENT (m / 2) || decide (role = 0) || (decide (role = 1) && decide (m % 2 = 1))
  else false

/-- Whether BAR0 serves an offset before READY (R473). -/
def earlyOffset (off : Nat) : Bool :=
  decide (off < 8) || (decide (0x10000 ≤ off) && decide (off < 0x100000)) || decide (0x2000000 ≤ off)

/-- Whether the security mode lets host requests reach an offset (R486). -/
def Block.secureOk (b : Block) (off : Nat) : Bool :=
  !b.flag .OSTLER_BOOT_STATUS_READY || decide (b.rget .OSTLER_BOOT_STATUS_SECURITY = 0) ||
  decide (b.rget .HITCH_STATUS_IDE_STATE = 1) || decide (off < 0x100000)

/-- A host write to BAR0 offset `off`, which `f` applies if it reaches its register: the link is up (R56), the security
mode admits it (R486), BAR0 serves the offset (R473), and its unit is there (R28). -/
def Block.barWrite (b : Block) (off : Nat) (f : Block → Block) : Block :=
  if !b.flag .HITCH_STATUS_LINK_UP then b
  else
    let b := b.count .PERF_HOST_WR_COUNT 0 1
    if !b.secureOk off then b.accessError 0x056 none 0 off
    else if !b.flag .OSTLER_BOOT_STATUS_READY && !earlyOffset off then b
    else if b.unitGone off then b
    else f b

/-- A host read of `n` bytes at BAR0 offset `off` that changes state: `f` gives the answer and the block after it. -/
def Block.barRead (b : Block) (off n : Nat) (f : Block → Nat × Block) : Block :=
  if !b.flag .HITCH_STATUS_LINK_UP then b
  else if !b.secureOk off then (b.accessError 0x056 none 0 off).answer (List.replicate n 255)
  else if (!b.flag .OSTLER_BOOT_STATUS_READY && !earlyOffset off) || b.unitGone off then b.answer (List.replicate n 0)
  else
    let r := f b
    r.2.answer (bytesOf n r.1)

end Sys2Proof.Machine
end

