-- ==== Sys2Proof/Machine/Mailbox.lean ====
section
/-! DEFINITION. Mailboxes (R92 to R99): locks, messages, doorbell bits and their interrupts. An agent is its owner number
(R92); the tiles' accesses come through MBX_ACCESS and SIGNAL. -/

namespace Sys2Proof.Machine

/-- Whether a number is that of a host agent (R92). -/
def hostAgent (a : Nat) : Bool := decide (1 ≤ a ∧ a ≤ 63)

/-- Whether a number is that of an Ostler core (R92). -/
def coreAgent (a : Nat) : Bool := decide (64 ≤ a ∧ a ≤ 67)

/-- BAR0 offset of register `o` of MBX_n. -/
def mbxOffset (n o : Nat) : Nat := 0x18000 + n * 0x40 + o

/-- A mailbox write of an agent: a host agent's comes over the link, a core's over the internal path (chapter 03). -/
def Block.mbxWrite (b : Block) (agent off : Nat) (f : Block → Block) : Block :=
  if hostAgent agent then b.barWrite off f
  else if coreAgent agent then f b
  else b

/-- Whether a set doorbell bit of mailbox `n` is unmasked: its interrupt is raised (R98). -/
def Block.mbxRaised (b : Block) (n : Nat) : Bool :=
  decide (b.rget .MBX_DB_BITS n &&& (2 ^ 32 - 1 - b.rget .MBX_DB_MASK_MASK n) ≠ 0)

/-- The delivery of a mailbox interrupt (R99). -/
def Block.mbxDeliver (b : Block) (n : Nat) : Block :=
  let i := b.rget .MBX_ROUTE_INDEX n
  match b.rget .MBX_ROUTE_CLASS n with
  | 0 => b.fireVector i
  | 1 => if i ≤ 3 then b.coreInterrupt i else b.accessError 0x058 none 0 (mbxOffset n 0x2C)
  | 2 =>
    if b.tileWorks i then b.flagUp i (b.rget .MBX_ROUTE_FLAG n)
    else b.accessError 0x058 none 0 (mbxOffset n 0x2C)
  | _ => b

/-- A change of a mailbox's doorbell or mask bits: the interrupt is delivered when it rises (R98, R99). -/
def Block.mbxChange (b : Block) (n : Nat) (f : Block → Block) : Block :=
  let b' := f b
  if !b.mbxRaised n && b'.mbxRaised n then b'.mbxDeliver n else b'

/-- Doorbell bits are set (R98). -/
def Block.mbxRing (b : Block) (n v : Nat) : Block :=
  b.mbxChange n (fun b => b.rset .MBX_DB_BITS n (b.rget .MBX_DB_BITS n ||| v))

/-- Doorbell bits are acknowledged (R98). -/
def Block.mbxAck (b : Block) (n v : Nat) : Block :=
  let d := b.rget .MBX_DB_BITS n
  b.mbxChange n (fun b => b.rset .MBX_DB_BITS n (d - (d &&& v)))

/-- The mask bits are written (R98). -/
def Block.mbxMask (b : Block) (n v : Nat) : Block := b.mbxChange n (fun b => b.rset .MBX_DB_MASK_MASK n v)

/-- A message is stored, or dropped while one waits (R97). -/
def Block.mbxPut (b : Block) (n v : Nat) : Block :=
  if b.flag .MBX_STATUS_FULL n then b.rset .MBX_STATUS_OVERRUN n 1
  else ((b.rset .MBX_TAKE_MSG n v).rset .MBX_STATUS_FULL n 1).mbxRing n (2 ^ 31)

/-- MBX_TAKE is read (R97): message and FULL, with the mailbox empty after it. -/
def Block.mbxTakeOut (b : Block) (n : Nat) : Nat × Block :=
  let full := b.flag .MBX_STATUS_FULL n
  (if full then b.rget .MBX_TAKE_MSG n + 2 ^ 32 else 0, (b.rset .MBX_STATUS_FULL n 0).rset .MBX_TAKE_MSG n 0)

/-- A lock attempt (R93): the number answered. -/
def Block.mbxLockTry (b : Block) (n agent : Nat) : Nat × Block :=
  let o := b.rget .MBX_STATUS_OWNER n
  if o = 0 then (0, b.rset .MBX_STATUS_OWNER n agent) else (o, b)

/-- A release of a lock (R94). -/
def Block.mbxRelease (b : Block) (n agent : Nat) : Block :=
  if b.rget .MBX_STATUS_OWNER n = agent then b.rset .MBX_STATUS_OWNER n 0 else b.rset .MBX_STATUS_LOCK_ERR n 1

/-- The offset by which a host agent reaches a lock: MBX_LOCK for agent 1, its alias for the others (R93). -/
def lockOffset (n agent : Nat) : Nat := if agent = 1 then mbxOffset n 0x18 else 0x1A000 + n * 0x100 + agent * 4

/-- MBX_LOCK_READ (R93). -/
def execMbxLockRead (mbx : Fin 16) (agent : Nat) (s : State) : Host.Outcome State Fault Refusal :=
  s.run (fun b =>
    if hostAgent agent then b.barRead (lockOffset mbx agent) 4 (fun b => b.mbxLockTry mbx agent)
    else if coreAgent agent then (b.mbxLockTry mbx agent).2
    else b)

/-- MBX_LOCK_WRITE (R94). -/
def execMbxLockWrite (mbx : Fin 16) (agent : Nat) (s : State) : Host.Outcome State Fault Refusal :=
  s.run (fun b => b.mbxWrite agent (lockOffset mbx agent) (fun b => b.mbxRelease mbx agent))

/-- MBX_LOCK_FORCE (R94): only an Ostler core's write of 1 releases the lock. -/
def execMbxLockForce (mbx : Fin 16) (agent : Nat) (release : Bool) (s : State) : Host.Outcome State Fault Refusal :=
  s.run (fun b => b.mbxWrite agent (mbxOffset mbx 0x1C) (fun b =>
    if coreAgent agent && release then b.rset .MBX_STATUS_OWNER mbx 0 else b))

/-- MBX_MSG (R97). -/
def execMbxMsg (mbx : Fin 16) (agent : Nat) (msg : BitVec 32) (s : State) : Host.Outcome State Fault Refusal :=
  s.run (fun b => b.mbxWrite agent (mbxOffset mbx 0) (fun b => b.mbxPut mbx msg.toNat))

/-- MBX_TAKE (R97). -/
def execMbxTake (mbx : Fin 16) (agent : Nat) (s : State) : Host.Outcome State Fault Refusal :=
  s.run (fun b =>
    if hostAgent agent then b.barRead (mbxOffset mbx 8) 8 (fun b => b.mbxTakeOut mbx)
    else if coreAgent agent then (b.mbxTakeOut mbx).2
    else b)

/-- MBX_DB (R98). -/
def execMbxDb (mbx : Fin 16) (agent : Nat) (v : BitVec 32) (s : State) : Host.Outcome State Fault Refusal :=
  s.run (fun b => b.mbxWrite agent (mbxOffset mbx 0x20) (fun b => b.mbxRing mbx v.toNat))

/-- MBX_DB_ACK (R98). -/
def execMbxDbAck (mbx : Fin 16) (agent : Nat) (v : BitVec 32) (s : State) : Host.Outcome State Fault Refusal :=
  s.run (fun b => b.mbxWrite agent (mbxOffset mbx 0x24) (fun b => b.mbxAck mbx v.toNat))

/-- MBX_DB_MASK (R98). -/
def execMbxDbMask (mbx : Fin 16) (agent : Nat) (v : BitVec 32) (s : State) : Host.Outcome State Fault Refusal :=
  s.run (fun b => b.mbxWrite agent (mbxOffset mbx 0x28) (fun b => b.mbxMask mbx v.toNat))

end Sys2Proof.Machine
end

