-- ==== Sys2Proof/Machine/Operands.lean ====
section
/-! DEFINITION. The operand forms of the packets: the header (R65), the gate trailer (R67), and the parameters of each
opcode at the byte offsets of its chapter's "Command encodings". Bytes that no table names are ignored (R6). -/

namespace Sys2Proof.Machine

/-- A device virtual address field: bits [55:0] of 8 bytes. -/
def fva (l : List Byte) (i : Nat) : Nat := field l i 8 % 2 ^ 56

/-- Bit `j` of the byte at offset `i`. -/
def fbit (l : List Byte) (i j : Nat) : Bool := bitAt (field l i 1) j

/-- The gate trailer: the last 16 bytes of the packet (R67). -/
def parseTrailer (l : List Byte) (len : Nat) : Trailer :=
  let o := 64 * len - 16
  ⟨field l o 2 % 4096, field l (o + 2) 2 % 4096, field l (o + 4) 4⟩

def parseCopy (l : List Byte) : CopyParams :=
  ⟨fva l 16, field l 24 4, field l 28 4, field l 32 4, field l 36 4, fva l 40, field l 48 1 % 4, field l 49 1⟩

def parseMatmul (l : List Byte) : MatmulParams :=
  ⟨field l 16 4, field l 20 4, field l 24 4, field l 28 4, field l 32 2, field l 34 2, field l 36 4,
   field l 40 1 % 16, field l 40 1 / 16, field l 41 1 % 16, field l 41 1 / 16, field l 42 1 % 4, field l 43 1 % 8,
   field l 44 2, fbit l 46 0, fbit l 46 1, field l 48 4, field l 52 4⟩

def parseVkern (l : List Byte) (len : Nat) : VkernParams :=
  ⟨fva l 16, field l 24 2, field l 26 2, field l 28 2, field l 30 1, fbit l 31 0, fbit l 31 1, field l 32 4,
   field l 36 4, field l 40 4, field l 44 4, field l 48 4,
   (List.range (min (field l 30 1) ((64 * len - 56) / 8))).map (fun i => field l (56 + 8 * i) 8)⟩

def parseAccOpen (l : List Byte) : AccOpenParams :=
  ⟨field l 16 1 % 8, field l 17 1, field l 18 1, field l 20 2, field l 22 2, field l 24 4⟩

def parseAccClose (l : List Byte) : AccCloseParams :=
  ⟨field l 16 1 % 8, fbit l 17 0, fbit l 17 1, field l 18 2, field l 20 4, field l 24 4⟩

def parseSignal (l : List Byte) : SignalParams := ⟨field l 16 1, field l 17 1, field l 18 1⟩

def parseWait (l : List Byte) : WaitParams := ⟨field l 16 1, field l 20 4, field l 24 4⟩

def parseMbx (l : List Byte) : MbxAccessParams := ⟨field l 16 1, field l 17 1, field l 20 4, field l 24 4⟩

def parseLookup (l : List Byte) : LookupParams :=
  ⟨fva l 16, field l 24 2, fbit l 26 0, fbit l 26 1, fbit l 26 2, field l 27 1 % 4, field l 28 2 % 2 ^ 14, field l 30 1,
   field l 32 2, fva l 40, field l 48 8, fva l 56⟩

def parseSort (l : List Byte) : SortParams :=
  ⟨fva l 16, field l 24 2, field l 26 1, fbit l 27 0, fbit l 27 1, fbit l 27 2, fva l 32, field l 40 8, fva l 48,
   fva l 64, field l 72 8, fva l 80⟩

def parseExchange (l : List Byte) : ExchangeParams :=
  ⟨fva l 16, fva l 24, field l 32 8, field l 40 2 % 2 ^ 14, field l 42 1, field l 44 2, fbit l 46 0⟩

def parseScatter (l : List Byte) : ScatterParams :=
  ⟨fva l 16, fva l 24, field l 32 8, fbit l 40 0, fbit l 40 1, field l 41 1 % 4, fva l 48⟩

def parseTable (l : List Byte) : TableParams :=
  ⟨field l 16 2 % 4096, field l 18 1, field l 19 1, field l 20 2, field l 22 1, fbit l 23 0, fbit l 23 1, fbit l 23 7,
   field l 24 8, fva l 32, field l 40 8, field l 48 2 % 2 ^ 14, field l 50 1, field l 52 2, fva l 56⟩

def parsePromote (l : List Byte) : PromoteParams :=
  ⟨field l 16 2 % 2 ^ 14, field l 18 1, fbit l 19 0, fbit l 19 1, fbit l 19 2, field l 20 2, field l 24 4, field l 28 4,
   field l 32 4, field l 36 4, fva l 40, fva l 48, fva l 56⟩

def parseRefresh (l : List Byte) : RefreshParams :=
  ⟨field l 16 2 % 2 ^ 14, field l 18 1, fbit l 19 0, fbit l 19 1, field l 20 2, fva l 24⟩

def parseShard (l : List Byte) : ShardParams :=
  ⟨field l 16 2, field l 18 1, field l 19 1, field l 20 1, field l 21 1, field l 22 1, fbit l 23 0, fbit l 23 1,
   fbit l 23 7, field l 24 8, fva l 32, fva l 40, field l 48 2, field l 50 2 % 2 ^ 14, field l 52 2, field l 54 1,
   field l 55 1 % 4, field l 56 4, field l 60 2⟩

def parseUpdate (l : List Byte) : UpdateParams :=
  ⟨fva l 16, field l 24 2, field l 26 1, field l 27 1 % 16, field l 28 4, field l 32 2 % 2 ^ 14, field l 34 1,
   fbit l 35 0, fbit l 35 1, fbit l 35 2, field l 36 2⟩

def parseFetch (l : List Byte) : FetchParams :=
  ⟨field l 16 2, field l 18 1, fbit l 19 0, field l 20 4, fva l 24, field l 32 4, field l 36 1 % 4, field l 37 1⟩

def parseGroup (l : List Byte) : GroupParams :=
  ⟨field l 16 2 % 2 ^ 14, field l 18 1, fbit l 19 7, field l 20 2, fva l 24⟩

def parseColl (l : List Byte) : CollParams :=
  ⟨field l 16 2 % 2 ^ 14, field l 18 1, fbit l 19 0, fbit l 19 1, fbit l 19 2, fbit l 19 3, fbit l 19 4, field l 20 2,
   field l 22 1, field l 23 1 % 16, field l 23 1 / 16, field l 24 4, field l 28 1, field l 29 1, field l 30 1,
   field l 31 1 % 4, fva l 32, field l 40 8, fva l 48, field l 56 1, field l 58 2⟩

def parseA2a (l : List Byte) : A2aParams :=
  ⟨field l 16 2 % 2 ^ 14, field l 18 1, field l 20 2, fva l 24, fva l 32, fva l 40, field l 48 8, fva l 56⟩

def parsePermute (l : List Byte) : PermuteParams :=
  ⟨field l 16 2 % 2 ^ 14, field l 18 1, field l 24 4, fva l 32, fva l 40, fva l 48, field l 56 8⟩

def parseCancel (l : List Byte) : CancelParams :=
  ⟨field l 16 2 % 2 ^ 14, field l 18 1, fbit l 19 0, field l 20 2⟩

def parseAttend (l : List Byte) : AttendParams :=
  ⟨field l 16 1, field l 17 1 % 16, field l 17 1 / 16, field l 18 1 % 16, fbit l 19 0, fbit l 19 1, fbit l 19 2,
   fbit l 19 3, fbit l 19 4, fbit l 19 5, field l 20 2, field l 22 2, field l 24 1, field l 25 1, field l 26 1,
   field l 27 1, field l 28 4, field l 32 4, field l 36 2, fva l 40, fva l 48, field l 56 8, field l 64 4, fva l 72,
   field l 80 8⟩

def parsePageEdit (l : List Byte) : PageEditParams :=
  ⟨field l 16 2, field l 18 1, field l 20 4, field l 24 4, fva l 32⟩

def parseMap (l : List Byte) : MapParams :=
  ⟨fva l 16, field l 24 8, field l 32 2, fbit l 34 0, fbit l 34 1, fbit l 34 2, fbit l 34 3, fbit l 34 4, field l 35 1,
   field l 36 1⟩

def parseMigrate (l : List Byte) : MigrateParams := ⟨field l 16 2, field l 18 1, field l 19 1⟩

def parseLend (l : List Byte) : LendParams :=
  ⟨field l 16 2 % 2 ^ 14, field l 18 1, field l 19 1, field l 20 4⟩

def parseSnapshot (l : List Byte) : SnapshotParams :=
  ⟨field l 16 2, field l 18 2, field l 20 1, field l 21 1, field l 24 4, field l 32 8, field l 40 8⟩

def parseSend (l : List Byte) : SendParams :=
  ⟨field l 16 2 % 2 ^ 14, field l 18 1, field l 19 1 % 4, fva l 24, field l 32 4⟩

def parseRecv (l : List Byte) : RecvParams :=
  ⟨field l 16 2, field l 18 1, field l 19 1 % 4, fva l 24, field l 32 4⟩

/-- The parameters of a packet by its opcode (R89): `bad` for a reserved opcode. -/
def parseParams (op len : Nat) (l : List Byte) : Params :=
  match op with
  | 0x0101 => .load (parseCopy l)
  | 0x0102 => .store (parseCopy l)
  | 0x0103 => .matmul (parseMatmul l)
  | 0x0104 => .vkern (parseVkern l len)
  | 0x0105 => .accOpen (parseAccOpen l)
  | 0x0106 => .accClose (parseAccClose l)
  | 0x0107 => .fence ⟨field l 16 1⟩
  | 0x0108 => .signal (parseSignal l)
  | 0x0109 => .wait (parseWait l)
  | 0x010A => .mbxAccess (parseMbx l)
  | 0x0201 => .lookupPool (parseLookup l)
  | 0x0202 => .sortDedup (parseSort l)
  | 0x0203 => .exchange (parseExchange l)
  | 0x0204 => .scatterUpdate (parseScatter l)
  | 0x0205 => .promote (parsePromote l)
  | 0x0206 => .demote (parsePromote l)
  | 0x0207 => .refresh (parseRefresh l)
  | 0x0208 => .tableDefine (parseTable l)
  | 0x0301 => .shardDefine (parseShard l)
  | 0x0302 => .update (parseUpdate l)
  | 0x0303 => .fetch (parseFetch l)
  | 0x0304 => .revert ⟨field l 16 2, field l 20 4⟩
  | 0x0305 => .normReduce (parseUpdate l)
  | 0x0401 => .groupDefine (parseGroup l)
  | 0x0402 => .allReduce (parseColl l)
  | 0x0403 => .reduceScatter (parseColl l)
  | 0x0404 => .allGather (parseColl l)
  | 0x0405 => .broadcast (parseColl l)
  | 0x0406 => .allToAllV (parseA2a l)
  | 0x0407 => .permute (parsePermute l)
  | 0x0408 => .bucketCancel (parseCancel l)
  | 0x0501 => .attend (parseAttend l)
  | 0x0502 => .pageEdit (parsePageEdit l)
  | 0x0601 => .map (parseMap l)
  | 0x0602 => .unmap ⟨field l 16 2⟩
  | 0x0603 => .migrate (parseMigrate l)
  | 0x0604 => .pin ⟨field l 16 2⟩
  | 0x0605 => .unpin ⟨field l 16 2⟩
  | 0x0606 => .lend (parseLend l)
  | 0x0607 => .revoke ⟨field l 18 1⟩
  | 0x0608 => .snapshot (parseSnapshot l)
  | 0x0700 => .nop
  | 0x0701 => .contextCreate ⟨field l 16 1, field l 24 8⟩
  | 0x0702 => .contextDestroy ⟨field l 16 1⟩
  | 0x0703 => .configRead ⟨field l 16 1, fva l 24, field l 32 4⟩
  | 0x0704 => .telemetryRead ⟨field l 16 4, fva l 24, field l 32 4⟩
  | 0x0705 => .errlogRead ⟨field l 16 4, field l 20 4, fva l 24⟩
  | 0x0706 => .traceControl ⟨field l 16 1, field l 20 4, field l 24 8⟩
  | 0x0707 => .tileRetire ⟨field l 16 1⟩
  | 0x0708 => .remountPrepare ⟨field l 16 1, field l 18 2 % 2 ^ 14⟩
  | 0x0801 => .send (parseSend l)
  | 0x0802 => .recvPost (parseRecv l)
  | 0x0803 => .routeSet ⟨field l 16 2, field l 20 4, fva l 24⟩
  | 0x0804 => .linkControl ⟨field l 16 1, field l 17 1⟩
  | 0x0805 => .macFilterSet ⟨field l 16 1, field l 17 1, field l 18 2, field l 20 2, fva l 24⟩
  | 0x0806 => .statsRead ⟨field l 16 1, fva l 24⟩
  | _ => .bad

/-- Where the parameters of an opcode end, in bytes from the packet's start: what a gate trailer must not overlap
(R67). Derived from the chapters' encodings; VKERN's arguments are checked by R181. -/
def paramsEnd (op : Nat) : Nat :=
  match op with
  | 0x0101 => 50 | 0x0102 => 50 | 0x0103 => 56 | 0x0104 => 52 | 0x0105 => 28 | 0x0106 => 28
  | 0x0107 => 17 | 0x0108 => 19 | 0x0109 => 28 | 0x010A => 28
  | 0x0201 => 64 | 0x0202 => 88 | 0x0203 => 47 | 0x0204 => 56 | 0x0205 => 64 | 0x0206 => 64 | 0x0207 => 32
  | 0x0208 => 64
  | 0x0301 => 62 | 0x0302 => 38 | 0x0303 => 38 | 0x0304 => 24 | 0x0305 => 38
  | 0x0401 => 32 | 0x0402 => 60 | 0x0403 => 60 | 0x0404 => 60 | 0x0405 => 60 | 0x0406 => 64 | 0x0407 => 64
  | 0x0408 => 22
  | 0x0501 => 88 | 0x0502 => 40
  | 0x0601 => 37 | 0x0602 => 18 | 0x0603 => 20 | 0x0604 => 18 | 0x0605 => 18 | 0x0606 => 24 | 0x0607 => 19
  | 0x0608 => 48
  | 0x0701 => 32 | 0x0702 => 17 | 0x0703 => 36 | 0x0704 => 36 | 0x0705 => 32 | 0x0706 => 32 | 0x0707 => 17
  | 0x0708 => 20
  | 0x0801 => 36 | 0x0802 => 36 | 0x0803 => 32 | 0x0804 => 18 | 0x0805 => 32 | 0x0806 => 32
  | _ => 16

/-- The least LEN of an opcode, in units: its parameters must lie within the packet (R66 and the chapters). -/
def leastLen (op : Nat) : Nat := (paramsEnd op + 63) / 64

end Sys2Proof.Machine
end

