-- ==== Sys2Proof/Machine/TileStart.lean ====
section
/-! DEFINITION. When a tile's command starts (R127 to R130, R137, R140, R142, R145, R147, R157, R160): the plan of each command,
which field is out of range, what it touches; and the order and hazard conditions. -/

namespace Sys2Proof.Machine

/-- The tile's units: memory port, array, drain, vector engine (bits 0 to 3 of FENCE's MASK), sequencer. -/
inductive TUnit where
  | port | array | drain | vector | seq
  deriving DecidableEq, Repr

/-- The unit's bit in FENCE's MASK. -/
def TUnit.bit : TUnit → Nat
  | .port => 0
  | .array => 1
  | .drain => 2
  | .vector => 3
  | .seq => 4

/-- The last address of the tile store (R126). -/
def tsLast : Nat := 0x3FFFFF

/-- A tile-store address field: bits [21:0] (R126). -/
def tsAddr (a : Nat) : Nat := a % 2 ^ 22

/-- The format of accumulator entries and the shape of accumulator memory in force on a tile (R137, R144). -/
structure AccMode where
  legacy : Bool
  bf16 : Bool
  rows : Nat
  deriving DecidableEq, Repr

/-- The accumulator mode of tile `n`. -/
def Block.accMode (b : Block) (n : Nat) : AccMode :=
  let l := b.flag .TILE_CFG_ACC_MODE n
  ⟨l, l && b.flag .TILE_CFG_LEGACY_BF16 n, b.rget .TILE_CFG_LEGACY_ROWS n⟩

/-- E: the bytes of an accumulator entry (R142, R144). -/
def AccMode.entry (m : AccMode) : Nat := if m.bf16 then 2 else 4

/-- S: the number of legacy slots (R144). -/
def AccMode.slots (m : AccMode) : Nat := 524288 / (m.rows * 64 * m.entry)

/-- What a command needs of its tile. `bad` is the offset of the first field out of range (R127); `spans` its tile-store
ranges; `key` the group (0 to 7) or legacy slot (8 and above) that it names; `alone` whether every earlier command must
have completed. -/
structure Plan where
  unit : TUnit
  bad : Option Nat := none
  spans : List (Nat × Nat × Bool) := []
  key : Option Nat := none
  alone : Bool := false
  deriving DecidableEq, Repr

/-- The first of the named fields that is out of range. -/
def firstBad (l : List (Bool × Nat)) : Option Nat := (l.find? (fun p => p.1)).map (fun p => p.2)

/-- The interval of a strided operand in the tile store. -/
def spanOf (a rows stride len : Nat) : Nat × Nat := (a, a + (rows - 1) * stride + len - 1)

/-- LOAD and STORE (R161). -/
def planCopy (p : CopyParams) (load : Bool) : Plan :=
  let s := spanOf (tsAddr p.tsAddr) p.rows p.tsStride p.rowBytes
  { unit := .port
    bad := firstBad [(decide (p.rowBytes < 16 ∨ 4194304 < p.rowBytes ∨ p.rowBytes % 16 ≠ 0), 28),
      (decide (p.rows = 0 ∨ 65536 < p.rows), 32),
      (decide (p.tsStride % 16 ≠ 0 ∨ (1 < p.rows ∧ p.tsStride < p.rowBytes)), 36),
      (decide (p.hint = 3 ∧ p.useCount = 0), 49), (decide (tsLast < s.2), 24)]
    spans := [(s.1, s.2, load)] }

end Sys2Proof.Machine

namespace Sys2Proof

open Machine

/-- Whether a MATMUL pairs FP32 operands, which takes no scales and no chunk length (R112). -/
def MatmulParams.isF32 (p : MatmulParams) : Bool := decide (p.fmtA = 0 ∧ p.fmtB = 0)

/-- Whether operand A has scales (R107). -/
def MatmulParams.hasA (p : MatmulParams) : Bool := !p.isF32 && decide (p.saAddr ≠ 0xFFFFFFFF)

/-- Whether operand B has scales. -/
def MatmulParams.hasB (p : MatmulParams) : Bool := !p.isF32 && decide (p.sbAddr ≠ 0xFFFFFFFF)

/-- G: the chunk and group length. -/
def MatmulParams.chunk (p : MatmulParams) : Nat := if p.g = 1 then 64 else if p.g = 2 then 32 else 128

/-- How many chunks K has (R109). -/
def MatmulParams.chunks (p : MatmulParams) : Nat := ceilDiv p.k p.chunk

end Sys2Proof

namespace Sys2Proof.Machine

/-- Whether R110 permits a pairing of format codes. -/
def paired (a b : Nat) : Bool :=
  decide (a = 0 ∧ b = 0) || decide (a = 1 ∧ b = 1) || decide (a = 2 ∧ b = 2) || (decide (a = 3 ∨ a = 4) && decide (b = 3 ∨ b = 4)) ||
    decide (a = 5 ∧ b = 5) || decide (a = 6 ∧ b = 6)

end Sys2Proof.Machine

namespace Sys2Proof

open Machine

/-- The group or slot that a MATMUL names (R145). -/
def MatmulParams.key (p : MatmulParams) (m : AccMode) : Nat := if m.legacy then 8 + p.rowOff else p.group

end Sys2Proof

namespace Sys2Proof.Machine

/-- MATMUL (R107, R110, R134, R145). -/
def planMatmul (p : MatmulParams) (m : AccMode) : Plan :=
  let rowB := if p.nMajor then p.k else p.n
  let cntB := if p.nMajor then p.n else p.k
  let a := spanOf (tsAddr p.aAddr) p.m p.aStride (packedBytes p.fmtA p.k)
  let b := spanOf (tsAddr p.bAddr) cntB p.bStride (packedBytes p.fmtB rowB)
  let sw := fun (f : Nat) => if f = 0 then 4 else 2
  let sa := spanOf (tsAddr p.saAddr) 1 0 (p.m * p.chunks * sw p.sfmtA)
  let sb := spanOf (tsAddr p.sbAddr) 1 0 (p.n * p.chunks * sw p.sfmtB)
  { unit := .array
    bad := firstBad [(decide (p.m = 0 ∨ 2048 < p.m), 32), (decide (p.n = 0 ∨ 1024 < p.n), 34),
      (decide (p.k = 0 ∨ 65536 < p.k), 36), (!paired p.fmtA p.fmtB, 40),
      (p.hasA && decide (1 < p.sfmtA) || p.hasB && decide (1 < p.sfmtB), 41), (!p.isF32 && decide (p.g = 3), 42),
      (m.legacy && decide (m.slots ≤ p.rowOff), 44),
      (decide (p.aStride % 16 ≠ 0 ∨ p.aStride < packedBytes p.fmtA p.k), 48),
      (decide (p.bStride % 16 ≠ 0 ∨ p.bStride < packedBytes p.fmtB rowB), 52),
      (decide (tsLast < a.2), 16), (decide (tsLast < b.2), 20), (p.hasA && decide (tsLast < sa.2), 24),
      (p.hasB && decide (tsLast < sb.2), 28)]
    spans := [(a.1, a.2, false), (b.1, b.2, false)] ++ (if p.hasA then [(sa.1, sa.2, false)] else []) ++
      (if p.hasB then [(sb.1, sb.2, false)] else [])
    key := some (p.key m) }

end Sys2Proof.Machine

namespace Sys2Proof

open Machine

/-- The group or slot that an ACC_OPEN names. -/
def AccOpenParams.key (p : AccOpenParams) (m : AccMode) : Nat := if m.legacy then 8 + p.firstRow else p.group

end Sys2Proof

namespace Sys2Proof.Machine

/-- ACC_OPEN (R137, R142, R145). -/
def planOpen (p : AccOpenParams) (m : AccMode) : Plan :=
  let s := spanOf (tsAddr p.initAddr) 1 0 (p.rows * 64 * m.entry)
  { unit := .drain
    bad := firstBad [(if m.bf16 then decide (p.entry ≠ 1) else decide (p.entry ≠ 0 ∧ p.entry ≠ 7), 17),
      (decide (1 < p.init), 18),
      (if m.legacy then decide (m.slots ≤ p.firstRow) else decide (1023 < p.firstRow), 20),
      (if m.legacy then decide (p.rows ≠ m.rows) else decide (p.rows = 0 ∨ 1024 < p.rows), 22),
      (!m.legacy && decide (1024 < p.firstRow + p.rows), 20), (decide (p.init = 1 ∧ tsLast < s.2), 24)]
    spans := if p.init = 1 then [(s.1, s.2, false)] else []
    key := some (p.key m) }

end Sys2Proof.Machine

namespace Sys2Proof

open Machine

/-- The group or slot that an ACC_CLOSE names. -/
def AccCloseParams.key (p : AccCloseParams) (m : AccMode) : Nat := if m.legacy then 8 + p.slot else p.group

end Sys2Proof

namespace Sys2Proof.Machine

/-- ACC_CLOSE (R142, R145): `rows` those of the group or slot. -/
def planClose (p : AccCloseParams) (m : AccMode) (rows : Nat) : Plan :=
  let s := spanOf (tsAddr p.dest) (max 1 rows) p.destStride (64 * m.entry)
  { unit := .drain
    bad := firstBad [(m.legacy && decide (m.slots ≤ p.slot), 18),
      (!p.discard && decide (p.destStride % 16 ≠ 0 ∨ p.destStride < 64 * m.entry), 24)]
    spans := if p.discard then [] else [(s.1, s.2, true)]
    key := some (p.key m) }

/-- VKERN (R181, R183): `room` is where its arguments must end, in bytes from the packet's start. -/
def planVkern (p : VkernParams) (room : Nat) : Plan :=
  let range := fun (lo hi : Nat) (w : Bool) => if hi < lo then [] else [(lo, hi, w)]
  let badRange := fun (lo hi : Nat) => decide (lo ≤ hi ∧ tsLast < hi)
  { unit := .vector
    bad := firstBad [(decide (p.codeVa % 8 ≠ 0), 16), (decide (8192 < p.codeWords), 24), (decide (8191 < p.imemAddr), 26),
      (decide (8191 < p.entry), 28), (decide (9 < p.nargs) || decide (room < 56 + 8 * p.nargs), 30),
      (decide (8192 < p.imemAddr + p.codeWords), 26), (badRange p.rdLo p.rdHi, 32), (badRange p.wrLo p.wrHi, 40)]
    spans := range p.rdLo p.rdHi false ++ range p.wrLo p.wrHi true }

/-- MBX_ACCESS (R160). -/
def planMbx (p : MbxAccessParams) : Plan :=
  { unit := .seq, alone := true
    bad := firstBad [(decide (5 < p.op), 16), (decide (15 < p.mbx), 17),
      (decide (p.resultAddr ≠ 0xFFFFFFFF ∧ (p.resultAddr % 8 ≠ 0 ∨ 0x3FFFF8 < p.resultAddr)), 24)]
    spans := if p.resultAddr = 0xFFFFFFFF then [] else [(p.resultAddr, p.resultAddr + 7, true)] }

/-- SIGNAL (R157). -/
def planSignal (p : SignalParams) : Plan :=
  { unit := .seq, alone := true
    bad := firstBad [(decide (1 < p.kind), 16), (decide ((if p.kind = 0 then 63 else 15) < p.index), 17),
      (decide ((if p.kind = 0 then 15 else 31) < p.flag), 18)] }

end Sys2Proof.Machine

namespace Sys2Proof

open Machine

/-- The plan of a tile's command; `room` is the packet's length in bytes without its gate trailer, `rows` gives the rows of a
group. -/
def Params.plan (p : Params) (m : AccMode) (room : Nat) (rows : Nat → Nat) : Plan :=
  match p with
  | .load q => planCopy q true
  | .store q => planCopy q false
  | .matmul q => planMatmul q m
  | .vkern q => planVkern q room
  | .accOpen q => planOpen q m
  | .accClose q => planClose q m (rows (q.key m))
  | .signal q => planSignal q
  | .wait q => { unit := .seq, bad := firstBad [(decide (15 < q.flag), 16)] }
  | .mbxAccess q => planMbx q
  | _ => { unit := .seq }

end Sys2Proof

namespace Sys2Proof.Machine

/-- A group or legacy slot of a tile. -/
def Block.group (b : Block) (n k : Nat) : Group := Sparse.get (always Group.none) (b.tile n).groups k

/-- The bytes of a packet before its gate trailer, if it has one (R67). -/
def Cmd.room (c : Cmd) : Nat := 64 * c.len - (if bitAt c.flags 4 || bitAt c.flags 5 then 16 else 0)

/-- The plan of a command in flight; a packet of another context is out of range as a whole (R127). -/
def Block.plan (b : Block) (c : Cmd) : Plan :=
  let p := c.params.plan (b.accMode c.tile) c.room (fun k => (b.group c.tile k).rows)
  if c.ctx ≠ b.rget .TILE_CFG_CTX c.tile then { unit := p.unit, bad := some 0xFFFF, alone := p.alone } else p

/-- The commands of the tile dispatched before `c` and not completed, in the order of their dispatch. -/
def Block.earlier (b : Block) (c : Cmd) : List Cmd :=
  (b.cmds.takeWhile (fun (x : Cmd) => decide (x.id ≠ c.id))).filter
    (fun (x : Cmd) => decide (x.opcode / 256 = 1) && decide (x.tile = c.tile) && decide (x.phase ≠ .queued) && x.joined)

/-- Whether two ranges overlap and one of them is written (R129). -/
def clash (x y : Nat × Nat × Bool) : Bool := (x.2.2 || y.2.2) && decide (x.1 ≤ y.2.1) && decide (y.1 ≤ x.2.1)

/-- Whether the array and the drain would meet: in the same bank in native mode, anywhere in legacy mode (R140, R147). -/
def bankClash (m : AccMode) (p q : Plan) : Bool :=
  decide ((p.unit = .array ∧ q.unit = .drain) ∨ (p.unit = .drain ∧ q.unit = .array)) &&
    (m.legacy || decide (p.key.map (· / 4) = q.key.map (· / 4)))

/-- Whether an ACC_CLOSE of the tile waits for its replay: it has left the drain (R153). -/
def Block.replayWaits (b : Block) (c : Cmd) : Bool := (b.tile c.tile).groups.any (fun g => decide (g.2.closing = some c.id))

/-- The conditions of R128, R129, R140, R147, R153, R157, R159, R160 and R397 for a command of a tile; `noArray` leaves the
array's being busy aside (R132). -/
def Block.tileReady (b : Block) (c : Cmd) (noArray : Bool := false) : Bool :=
  let e := b.earlier c
  let p := b.plan c
  let st := b.rget .TILE_STATUS_STATE c.tile
  let m := b.accMode c.tile
  decide (st ≠ 2 ∧ st ≠ 3) &&
  e.all (fun (x : Cmd) => decide (x.phase ≠ .waiting)) &&
  !b.jobs.any (fun j => decide (j.tile = c.tile) && !j.behind.contains c.id) &&
  e.all (fun (x : Cmd) => decide ((b.plan x).unit ≠ .seq)) &&
  (!p.alone || e.isEmpty) &&
  (decide (p.unit = .seq) || (noArray && decide (p.unit = .array)) ||
    e.all (fun (x : Cmd) => decide ((b.plan x).unit ≠ p.unit) || b.replayWaits x)) &&
  (p.bad.isSome ||
    (e.all (fun (x : Cmd) => !p.spans.any (fun s => x.spans.any (clash s)) &&
        (decide (p.key = none) || decide ((b.plan x).key ≠ p.key)) && !bankClash m p (b.plan x)) &&
      (decide (p.unit ≠ .array) || !(b.tile c.tile).groups.any (fun g => g.2.closing.isSome))))

/-- The next command to start on a tile, once it is a MATMUL that waits for nothing but the array, is noted with the time
(R132). -/
def Block.notePrim (b : Block) (n : Nat) : Block :=
  match b.cmds.find? (fun (x : Cmd) => decide (x.opcode / 256 = 1) && decide (x.tile = n) && decide (x.phase = .waiting)) with
  | some c =>
    if c.opcode = 0x0103 ∧ ((b.tile n).prim.map (fun p => p.1)) ≠ some c.id ∧ b.mayStart ∧ b.tileReady c true then
      b.onTile n (fun t => { t with prim := some (c.id, b.clk.t) })
    else b
  | none => b

/-- A row of a tile's command. Out of range, it ends with RANGE and nothing is executed (R127); otherwise its ranges are
held until it completes (R129). -/
def Block.tileCmd (b : Block) (id : Nat) (p : Params) (go : Cmd → Block → Block) : Block :=
  b.runCmd id p (fun c b => b.tileReady c) (fun c b =>
    let q := b.plan c
    let b' := match q.bad with
      | some d => b.finish id 0x0100 d 0
      | none => go c (b.updCmd id (fun c => { c with spans := q.spans, phase := .running }))
    b'.notePrim c.tile)

end Sys2Proof.Machine
end

