-- ==== Sys2Proof/Machine/Spaog.lean ====
section
/-! DEFINITION. The Spaog front end: rings and their registers (R60 to R63, R75, R76), fetching (R71 to R78), completion
records and interrupts (R83 to R87, R90), dispatch (R65 to R70, R79 to R83). -/

namespace Sys2Proof.Machine

/-! ### Rings -/

/-- A submission ring's state beside its registers. -/
def Block.sqAux (b : Block) (n : Nat) : SqAux := Sparse.get (always ⟨0, false, 0, 0⟩) b.sq n

/-- It replaced. -/
def Block.setSq (b : Block) (n : Nat) (x : SqAux) : Block :=
  { b with sq := Sparse.set (always ⟨0, false, 0, 0⟩) b.sq n x }

/-- A completion ring's state beside its registers. -/
def Block.cqAux (b : Block) (n : Nat) : CqAux := Sparse.get (always ⟨0, 0, 0, false⟩) b.cq n

/-- It replaced. -/
def Block.setCq (b : Block) (n : Nat) (x : CqAux) : Block :=
  { b with cq := Sparse.set (always ⟨0, 0, 0, false⟩) b.cq n x }

/-- The capacity of a submission ring in units (R60). -/
def Block.sqUnits (b : Block) (n : Nat) : Nat := 2 ^ b.rget .SPAOG_SQ_CFG_SIZE_LOG2 n

/-- Free slots of a completion ring (R83). -/
def Block.cqFree (b : Block) (q : Nat) : Nat :=
  2 ^ b.rget .SPAOG_CQ_CFG_SIZE_LOG2 q -
    (b.rget .SPAOG_CQ_TAIL_WRITTEN q + 2 ^ 32 - b.rget .SPAOG_CQ_HEAD_CONSUMED q) % 2 ^ 32 - (b.cqAux q).reserved

/-- A slot of a completion ring is reserved. -/
def Block.reserve (b : Block) (q : Nat) : Block :=
  b.setCq q { b.cqAux q with reserved := (b.cqAux q).reserved + 1 }

/-- A reserved slot is released. -/
def Block.unreserve (b : Block) (q : Nat) : Block :=
  b.setCq q { b.cqAux q with reserved := (b.cqAux q).reserved - 1 }

/-! ### Completion records -/

/-- A completion record (R84) before it is written: its ring and what the record holds, the context and source of its
cut list entry, whether the packet asks for its interrupt, and which of its two writes fails (R87): 1 the record, 2 the
tail write-back. -/
structure Rec where
  cq : Nat
  ring : Nat
  seq : Nat
  status : Nat
  detail : Nat
  cookie : Nat
  engine : Nat
  irq : Bool
  ctx : Nat
  src : Nat
  fail : Nat
  deriving DecidableEq, Repr

/-- The 32 bytes of a record (R84). -/
def Rec.bytes (r : Rec) (now : Nat) : List Byte :=
  bytesOf 4 r.seq ++ bytesOf 2 r.status ++ bytesOf 2 r.detail ++ bytesOf 8 now ++ bytesOf 8 r.cookie ++ bytesOf 8 r.engine

/-- A completion ring signals its vector; count and timer restart (R90). -/
def Block.signalCq (b : Block) (q : Nat) : Block :=
  (b.setCq q { b.cqAux q with unsignalled := 0 }).fireVector (b.rget .SPAOG_CQ_CFG_VECTOR q)

/-- A record has been written: the ring signals at once or counts it (R90). -/
def Block.coalesce (b : Block) (q : Nat) (irq : Bool) : Block :=
  let x := b.cqAux q
  let n := x.unsignalled + 1
  if irq ∨ b.rget .SPAOG_CQ_CFG_COAL_COUNT q ≤ n then b.signalCq q
  else b.setCq q { x with unsignalled := n, firstUnsig := if n = 1 then b.clk.t else x.firstUnsig }

/-- A completion ring enters its fault state (R87): an entry for the ring; `lost` counts a discarded record. -/
def Block.cqFault (b : Block) (q ring seq status : Nat) (lost : Bool) : Block :=
  let b := b.rset .SPAOG_CQ_CFG_FAULT q 1
  let b := if lost then b.countSat .SPAOG_CQ_CFG_LOST q 1 else b
  b.accessError 0x056 (some (ring, seq)) status 0

/-- Bytes of the front end written to module memory of a context (R64). -/
def Block.frontWrite (b : Block) (ctx va : Nat) (bs : List Byte) : Except AccErr Unit × Block :=
  writeVa ⟨⟨0x056, ctx, none, none⟩, 0, 0, 10⟩ va bs b

/-- Whether a failure of a write, which the row reports, is one that R87 names: the host refuses a CXL.cache write, or the
page of module memory lies in a lower tier. -/
def Block.mayRefuse (b : Block) (loc : Bool) (ctx va : Nat) : Bool :=
  if loc then b.flag .CAPS_HOST_CXL && b.flag .HITCH_CFG_CR_PATH
  else match b.leafAt ctx va with
    | some (_, lf) => decide (lf.tier ≠ 0)
    | none => true

/-- The tail write-back of a completion ring (R85): its count of records, in 8 bytes. During a cut, a write-back to host
memory waits for the release (R53). -/
def Block.tailWrite (b : Block) (q ring : Nat) (refused : Bool) : Block :=
  if b.flag .SPAOG_CQ_TAILWB_EN q then
    let a := b.rget .SPAOG_CQ_TAILWB_ADDR q * 8
    let bs := bytesOf 8 (b.rget .SPAOG_CQ_TAIL_WRITTEN q)
    let ctx := b.rget .SPAOG_CQ_CFG_CTX q
    let loc := b.flag .SPAOG_CQ_TAILWB_LOC q
    if loc ∧ b.cutActive then b.setCq q { b.cqAux q with tailDue := true }
    else if refused ∧ b.mayRefuse loc ctx (a % 2 ^ 56) then b.cqFault q ring 0 0 false
    else if loc then b.hostWrite a bs
    else
      match b.frontWrite ctx (a % 2 ^ 56) bs with
      | (.ok _, b) => b
      | (.error _, b) => b.cqFault q ring 0 0 false
  else b

/-- The entry of the cut list that an event adds (R51, R52, R54, R55). -/
def Block.cutEntry (b : Block) (e : CutEntry) : Block :=
  if 1024 ≤ b.hitch.cuts.length then b.countSat .HITCH_CUT_STATUS_OVERFLOW 0 1
  else
    let b := { b with hitch := { b.hitch with cuts := b.hitch.cuts ++ [e] } }
    b.rset .HITCH_CUT_STATUS_COUNT 0 b.hitch.cuts.length

/-- A record that a cut keeps from host memory: a COMPLETION entry in pause mode (R52), or held in ride-through mode
(R53). -/
def Block.cutRecord (b : Block) (r : Rec) : Block :=
  if b.flag .HITCH_STATUS_PAUSED then
    (b.cutEntry ⟨2, b.rget .HITCH_STATUS_LAST_REASON, r.ring, r.seq, 0, 0, r.src, r.ctx, b.hitch.lastCutT, r.bytes b.now⟩).unreserve r.cq
  else
    let b := { b with hitch := { b.hitch with held := b.hitch.held ++ [⟨r.cq, r.bytes b.now, r.irq⟩] } }
    if 4096 ≤ b.hitch.held.length then (b.rset .HITCH_STATUS_HOLD_FULL 0 1).rset .HITCH_STATUS_PAUSED 0 1 else b

/-- A record stands in its slot: the slot counts as written, the tail write-back and the interrupt follow (R85, R90). -/
def Block.recordWritten (b : Block) (q ring : Nat) (irq refused : Bool) : Block :=
  let b := (b.unreserve q).count .SPAOG_CQ_TAIL_WRITTEN q 1
  (b.tailWrite q ring refused).coalesce q irq

/-- The address of the next record of a completion ring. -/
def Block.nextRecord (b : Block) (q : Nat) : Nat :=
  b.rget .SPAOG_CQ_BASE_ADDR q * 4096 +
    32 * ((b.rget .SPAOG_CQ_TAIL_WRITTEN q + (b.hitch.held.filter (fun h => decide (h.cq = q))).length) %
      2 ^ b.rget .SPAOG_CQ_CFG_SIZE_LOG2 q)

/-- A record is posted in the slot reserved for it (R83 to R87, R52, R53). -/
def Block.postRecord (b : Block) (r : Rec) : Block :=
  let q := r.cq
  let loc := b.flag .SPAOG_CQ_BASE_LOC q
  let ctx := b.rget .SPAOG_CQ_CFG_CTX q
  let a := b.nextRecord q
  if b.flag .SPAOG_CQ_CFG_FAULT q then (b.unreserve q).cqFault q r.ring r.seq r.status true
  else if loc ∧ b.cutActive then b.cutRecord r
  else if r.fail = 1 ∧ b.mayRefuse loc ctx (a % 2 ^ 56) then (b.unreserve q).cqFault q r.ring r.seq r.status true
  else if loc then (b.hostWrite a (r.bytes b.now)).recordWritten q r.ring r.irq (decide (r.fail = 2))
  else
    match b.frontWrite ctx (a % 2 ^ 56) (r.bytes b.now) with
    | (.ok _, b) => b.recordWritten q r.ring r.irq (decide (r.fail = 2))
    | (.error .hostCut, b) => b.cutRecord r
    | (.error _, b) => (b.unreserve q).cqFault q r.ring r.seq r.status true

/-- A record that the front end posts itself for ring `n` (R73, R75, R77), if a slot is free; whether it did. -/
def Block.frontRecord (b : Block) (n status detail : Nat) : Block × Bool :=
  let q := b.rget .SPAOG_SQ_CFG_CQ n
  if b.cqFree q = 0 then (b, false)
  else ((b.reserve q).postRecord ⟨q, n, b.rget .SPAOG_SQ_HEAD_SEQ n, status, detail, 0, 0, false,
          b.rget .SPAOG_SQ_CFG_CTX n, 0x056, 0⟩, true)

/-! ### Fetching -/

/-- The unit states of a submission ring (chapter 03). -/
def sqRunning : Nat := 1
def sqStalled : Nat := 2
def sqHalted : Nat := 3

/-- A ring halts (R75): an error-log entry, and a record when a slot is free. -/
def Block.haltSq (b : Block) (n status detail : Nat) : Block :=
  let b := (b.rset .SPAOG_SQ_STATUS_STATE n sqHalted).setSq n { b.sqAux n with early := false }
  let b := b.accessError 0x056 (some (n, b.rget .SPAOG_SQ_HEAD_SEQ n)) status 0
  (b.frontRecord n status detail).1

/-- The fetched packets of a ring that have not been dispatched, oldest first. -/
def Block.queued (b : Block) (n : Nat) : List Cmd :=
  b.cmds.filter (fun (c : Cmd) => decide (c.ring = n) && decide (c.phase = .queued))

/-- The ring's fetched packets are discarded, and its head goes back to the first of them (R54, R76, R497). -/
def Block.discardQueued (b : Block) (n : Nat) : Block :=
  let b := b.setSq n { b.sqAux n with early := false }
  match b.queued n with
  | [] => b
  | c :: _ =>
    let b := (b.rset .SPAOG_SQ_HEAD_SEQ n c.seq).rset .SPAOG_SQ_HEAD_POS n c.pos
    { b with cmds := b.cmds.filter (fun (c : Cmd) => !(decide (c.ring = n) && decide (c.phase = .queued))) }

/-- A doorbell on ring `n` with value `d` (R71). -/
def Block.doorbell (b : Block) (n v : Nat) : Block :=
  let e := b.rget .SPAOG_SQ_HEAD_SEQ n
  let st := b.rget .SPAOG_SQ_STATUS_STATE n
  let d := (v + 2 ^ 32 - e + 1) % 2 ^ 32
  if st = sqHalted ∨ d = 0 ∨ 2 ^ 31 ≤ d then b
  else if b.sqUnits n < d then
    if st = 0 then b.accessError 0x056 (some (n, e)) 0 0 else b.haltSq n 0x0100 0x0006
  else
    let b := (b.rset .SPAOG_SQ_DBVAL_LIMIT n v).setSq n { b.sqAux n with tDb := b.clk.t }
    if st = sqStalled then b.rset .SPAOG_SQ_STATUS_STATE n sqRunning else b

/-- SPAOG_DB (R71). -/
def execSpaogDb (ring : Fin 256) (value : BitVec 32) (s : State) : Host.Outcome State Fault Refusal :=
  s.run (fun b => b.barWrite (0x100000 + 64 * ring.val) (fun b =>
    (b.count .PERF_DOORBELLS_COUNT 0 1).doorbell ring value.toNat))

/-- The unit at position `p` of ring `n` (R63, R64). -/
def Block.readUnit (b : Block) (n p : Nat) : Except AccErr (List Byte) × Block :=
  let a := b.rget .SPAOG_SQ_BASE_ADDR n * 4096 + 64 * (p % b.sqUnits n)
  if b.flag .SPAOG_SQ_BASE_LOC n then (.ok (b.host.readBytes a 64), b.count .PERF_DEV_RD_COUNT 0 1)
  else readVa ⟨⟨0x056, b.rget .SPAOG_SQ_CFG_CTX n, none, none⟩, 1, 0, 10⟩ (a % 2 ^ 56) 64 b

/-- `k` units from position `p` on. -/
def Block.readUnits (b : Block) (n p : Nat) : Nat → Except AccErr (List Byte) × Block
  | 0 => (.ok [], b)
  | k + 1 =>
    match b.readUnit n p with
    | (.error x, b) => (.error x, b)
    | (.ok l, b) =>
      match Block.readUnits b n (p + 1) k with
      | (.error x, b) => (.error x, b)
      | (.ok m, b) => (.ok (l ++ m), b)

/-- The halt of R77 for a failed fetch. -/
def Block.fetchFail (b : Block) (n : Nat) : AccErr → Block
  | .unmapped _ => b.haltSq n 0x0100 0x0008
  | .lost _ => b.haltSq n 0x0300 0x0030
  | .tier _ => b.haltSq n 0x0200 0x0010
  | .revoked => b.haltSq n 0x0200 0x0010
  | .hostCut => b.haltSq n 0x0200 0x0010
  | .internal => b.haltSq n 0x0300 0x0030
  | .fin s d => b.haltSq n s d

/-- The packet that the bytes `l` hold, queued for dispatch (R72). -/
def Block.queuePacket (b : Block) (n len : Nat) (l : List Byte) : Block :=
  let p := b.rget .SPAOG_SQ_HEAD_POS n
  let e := b.rget .SPAOG_SQ_HEAD_SEQ n
  let op := field l 0 2
  let c : Cmd :=
    { id := b.nextId, ring := n, pos := p, seq := e, opcode := op, flags := field l 2 1, len := len, cookie := field l 8 8,
      ctx := b.rget .SPAOG_SQ_CFG_CTX n, cq := b.rget .SPAOG_SQ_CFG_CQ n, tile := b.rget .SPAOG_SQ_CFG_TILE n,
      trailer := parseTrailer l len, params := parseParams op len l, phase := .queued, seenT := b.clk.t, startT := 0,
      result := none, effects := [], cut := none, cutIdx := none, det := false, joined := false, detTile := none, spans := [] }
  let b := (b.rset .SPAOG_SQ_HEAD_POS n ((p + len) % b.sqUnits n)).rset .SPAOG_SQ_HEAD_SEQ n (e + 1)
  { b with cmds := b.cmds ++ [c], nextId := b.nextId + 1 }

/-- The read of the unit at P (R72, R73): the packet is queued, the ring halts, or the doorbell was early. `fail` is 1 when
the read of host memory completes with an error, 2 when the lower tier that holds the ring is late. -/
def Block.fetchUnit (b : Block) (n fail : Nat) : Block :=
  let p := b.rget .SPAOG_SQ_HEAD_POS n
  let loc := b.flag .SPAOG_SQ_BASE_LOC n
  let a := b.rget .SPAOG_SQ_BASE_ADDR n * 4096 + 64 * (p % b.sqUnits n)
  if fail = 1 ∧ loc then b.haltSq n 0x0200 0x0011
  else if fail = 2 ∧ !loc ∧ b.mayRefuse false (b.rget .SPAOG_SQ_CFG_CTX n) (a % 2 ^ 56) then b.haltSq n 0x0200 0x0010
  else
    match b.readUnit n p with
    | (.error x, b) => b.fetchFail n x
    | (.ok u, b) =>
      if field u 4 4 ≠ b.rget .SPAOG_SQ_HEAD_SEQ n then b.setSq n { b.sqAux n with early := true, lastPoll := b.clk.t }
      else
        let b := b.setSq n { b.sqAux n with early := false }
        let len := field u 3 1
        if len = 0 ∨ 4 < len then b.haltSq n 0x0100 0x0002
        else
          match b.readUnits n (p + 1) (len - 1) with
          | (.error x, b) => b.fetchFail n x
          | (.ok m, b) => b.queuePacket n len (u ++ m)

/-- Whether the front end may read the ring's unit at P (R72; fetches from host memory wait during a cut, R77). -/
def Block.mayFetch (b : Block) (n : Nat) : Bool :=
  b.flag .SPAOG_SQ_CFG_ENABLE n && decide (b.rget .SPAOG_SQ_STATUS_STATE n = sqRunning) &&
    reached 32 (b.rget .SPAOG_SQ_HEAD_SEQ n) (b.rget .SPAOG_SQ_DBVAL_LIMIT n) &&
    !(b.cutActive && b.flag .SPAOG_SQ_BASE_LOC n)

/-- The next fetches wait for 250 ns on this ring, and 7.8125 ns on any (R78). -/
def Block.fetchPaced (b : Block) (n : Nat) : Block :=
  { b.setSq n { b.sqAux n with nextFetch := b.clk.t + 4000 } with fetchNext := b.clk.t + 125 }

/-- PACKET_FETCH (R72, R77), no sooner than R78 lets it start: 250 ns after the ring's last fetch and 7.8125 ns after any
ring's. -/
def execPacketFetch (ring : Fin 256) (fail : Fin 3) (s : State) : Host.Outcome State Fault Refusal :=
  s.run (fun b =>
    if b.mayFetch ring ∧ !(b.sqAux ring).early then
      ((b.advanceTo (max (b.sqAux ring).nextFetch b.fetchNext)).fetchPaced ring).fetchUnit ring fail
    else b)

/-- EARLY_DOORBELL_REPOLL (R73): 256 ns after the last read, and within 4 µs of the doorbell. -/
def execEarlyDoorbellRepoll (ring : Fin 256) (fail : Fin 3) (s : State) : Host.Outcome State Fault Refusal :=
  s.run (fun b =>
    let x := b.sqAux ring
    if b.mayFetch ring ∧ x.early ∧ x.lastPoll + 4096 < x.tDb + 4 * usec then
      (b.advanceTo (x.lastPoll + 4096)).fetchUnit ring fail
    else b)

/-- EARLY_DOORBELL (R73, R83): the window ends. -/
def Block.earlyEnd (b : Block) (n : Nat) : Block :=
  let b := b.advanceTo ((b.sqAux n).tDb + 4 * usec)
  let r := b.frontRecord n 0x0010 0
  let b := if r.2 then r.1.countSat .SPAOG_SQ_STATUS_EARLY n 1 else r.1.countSat .SPAOG_SQ_STATUS_EARLY_LOST n 1
  (b.setSq n { b.sqAux n with early := false }).rset .SPAOG_SQ_STATUS_STATE n sqStalled

def execEarlyDoorbell (ring : Fin 256) (s : State) : Host.Outcome State Fault Refusal :=
  s.run (fun b => if b.mayFetch ring ∧ (b.sqAux ring).early then b.earlyEnd ring else b)

/-! ### Ring registers -/

/-- Whether a submission ring's configuration obeys R60 and R61. -/
def Block.sqValid (b : Block) (n : Nat) : Bool :=
  let k := b.rget .SPAOG_SQ_CFG_SIZE_LOG2 n
  let q := b.rget .SPAOG_SQ_CFG_CQ n
  decide (6 ≤ k) && decide (k ≤ 16) && b.flag .SPAOG_CQ_CFG_ENABLE q &&
    decide (b.rget .SPAOG_CQ_CFG_CTX q = b.rget .SPAOG_SQ_CFG_CTX n)

/-- A write of SPAOG_SQ_CFG (R61, R75, R76). -/
def Block.writeSqCfg (b : Block) (n v : Nat) : Block :=
  let b := b.rset .SPAOG_SQ_CFG_PRIORITY n (bits v 10 2)
  if b.flag .SPAOG_SQ_CFG_ENABLE n then
    if bitAt v 0 then b
    else ((b.discardQueued n).rset .SPAOG_SQ_CFG_ENABLE n 0).rset .SPAOG_SQ_STATUS_STATE n 0
  else
    let b := ((b.rset .SPAOG_SQ_CFG_SIZE_LOG2 n (bits v 1 5)).rset .SPAOG_SQ_CFG_CTX n (bits v 6 4)).rset
      .SPAOG_SQ_CFG_CQ n (bits v 12 8)
    let b := b.rset .SPAOG_SQ_CFG_TILE n (bits v 20 6)
    if bitAt v 0 && b.sqValid n then
      ((b.rset .SPAOG_SQ_CFG_ENABLE n 1).rset .SPAOG_SQ_STATUS_STATE n sqRunning).setSq n { b.sqAux n with tDb := b.clk.t }
    else b

/-- The BAR0 offset of a register of submission ring `n`. -/
def sqOffset (n o : Nat) : Nat := 0x110000 + 32 * n + o

/-- SQ_ENABLE_SET (R61): a write of SPAOG_SQ_CFG with ENABLE 1. -/
def execSqEnableSet (ring : Fin 256) (value : BitVec 32) (s : State) : Host.Outcome State Fault Refusal :=
  s.run (fun b => b.barWrite (sqOffset ring 8) (fun b => b.writeSqCfg ring (setBit value.toNat 0)))

/-- SQ_ENABLE_CLEAR (R76): a write of SPAOG_SQ_CFG with ENABLE 0. -/
def execSqEnableClear (ring : Fin 256) (value : BitVec 32) (s : State) : Host.Outcome State Fault Refusal :=
  s.run (fun b => b.barWrite (sqOffset ring 8) (fun b => b.writeSqCfg ring (clearBit value.toNat 0)))

/-- A write of SPAOG_SQ_HEAD (R71): only while the ring is disabled. -/
def Block.writeSqHead (b : Block) (n v : Nat) : Block :=
  if b.flag .SPAOG_SQ_CFG_ENABLE n then b
  else ((b.rset .SPAOG_SQ_HEAD_SEQ n v).rset .SPAOG_SQ_HEAD_POS n (bits v 32 16)).rset .SPAOG_SQ_DBVAL_LIMIT n (v % 2 ^ 32 + 2 ^ 32 - 1)

/-- SPAOG_SQ_HEAD (R71). -/
def execSpaogSqHead (ring : Fin 256) (value : BitVec 64) (s : State) : Host.Outcome State Fault Refusal :=
  s.run (fun b => b.barWrite (sqOffset ring 16) (fun b => b.writeSqHead ring value.toNat))

/-- Whether an enabled submission ring is bound to completion ring `q`, or a slot of it is reserved (R62). -/
def Block.cqLocked (b : Block) (q : Nat) : Bool :=
  decide (0 < (b.cqAux q).reserved) ||
    (b.listed .SPAOG_SQ_CFG).any (fun kv => bitAt kv.2 0 && decide (bits kv.2 12 8 = q))

/-- A write of SPAOG_CQ_CFG (R62, R87). -/
def Block.writeCqCfg (b : Block) (q v : Nat) : Block :=
  let b := ((b.rset .SPAOG_CQ_CFG_VECTOR q (bits v 6 10)).rset .SPAOG_CQ_CFG_COAL_COUNT q (bits v 16 8)).rset
    .SPAOG_CQ_CFG_COAL_TIME q (bits v 24 8)
  let was := b.flag .SPAOG_CQ_CFG_ENABLE q
  let same := decide (b.rget .SPAOG_CQ_CFG_ENABLE q = bits v 0 1) && decide (b.rget .SPAOG_CQ_CFG_SIZE_LOG2 q = bits v 1 5) &&
    decide (b.rget .SPAOG_CQ_CFG_CTX q = bits v 32 4)
  if same then b
  else if b.cqLocked q then b.accessError 0x056 none 0 (0x112010 + 32 * q)
  else
    let b := (b.rset .SPAOG_CQ_CFG_SIZE_LOG2 q (bits v 1 5)).rset .SPAOG_CQ_CFG_CTX q (bits v 32 4)
    let ok := decide (6 ≤ bits v 1 5) && decide (bits v 1 5 ≤ 16)
    if bitAt v 0 && ok then
      let b := b.rset .SPAOG_CQ_CFG_ENABLE q 1
      if was then b else (b.rset .SPAOG_CQ_CFG_FAULT q 0).rset .SPAOG_CQ_CFG_LOST q 0
    else b.rset .SPAOG_CQ_CFG_ENABLE q 0

/-- CQ_ENABLE_WRITE (R62, R87): a write of SPAOG_CQ_CFG. -/
def execCqEnableWrite (ring : Fin 256) (value : BitVec 64) (s : State) : Host.Outcome State Fault Refusal :=
  s.run (fun b => b.barWrite (0x112010 + 32 * ring.val) (fun b => b.writeCqCfg ring value.toNat))

/-- A consumption report (R85, R86); one that lies 2^31 from the count written is stale (R9). -/
def Block.cqConsume (b : Block) (q v : Nat) : Block :=
  if precedes 32 (b.rget .SPAOG_CQ_TAIL_WRITTEN q) v then b.accessError 0x056 none 0 (0x104000 + 64 * q)
  else if reached 32 v (b.rget .SPAOG_CQ_TAIL_WRITTEN q) then b.rset .SPAOG_CQ_HEAD_CONSUMED q v
  else b

/-- SPAOG_CQ_DB (R86). -/
def execSpaogCqDb (ring : Fin 256) (value : BitVec 32) (s : State) : Host.Outcome State Fault Refusal :=
  s.run (fun b => b.barWrite (0x104000 + 64 * ring.val) (fun b => b.cqConsume ring value.toNat))

/-- A gate is written (R70). -/
def Block.writeGate (b : Block) (g v : Nat) : Block :=
  ((b.rset .SPAOG_GATE_VALUE g v).rset .SPAOG_GATE_CTX g (bits v 32 4)).rset .SPAOG_GATE_ENABLE g (bits v 36 1)

/-- SPAOG_GATE (R70). -/
def execSpaogGate (gate : Fin 4096) (value : BitVec 64) (s : State) : Host.Outcome State Fault Refusal :=
  s.run (fun b => b.barWrite (0x120000 + 8 * gate.val) (fun b => b.writeGate gate value.toNat))

/-- COAL_TIME_EXPIRY (R90). -/
def execCoalTimeExpiry (ring : Fin 256) (s : State) : Host.Outcome State Fault Refusal :=
  s.run (fun b =>
    let x := b.cqAux ring
    let us := b.rget .SPAOG_CQ_CFG_COAL_TIME ring
    if 0 < x.unsignalled ∧ us ≠ 0 then (b.advanceTo (x.firstUnsig + us * usec)).signalCq ring else b)

/-! ### Dispatch -/

/-- Whether a packet waits on or signals a gate (R65). -/
def Cmd.waits (c : Cmd) : Bool := bitAt c.flags 4
def Cmd.signals (c : Cmd) : Bool := bitAt c.flags 5

/-- Whether a gate is enabled and of a context (R69). -/
def Block.gateOk (b : Block) (g ctx : Nat) : Bool :=
  b.flag .SPAOG_GATE_ENABLE g && decide (b.rget .SPAOG_GATE_CTX g = ctx)

/-- The detail of RANGE that the front end gives a packet, in the order of its table (R65, R67, R69, R81, R88, R89). -/
def Block.packetErr (b : Block) (c : Cmd) : Option Nat :=
  if c.params = .bad then some 0x0001
  else if bitAt c.flags 6 ∨ bitAt c.flags 7 then some 0x0005
  else if (c.waits ∨ c.signals) ∧ 64 * c.len - 16 < paramsEnd c.opcode then some 0x0003
  else if (c.waits ∧ !b.gateOk c.trailer.waitGate c.ctx) ∨ (c.signals ∧ !b.gateOk c.trailer.signalGate c.ctx) then some 0x0004
  else if c.opcode / 256 = 1 ∧ !b.tileWorks c.tile then some 0x0007
  else none

/-- Whether the engine of a packet takes it (R79): a tile holds 32 commands (TILE_STATUS.QUEUED), the Relay 512 that wait
(R364); no other queue has a stated depth. -/
def Block.engineTakes (b : Block) (c : Cmd) : Bool :=
  match c.opcode / 256 with
  | 1 => decide (b.rget .TILE_STATUS_QUEUED c.tile < 32)
  | 4 => decide ((b.cmds.filter (fun (x : Cmd) => decide (x.opcode / 256 = 4) && decide (x.phase = .waiting))).length < 512)
  | _ => true

/-- The packet of ring `n` that may be dispatched now, if any (R65, R68, R75, R79, R83, R87, R501). -/
def Block.dispatchable (b : Block) (n : Nat) : Option Cmd :=
  match b.queued n with
  | [] => none
  | c :: _ =>
    let live := b.cmds.any (fun (x : Cmd) => decide (x.ring = n) && decide (x.phase ≠ .queued))
    let err := (b.packetErr c).isSome
    let gate := err || !c.waits || reached 32 c.trailer.waitValue (b.rget .SPAOG_GATE_VALUE c.trailer.waitGate)
    if (b.mayStart || (b.faulted && !b.boot.stopped && !err && ostlerServes c.opcode)) && b.flag .SPAOG_SQ_CFG_ENABLE n &&
        decide (b.rget .SPAOG_SQ_STATUS_STATE n ≠ sqHalted) && !b.flag .SPAOG_CQ_CFG_FAULT c.cq &&
        !(bitAt c.flags 0 && live) && decide (0 < b.cqFree c.cq) && gate && (err || b.engineTakes c) then some c else none

/-- The place of ring `n` in the order in which an engine serves its rings (R82): priority first, then round-robin from
the ring after the one served last. -/
def Block.serveKey (b : Block) (eng n : Nat) : Nat :=
  (3 - b.rget .SPAOG_SQ_CFG_PRIORITY n) * 256 + (n + 255 - Sparse.get (always 255) b.lastServed eng) % 256

/-- Whether the engine of a packet serves no other ring before ring `n` (R82). -/
def Block.firstServed (b : Block) (n : Nat) (c : Cmd) : Bool :=
  b.cmds.all (fun (x : Cmd) => decide (x.ring = n) || decide (x.phase ≠ .queued) ||
    match b.dispatchable x.ring with
    | some d => decide (d.engine ≠ c.engine) || (b.packetErr d).isSome ||
        decide (b.serveKey c.engine n < b.serveKey c.engine x.ring)
    | none => true)

/-- The dispatched commands with `c` among them, in the order of dispatch: one dispatched in the same tick from a
higher-numbered ring comes after it (R293). -/
def insertCmd (c : Cmd) : List Cmd → List Cmd
  | [] => [c]
  | x :: l =>
    if x.phase ≠ .queued ∧ x.seenT = c.seenT ∧ c.ring < x.ring ∧ x.phase = .waiting then c :: x :: l else x :: insertCmd c l

/-- Whether the trace unit records a command's start and completion (R527). -/
def Block.traced (b : Block) (c : Cmd) : Bool := bitAt c.flags 3 || b.flag .TRACE_CFG_ALL_CMDS

/-- A packet is dispatched (R80, R83): its slot is reserved, and it waits at its engine, or it has ended with RANGE. -/
def Block.dispatchCmd (b : Block) (n : Nat) (c : Cmd) : Block :=
  let b := b.reserve c.cq
  let rest := b.cmds.filter (fun (x : Cmd) => decide (x.id ≠ c.id))
  match b.packetErr c with
  | some d =>
    { b with cmds := insertCmd { c with phase := .done, seenT := b.clk.t, result := some ⟨0x0100, d, 0⟩ } rest }
  | none =>
    let tile := decide (c.opcode / 256 = 1)
    let b := { b with cmds := insertCmd { c with phase := .waiting, seenT := b.clk.t, joined := tile } rest
                      lastServed := Sparse.set (always 255) b.lastServed c.engine n }
    let b := if tile then (b.tileJoin c.tile).notePrim c.tile else b
    let src := sourceOf c.opcode c.tile
    let b := b.perf src 0x01 0 c.ctx 1
    if b.traced c then b.traceRec src 1 6 c.ctx c.seq (c.ring + c.opcode * 2 ^ 16) c.cookie else b

/-- DISPATCH (R79 to R83). -/
def execDispatch (ring : Fin 256) (s : State) : Host.Outcome State Fault Refusal :=
  s.run (fun b =>
    match b.dispatchable ring with
    | some c => if (b.packetErr c).isSome || b.firstServed ring c then b.dispatchCmd ring c else b
    | none => b)

/-- NOP (R89): completes with OK. -/
def execNop (id : Nat) (s : State) : Host.Outcome State Fault Refusal :=
  s.run (fun b => b.runCmd id .nop always2 (fun c b => b.finish c.id 0 0 0))

end Sys2Proof.Machine
end

