-- ==== Sys2Proof/Machine/Fault.lean ====
section
/-! DEFINITION. Tile retirement (R496 to R498) and module faults (R500, R501, R535). -/

namespace Sys2Proof.Machine

/-- A command ends with a status whatever it was doing. -/
def Block.endCmd (b : Block) (id status detail : Nat) : Block :=
  b.updCmd id (fun c => { c with phase := .done, result := some ⟨status, detail, 0⟩, effects := [], cut := none, cutIdx := none })

/-! ### Module fault -/

/-- The engines fall silent (R501). -/
def Block.silence (b : Block) : Block := { b with net := { b.net with silent := true } }

/-- FAULT_N is asserted (R472, R501). -/
def Block.assertFaultN (b : Block) : Block := b.rset .OSTLER_FAULT_STATUS_FAULT_N 0 1

/-- A module fault of a class and source (R500, R501): FAULT_N, STEP_RESTART for every command not completed, silence on
the network, the cause, and the trace unit's stop (R535). -/
def Block.moduleFault (b : Block) (cls source : Nat) : Block :=
  if b.faulted then b
  else
    let b := (b.assertFaultN.rset .OSTLER_FAULT_STATUS_MODULE_FAULT 0 1).rset .OSTLER_FAULT_STATUS_CLASS 0 cls
    let b := b.rset .OSTLER_FAULT_STATUS_SOURCE 0 source
    let b := b.errLog { source := source, cls := 0x16, outcome := 4 }
    let b := (b.cmds.filter (fun (c : Cmd) => decide (c.phase ≠ .queued))).foldl (fun b c => b.endCmd c.id 0x0301 0x0100) b
    let b := { b with jobs := [] }
    ((b.traceSettle.traceFlush).traceHalt.silence).sbAlert 2

/-- A status of INTERNAL or UPDATE_PERSISTENT counts toward a module fault (R500). -/
def Block.noteEscalation (b : Block) (cls source : Nat) : Block :=
  let win := b.rget .OSTLER_FAULT_CFG_MOD_WIN_MS * msec
  let l := (b.boot.modErrs ++ [b.clk.t]).filter (fun t => decide (b.clk.t ≤ t + win))
  let b := { b with boot := { b.boot with modErrs := l } }
  let b := b.rset .OSTLER_FAULT_STATUS_ESC_COUNT 0 (min 0xFFF l.length)
  if b.rget .OSTLER_FAULT_CFG_MOD_ERRS ≤ l.length then b.moduleFault cls source else b

/-! ### Tile retirement -/

/-- The tiles of a compute die that work. -/
def Block.dieTiles (b : Block) (die : Nat) : List Nat :=
  ((List.range 32).map (fun i => die * 32 + i)).filter b.tileWorks

/-- An ATTEND that no tile can go on with ends with STEP_RESTART, an escalation to the step level (R419, R499, R502). -/
def Block.stepRestart (b : Block) (n id : Nat) : Block :=
  match b.findCmd id with
  | some c =>
    (b.endCmd id 0x0301 0).errLog { source := n, cls := 0x07, outcome := 2, status := 0x0301, ctx := c.ctx, cmd := some (c.ring, c.seq) }
  | none => b

/-- Attention jobs leave a retired tile (R419): the ATTEND ends with STEP_RESTART when no named tile remains. -/
def Block.moveJobs (b : Block) (n : Nat) : Block :=
  let mine := b.jobs.filter (fun j => decide (j.tile = n))
  let b := { b with jobs := b.jobs.filter (fun j => !decide (j.tile = n)) }
  mine.foldl (fun b j =>
    if b.jobs.any (fun k => decide (k.cmd = j.cmd)) then b else b.stepRestart n j.cmd) b

/-- SVC_EN goes to the lowest working tile of a die none of whose tiles has it (R497). -/
def Block.keepService (b : Block) (die : Nat) : Block :=
  let ts := b.dieTiles die
  if ts.any (fun t => b.flag .TILE_VX_CFG_SVC_EN t) then b
  else match ts.head? with
    | some t => b.rset .TILE_VX_CFG_SVC_EN t 1
    | none => b

/-- The rings whose TILE names a tile halt, each with its head at the first packet not yet dispatched (R497). -/
def Block.haltTileRings (b : Block) (n : Nat) : Block × Nat :=
  ((b.listed .SPAOG_SQ_CFG).filter (fun kv => bitAt kv.2 0 && decide (bits kv.2 20 6 = n) &&
      decide (b.rget .SPAOG_SQ_STATUS_STATE kv.1 ≠ sqHalted))).foldl
    (fun a kv => ((a.1.discardQueued kv.1).rset .SPAOG_SQ_STATUS_STATE kv.1 sqHalted, a.2 + 1)) (b, 0)

/-- What a STORE of a retired tile writes is undefined (R513). -/
def Block.spoilStore (b : Block) (c : Cmd) : Block :=
  match c.params with
  | .store p => (List.range p.rows).foldl (fun b i => b.freeWork c.ctx ((p.va + i * p.vaStride) % 2 ^ 56) p.rowBytes) b
  | _ => b

/-- Tile `n` is retired (R497): the block, the commands completed with TILE_RETIRED and the rings halted. -/
def Block.retireTile (b : Block) (n : Nat) : Block × Nat × Nat :=
  let mine := b.cmds.filter (fun (c : Cmd) => decide (c.opcode / 256 = 1) && decide (c.tile = n) && decide (c.phase ≠ .queued))
  let b := b.rset .TILE_STATUS_STATE n 3
  let b := b.rset .CAPS_TILE_MASK_TILE 0 (clearBit (b.rget .CAPS_TILE_MASK_TILE) n)
  let b := b.rset .CAPS_COUNTS_TILES 0 (b.rget .CAPS_COUNTS_TILES - 1)
  let b := mine.foldl (fun b c => (b.endCmd c.id 0x100A 0).spoilStore c) b
  let b := (b.moveJobs n).keepService (n / 32)
  let r := b.haltTileRings n
  let b := (r.1.capsChanged).count .OSTLER_TILES_RETIRED_COUNT 0 1
  (b.errLog { source := n, cls := 0x07, outcome := 1, status := 0x100A }, mine.length, r.2)

/-- A cause of R496 on a tile: it is retired, or the module faults when it is the last working tile of its die (R498). -/
def Block.tileCause (b : Block) (n : Nat) : Block :=
  if !b.tileWorks n then b
  else if (b.dieTiles (n / 32)).length ≤ 1 then b.moduleFault 0x07 n
  else (b.retireTile n).1

/-- A tile-store parity detection (R155, R496). -/
def Block.noteParity (b : Block) (n : Nat) : Block :=
  let win := b.rget .OSTLER_FAULT_CFG_TS_WIN_MS * msec
  let l := ((b.tile n).parity ++ [b.clk.t]).filter (fun t => decide (b.clk.t ≤ t + win))
  let b := b.onTile n (fun t => { t with parity := l })
  if b.flag .OSTLER_FAULT_CFG_AUTO_RETIRE && decide (b.rget .OSTLER_FAULT_CFG_TS_ERRS ≤ l.length) then b.tileCause n else b

end Sys2Proof.Machine
end

