-- ==== Sys2Proof/Machine/Array.lean ====
section
/-! DEFINITION. The matrix array and accumulator memory (chapters 04 and 05): operands (R133), the reduction (R111, R112,
R146), array cycles (R131, R132), the check column (R151, R152), special values (R149). -/

namespace Sys2Proof.Machine

/-! ### Operands -/

/-- Element `i` of the packed vector of format `fmt` at tile-store address `a` (R104). -/
def tsElem (m : Memory) (fmt a i : Nat) : Nat :=
  let w := fmtBits fmt
  if w = 4 then bits (m.readNat (a + i / 2) 1) (i % 2 * 4) 4 else m.readNat (a + i * (w / 8)) (w / 8)

/-- The exact value of a code; 0 for a reserved format. -/
def codeVal (fmt c : Nat) : FVal :=
  match fmtOf fmt with
  | some f => f.decode c
  | none => .fin false 0 0

end Sys2Proof.Machine

namespace Sys2Proof

open Machine

/-- a[m][k] (R133). -/
def MatmulParams.aVal (p : MatmulParams) (st : Memory) (m k : Nat) : FVal :=
  codeVal p.fmtA (tsElem st p.fmtA (tsAddr p.aAddr + m * p.aStride) k)

/-- b[k][n] (R133). -/
def MatmulParams.bVal (p : MatmulParams) (st : Memory) (k n : Nat) : FVal :=
  codeVal p.fmtB (if p.nMajor then tsElem st p.fmtB (tsAddr p.bAddr + n * p.bStride) k
    else tsElem st p.fmtB (tsAddr p.bAddr + k * p.bStride) n)

/-- sa[m][c] (R107); a missing scale is 1.0 (R108). -/
def MatmulParams.saVal (p : MatmulParams) (st : Memory) (m c : Nat) : FVal :=
  if p.hasA then codeVal p.sfmtA (tsElem st p.sfmtA (tsAddr p.saAddr) (m * p.chunks + c)) else .fin false 1 0

/-- sb[c][n]. -/
def MatmulParams.sbVal (p : MatmulParams) (st : Memory) (c n : Nat) : FVal :=
  if p.hasB then codeVal p.sfmtB (tsElem st p.sfmtB (tsAddr p.sbAddr) (n * p.chunks + c)) else .fin false 1 0

end Sys2Proof

namespace Sys2Proof.Machine

/-- The integer that an exact integer value is. -/
def FVal.toInt : FVal → Int
  | .fin s m e => signedAt s m e 0
  | _ => 0

end Sys2Proof.Machine

namespace Sys2Proof

open Machine

/-- Whether the operands are integers (R110). -/
def MatmulParams.isInt (p : MatmulParams) : Bool := decide (p.fmtA = 5 ∨ p.fmtA = 6)

/-- Whether at least one operand has scales. -/
def MatmulParams.scaled (p : MatmulParams) : Bool := p.hasA || p.hasB

/-- The chunk sum type of floating-point operands (R110). -/
def MatmulParams.chunkFmt (p : MatmulParams) : FFmt := if p.fmtA = 3 ∨ p.fmtA = 4 then fp22 else fp32

end Sys2Proof

namespace Sys2Proof.Machine

/-- `round_rne(f, x)` as an exact value. -/
def FFmt.round (f : FFmt) (x : FVal) : FVal := f.decode (f.rne x)

/-! ### The reduction -/

end Sys2Proof.Machine

namespace Sys2Proof

open Machine

/-- The K positions of chunk `c` (R109). -/
def MatmulParams.positions (p : MatmulParams) (c : Nat) : List Nat :=
  (List.range (min p.chunk (p.k - c * p.chunk))).map (fun i => c * p.chunk + i)

/-- The sum of chunk `c` (R111). -/
def MatmulParams.chunkSum (p : MatmulParams) (st : Memory) (m n c : Nat) : FVal :=
  (p.positions c).foldl (fun s k =>
    let x := FVal.add s (FVal.mul (p.aVal st m k) (p.bVal st k n))
    if p.isInt then x else p.chunkFmt.round x) (.fin false 0 0)

/-- One promotion into a floating-point entry of format `e` (R111, R146). -/
def MatmulParams.promote (p : MatmulParams) (st : Memory) (e : FFmt) (m n : Nat) (acc : FVal) (c : Nat) : FVal :=
  let t := fp32.round (p.chunkSum st m n c)
  let t := if p.scaled then fp32.round (FVal.mul t (fp32.round (FVal.mul (p.saVal st m c) (p.sbVal st c n)))) else t
  e.round (FVal.add acc t)

/-- The new code of entry (m, n) from its old one, and whether R111 saturated it. -/
def MatmulParams.entry (p : MatmulParams) (st : Memory) (isInt bf : Bool) (m n old : Nat) : Nat × Bool :=
  let e := if bf then bf16 else fp32
  if isInt then
    let r := (List.range p.chunks).foldl (fun (a : Int × Bool) c =>
      let v := a.1 + (p.chunkSum st m n c).toInt
      let w := clampInt (-2147483648) 2147483647 v
      (w, a.2 || decide (w ≠ v))) (toSigned 32 old, false)
    (ofSigned 32 r.1, r.2)
  else if p.isF32 then
    (e.rne ((List.range p.k).foldl (fun acc k =>
      e.round (FVal.add acc (FVal.mul (p.aVal st m k) (p.bVal st k n)))) (e.decode old)), false)
  else (e.rne ((List.range p.chunks).foldl (p.promote st e m n) (e.decode old)), false)

/-- The tile row and column of output (m, n) from row offset `r0` (R135). -/
def MatmulParams.outPlace (p : MatmulParams) (r0 m n : Nat) : Nat × Nat := (r0 + n / 64 * p.m + m, n % 64)

/-- Every output position. -/
def MatmulParams.outputs (p : MatmulParams) : List (Nat × Nat) :=
  (List.range p.m).flatMap (fun m => (List.range p.n).map (fun n => (m, n)))

/-- The array cycles of a MATMUL beside L (R131, R132). -/
def MatmulParams.cycles (p : MatmulParams) : Nat :=
  let rows := if p.isF32 then p.m * 16 else if p.fmtA = 6 then ceilDiv p.m 4 else if p.fmtA ≤ 2 then p.m else ceilDiv p.m 2
  let w := if p.isF32 then 64 else if p.fmtA = 6 then 8 else if p.fmtA ≤ 2 then 32 else 16
  ceilDiv p.n 64 * ceilDiv p.k 128 * max rows w

end Sys2Proof

namespace Sys2Proof.Machine

/-! ### Groups -/

/-- E of a group's entries. -/
def Group.entry (g : Group) : Nat := if g.bf16 then 2 else 4

/-- The accumulator byte address of an entry of a group. -/
def Group.addr (g : Group) (r c : Nat) : Nat := g.base + (r * 64 + c) * g.entry

/-- The code of an entry. -/
def Group.code (g : Group) (acc : Memory) (r c : Nat) : Nat := acc.readNat (g.addr r c) g.entry

/-- The exact value of a floating-point entry. -/
def Group.val (g : Group) (acc : Memory) (r c : Nat) : FVal :=
  (if g.bf16 then Machine.bf16 else fp32).decode (g.code acc r c)

/-- The entries of a tile row, ascending column, as exact values. -/
def Group.rowVals (g : Group) (acc : Memory) (r : Nat) : List FVal := (List.range 64).map (g.val acc r)

/-- The FP32 sum of a list, ascending. -/
def sumF32 (l : List FVal) : FVal := l.foldl (fun s x => fp32.round (FVal.add s x)) (.fin false 0 0)

/-- The exact sum of a tile row's INT32 entries. -/
def Group.rowInt (g : Group) (acc : Memory) (r : Nat) : Int :=
  (List.range 64).foldl (fun s c => s + toSigned 32 (g.code acc r c)) 0

/-- The check entry of a tile row: an FP32 code, or an exact integer. -/
def Group.chkAt (g : Group) (r : Nat) : Int := Sparse.get (always (0 : Int)) g.chk r

/-- A check entry replaced. -/
def Group.setChk (g : Group) (r : Nat) (v : Int) : Group := { g with chk := Sparse.set (always (0 : Int)) g.chk r v }

/-- The group initialised (R138): its entries zero, or copied from the tile store; its check entries their sums (R151). -/
def Group.start (g : Group) (st acc : Memory) : Group × Memory :=
  let n := g.rows * 64 * g.entry
  let acc := match g.initAddr with
    | .none => acc.clear g.base n
    | .some a => acc.writeBytes g.base (st.readBytes a n)
  let g := { g with chk := [], satRows := [] }
  if g.check.enable then
    ((List.range g.rows).foldl (fun g r =>
      g.setChk r (if g.isInt then g.rowInt acc r else (fp32.rne (sumF32 (g.rowVals acc r)) : Nat))) g, acc)
  else (g, acc)

end Sys2Proof.Machine

namespace Sys2Proof

open Machine

/-- The check weight w[k] of a 64-column block (R151). -/
def MatmulParams.checkWeight (p : MatmulParams) (st : Memory) (j k : Nat) : FVal :=
  let cols := (List.range (min 64 (p.n - 64 * j))).map (fun i => 64 * j + i)
  if p.isInt && !p.scaled then cols.foldl (fun s n => FVal.add s (p.bVal st k n)) (.fin false 0 0)
  else sumF32 (cols.map (fun n => fp32.round (FVal.mul (p.bVal st k n) (p.sbVal st (k / p.chunk) n))))

/-- The check entry of a tile row after a MATMUL (R151): row `m` of block `j`, with the block's weights. -/
def MatmulParams.checkRow (p : MatmulParams) (st : Memory) (w : List FVal) (m : Nat) (old : Int) : Int :=
  let wk := fun (k : Nat) => w.getD k (.fin false 0 0)
  if p.isInt && !p.scaled then
    (List.range p.k).foldl (fun s k => s + (FVal.mul (p.aVal st m k) (wk k)).toInt) old
  else
    let step := fun (s : FVal) (x : FVal) => fp32.round (FVal.add s x)
    let r := if p.isF32 then
        (List.range p.k).foldl (fun s k => step s (fp32.round (FVal.mul (p.aVal st m k) (wk k)))) (fp32.decode old.toNat)
      else
        (List.range p.chunks).foldl (fun s c =>
          let cs := (p.positions c).foldl (fun s k => step s (fp32.round (FVal.mul (p.aVal st m k) (wk k)))) (.fin false 0 0)
          step s (fp32.round (FVal.mul cs (p.saVal st m c)))) (fp32.decode old.toNat)
    (fp32.rne r : Nat)

end Sys2Proof

namespace Sys2Proof.Machine

/-- The check entries after a MATMUL into rows from `r0`. -/
def Group.checkAdd (g : Group) (st : Memory) (p : MatmulParams) (r0 : Nat) : Group :=
  if g.check.enable then
    (List.range (ceilDiv p.n 64)).foldl (fun g j =>
      let w := (List.range p.k).map (p.checkWeight st j)
      (List.range p.m).foldl (fun g m =>
        let r := r0 + j * p.m + m
        g.setChk r (p.checkRow st w m (g.chkAt r))) g) g
  else g

/-- A MATMUL's additions into a group (R111, R135): the group, accumulator memory, and the INT32 entries saturated. -/
def Group.add (g : Group) (st acc : Memory) (p : MatmulParams) (r0 : Nat) : Group × Memory × Nat :=
  let r := p.outputs.foldl (fun (a : Group × Memory × Nat) mn =>
    let q := p.outPlace r0 mn.1 mn.2
    let e := p.entry st g.isInt g.bf16 mn.1 mn.2 (g.code a.2.1 q.1 q.2)
    let acc := a.2.1.writeNat (g.addr q.1 q.2) g.entry e.1
    if e.2 then ({ a.1 with satRows := if a.1.satRows.contains q.1 then a.1.satRows else a.1.satRows ++ [q.1] }, acc, a.2.2 + 1)
    else (a.1, acc, a.2.2)) (g, acc, 0)
  (r.1.checkAdd st p r0, r.2)

/-- Errors of the array or the drain: an exclusive or into entries of the group's rows. -/
def Group.upset (g : Group) (acc : Memory) (l : List (Nat × Nat × BitVec 32)) : Memory :=
  l.foldl (fun acc u =>
    if u.1 < g.rows ∧ u.2.1 < 64 then
      acc.writeNat (g.addr u.1 u.2.1) g.entry ((g.code acc u.1 u.2.1 ^^^ u.2.2.toNat) % 2 ^ (8 * g.entry))
    else acc) acc

/-- The first special value in drain order (R149): tile row and column. -/
def Group.firstSpecial (g : Group) (acc : Memory) : Option (Nat × Nat) :=
  if g.isInt then .none
  else (List.range g.rows).findSome? (fun r =>
    ((List.range 64).find? (fun c => (g.val acc r c).isSpecial)).map (fun c => (r, c)))

/-- Whether the comparison skips a tile row (R152). -/
def Group.skips (g : Group) (acc : Memory) (r : Nat) : Bool :=
  g.satRows.contains r ||
    (!g.isInt && ((fp32.decode (g.chkAt r).toNat).isSpecial || (g.rowVals acc r).any FVal.isSpecial))

/-- TOL_ABS as used: a negative value, a NaN or an infinity is 0. -/
def tolAbs (c : Nat) : FVal :=
  match fp32.decode c with
  | .fin false m e => .fin false m e
  | _ => .fin false 0 0

/-- Whether the comparison of a tile row fails (R152). The inequality is evaluated exactly (DEDUCED). -/
def Group.rowFails (g : Group) (acc : Memory) (r : Nat) : Bool :=
  if g.isInt then decide (g.rowInt acc r ≠ g.chkAt r)
  else
    let c := fp32.decode (g.chkAt r).toNat
    let l := g.rowVals acc r
    let s := sumF32 l
    let a := sumF32 (l.map FVal.abs)
    let big := if FVal.lt a c.abs then c.abs else a
    FVal.lt (FVal.add (FVal.mul (.fin false 1 (-(g.check.tolExp : Int))) big) (tolAbs g.check.tolAbs)) (FVal.sub s c).abs

/-- The rows that the comparison skips, and the first that fails. -/
def Group.compare (g : Group) (acc : Memory) : Nat × Option Nat :=
  if g.check.enable then
    let rows := List.range g.rows
    ((rows.filter (g.skips acc)).length, rows.find? (fun r => !g.skips acc r && g.rowFails acc r))
  else (0, .none)

end Sys2Proof.Machine
end

