-- ==== Sys2Proof/Machine/Atomic.lean ====
section
/-! DEFINITION. The atomic operations of the Vat (R236, R237), on bytes. -/

namespace Sys2Proof.Machine

/-- x before y in the order of R175: −0 is less than +0. -/
def FVal.before (x y : FVal) : Bool :=
  FVal.lt x y ||
  (match x, y with
   | .fin s 0 _, .fin t 0 _ => s && !t
   | _, _ => false)

/-- MIN of two codes of a floating-point format (R175). -/
def FFmt.min (f : FFmt) (a b : Nat) : Nat :=
  let x := f.decode a
  let y := f.decode b
  if x.isNan || y.isNan then f.nanCode else if x.before y then a else b

/-- MAX of two codes of a floating-point format (R175). -/
def FFmt.max (f : FFmt) (a b : Nat) : Nat :=
  let x := f.decode a
  let y := f.decode b
  if x.isNan || y.isNan then f.nanCode else if x.before y then b else a

/-- One element's new value (R236, R237); none where the operation has no such format. -/
def atomicElem (op fmt old v cmp : Nat) : Option Nat :=
  match fmtOf fmt with
  | some (.flt f) =>
    match op with
    | 0 => some (f.rne (FVal.add (f.decode old) (f.decode v)))
    | 1 => some (f.min old v)
    | 2 => some (f.max old v)
    | _ => none
  | some (.int w) =>
    match op with
    | 0 => some ((old + v) % 2 ^ w)
    | 1 => some (if toSigned w old ≤ toSigned w v then old else v)
    | 2 => some (if toSigned w old ≤ toSigned w v then v else old)
    | 3 => some (old &&& v)
    | 4 => some (old ||| v)
    | 5 => some (old ^^^ v)
    | 6 => some v
    | 7 => some (if old = cmp then v else old)
    | _ => none
  | none => none

/-- The size in bytes of an atomic (R236); none for a code or format that the table does not list. -/
def atomicSize (op fmt : Nat) : Option Nat :=
  if op = 8 then (if fmt ≤ 1 then some 128 else none)
  else if fmt = 0 ∨ fmt = 1 then (if op ≤ 2 then some 4 else none)
  else if fmt = 7 then (if op ≤ 7 then some 4 else none)
  else if fmt = 8 then (if op ≤ 7 then some 8 else none)
  else none

/-- The new bytes of an atomic: element by element; a BF16 element operation takes a pair (R236). -/
def atomicBytes (op fmt : Nat) (v cmp old : List Byte) : List Byte :=
  let o := if op = 8 then 0 else op
  let w := fmtBits fmt / 8
  packElems fmt ((List.range (old.length / w)).map (fun i =>
    (atomicElem o fmt (elemAt fmt old i) (elemAt fmt v i) (elemAt fmt cmp i)).getD (elemAt fmt old i)))

end Sys2Proof.Machine
end

