-- ==== Sys2Proof/Machine/RelayBase.lean ====
section
/-! DEFINITION. The Relay's shared part (R361 to R370, R385, R389): groups, tags, the limits, credits, units and digests,
as every engine with collectives uses them. -/

namespace Sys2Proof.Machine

/-! ### Groups -/

/-- The entry of RELAY_GROUP that holds group `g`. -/
def Block.groupSlot (b : Block) (g : Nat) : Option Nat :=
  (List.range 64).find? (fun i =>
    match Sparse.get (always none) b.relay.groups i with
    | some x => decide (x.num = g)
    | none => false)

/-- Group `g`, if it is defined on this module. -/
def Block.group? (b : Block) (g : Nat) : Option GroupSt :=
  (b.groupSlot g).bind (fun i => Sparse.get (always none) b.relay.groups i)

/-- Entry `i` of RELAY_GROUP, with its registers. -/
def Block.setGroupSlot (b : Block) (i : Nat) (x : Option GroupSt) : Block :=
  let b := { b with relay := { b.relay with groups := Sparse.set (always none) b.relay.groups i x } }
  match x with
  | some g =>
    let b := ((b.rset .RELAY_GROUP_GROUP i g.num).rset .RELAY_GROUP_VALID i 1).rset .RELAY_GROUP_CTX i g.ctx
    ((b.rset .RELAY_GROUP_EPOCH i g.epoch).rset .RELAY_GROUP_MEMBERS i g.ranks.length).rset .RELAY_GROUP_INDEX i g.self
  | none =>
    let b := ((b.rset .RELAY_GROUP_GROUP i 0).rset .RELAY_GROUP_VALID i 0).rset .RELAY_GROUP_CTX i 0
    (((b.rset .RELAY_GROUP_EPOCH i 0).rset .RELAY_GROUP_STATE i 0).rset .RELAY_GROUP_MEMBERS i 0).rset .RELAY_GROUP_INDEX i 0

/-- Why a command that names a group does not run (R362): the status and detail. -/
def Block.groupErr (b : Block) (ctx g : Nat) : Option (Nat × Nat) :=
  match b.group? g with
  | none => some (0x4001, g)
  | some x => if x.ctx ≠ ctx then some (0x0100, 0) else none

/-! ### Tags (R364, R365, R385) -/

/-- The tag of a group, an epoch and a bucket. -/
def tagOf (g e k : Nat) : Nat := g * 2 ^ 24 + e * 2 ^ 16 + k

/-- The group of a tag. -/
def tagGroup (t : Nat) : Nat := t / 2 ^ 24
/-- The epoch of a tag. -/
def tagEpoch (t : Nat) : Nat := t / 2 ^ 16 % 2 ^ 8
/-- The bucket of a tag. -/
def tagBucket (t : Nat) : Nat := t % 2 ^ 16

/-- The tag of a FETCH from an owner, made of its command's number and the requester's rank (DESIGN CHOICE: the packet has
none). -/
def fetchTag (rank id : Nat) : Nat := 2 ^ 40 + id * 2 ^ 14 + rank

/-- The collective with a tag. -/
def Block.coll (b : Block) (tag : Nat) : Option Coll := b.relay.colls.find? (fun x => decide (x.tag = tag))

/-- Counts of the collectives in flight and held, and of free units, in their registers (R364, R368). A FETCH that this
module serves (`passes` 0) is in flight on its requester only. -/
def Block.relayRegs (b : Block) : Block :=
  let cs := b.relay.colls.filter (fun x => decide (x.passes ≠ 0))
  let used := cs.foldl (fun n x => n + (x.grants.foldl (fun k p => k + p.2) 0 - 1)) 0
  let b := (b.rset .RELAY_STATUS_INFLIGHT 0 cs.length).rset .RELAY_STATUS_HELD 0 b.relay.held.length
  let b := b.rset .RELAY_STATUS_FREE_UNITS 0 (256 - used)
  let b := b.rset .RELAY_STATUS_PERMUTING 0 (b2n (cs.any (fun x => decide (x.op = 0x0407))))
  (List.range 16).foldl (fun b c => b.rset .RELAY_INFLIGHT_COUNT c (cs.filter (fun x => decide (x.ctx = c))).length) b

/-- The collective with `x`'s tag becomes `x`. -/
def Block.setColl (b : Block) (x : Coll) : Block :=
  Block.relayRegs { b with relay := { b.relay with colls := b.relay.colls.map (fun y => if y.tag = x.tag then x else y) } }

/-- A collective changed by `f`. -/
def Block.onColl (b : Block) (tag : Nat) (f : Coll → Coll) : Block :=
  match b.coll tag with
  | some x => b.setColl (f x)
  | none => b

/-- Whether there is room for a further collective of context `ctx` (R364). -/
def Block.collRoom (b : Block) (ctx : Nat) : Bool :=
  let cs := b.relay.colls.filter (fun x => decide (x.passes ≠ 0))
  decide (cs.length < 256) && decide ((cs.filter (fun x => decide (x.ctx = ctx))).length < 64)

/-- How an epoch stands to its group's (R385): 0 current, 1 future, 2 fenced. -/
def epochState (e cur : Nat) : Nat :=
  let d := (e + 256 - cur) % 256
  if d = 0 then 0 else if d ≤ 127 then 1 else 2

/-- Whether a tag has been cancelled (R389). -/
def Block.cancelled (b : Block) (tag : Nat) : Bool :=
  b.relay.cancels.any (fun c => decide (c.1 = tagGroup tag) && decide (c.2.1 = tagEpoch tag) &&
    (decide (c.2.2 = none) || decide (c.2.2 = some (tagBucket tag))))

/-! ### Streams, units and credit (R368 to R370) -/

/-- The bytes of a unit of receive buffer. -/
def unitBytes : Nat := 65536

/-- The stream of leg `leg` from member `i`. -/
def streamKey (leg i : Nat) : Nat := leg * 2 ^ 14 + i

/-- The bytes received on a stream. -/
def Coll.stream (x : Coll) (leg i : Nat) : List Byte := Sparse.get (always []) x.streams (streamKey leg i)

/-- Whether a stream is complete. -/
def Coll.got (x : Coll) (leg i : Nat) : Bool := x.ended.contains (streamKey leg i)

/-- Whether the streams of a leg are complete from every other member. -/
def Coll.gotAll (x : Coll) (leg : Nat) : Bool :=
  (List.range x.ranks.length).all (fun i => decide (i = x.self) || x.got leg i)

/-- The other members. -/
def Coll.others (x : Coll) : List Nat := (List.range x.ranks.length).filter (fun i => !decide (i = x.self))

/-- A stream for member `dst`, cut into units (an empty one is one empty unit). -/
def unitsOf (dst leg : Nat) (bs : List Byte) : List OutUnit :=
  let n := max 1 (ceilDiv bs.length unitBytes)
  (List.range n).map (fun k => ⟨dst, leg, k, decide (k + 1 = n), (bs.drop (k * unitBytes)).take unitBytes⟩)

/-- A stream enters the queue of units that wait for credit. -/
def Coll.post (x : Coll) (dst leg : Nat) (bs : List Byte) : Coll := { x with outq := x.outq ++ unitsOf dst leg bs }

/-- The message class of a collective (chapter 15): Relay, Beater and Stud Book, or Farrier. -/
def Coll.cls (x : Coll) : Nat := if x.op / 256 = 2 then 3 else if x.op / 256 = 3 then 4 else 1

/-- Units that have credit leave, in their order for each member (R368). -/
def Block.pump (b : Block) (tag : Nat) : Block :=
  match b.coll tag with
  | none => b
  | some x =>
    x.outq.foldl (fun b u =>
      match b.coll tag with
      | none => b
      | some y =>
        let cr := Sparse.get (always 0) y.credit u.dst
        if cr = 0 then b.setColl { y with outq := y.outq ++ [u] }
        else
          let b := b.setColl { y with credit := Sparse.set (always 0) y.credit u.dst (cr - 1), tx := y.tx + u.body.length }
          (b.tell (y.ranks.getD u.dst 0) y.cls y.ctx (.unit tag u.leg u.index u.last u.body)).count .RELAY_BYTES_TX_COUNT 0 u.body.length)
      (b.setColl { x with outq := [] })

/-- Credit of `n` units for member `i`. -/
def Block.grant (b : Block) (tag i n : Nat) : Block :=
  match b.coll tag with
  | some x =>
    if n = 0 then b
    else
      let b := b.setColl { x with grants := Sparse.set (always 0) x.grants i (Sparse.get (always 0) x.grants i + n) }
      b.tell (x.ranks.getD i 0) x.cls x.ctx (.credit tag x.digest n)
  | none => b

/-- The first credits of a collective: the units that its tag may hold, spread over the members that it receives from. -/
def Block.grantFirst (b : Block) (tag : Nat) (sources : List Nat) : Block :=
  let n := min (b.rget .RELAY_CFG_CREDIT_WINDOW) (1 + b.rget .RELAY_STATUS_FREE_UNITS)
  let k := sources.length
  if k = 0 then b
  else (List.range k).foldl (fun b j => b.grant tag (sources.getD j 0) (n / k + (if j < n % k then 1 else 0))) b

/-- A unit of member `i` returns to the pool; the next member, cyclically, that `awaited` lists and that holds no credit receives
it (DESIGN CHOICE: how a member spreads its credit). -/
def Block.regrant (b : Block) (tag i : Nat) (awaited : List Nat) : Block :=
  match b.coll tag with
  | some x =>
    let b := b.setColl { x with grants := Sparse.set (always 0) x.grants i (Sparse.get (always 0) x.grants i - 1) }
    let order := awaited.filter (fun j => decide (i < j)) ++ awaited.filter (fun j => decide (j ≤ i))
    let g := (b.coll tag).map (fun y => y.grants)
    match order.find? (fun j => decide (Sparse.get (always 0) (g.getD []) j = 0)) with
    | some j => b.grant tag j 1
    | none => b
  | none => b

/-! ### Start and end -/

/-- A fresh collective for command `c`. -/
def newColl (c : Cmd) (tag : Nat) (g : GroupSt) (digest passes now : Nat) : Coll :=
  Coll.init tag c.ctx c.opcode (some c.id) g.ranks g.self digest passes now

/-- The digest of a command's collective (R369): what its group lists, and what the command's kind adds. -/
def Cmd.digest (c : Cmd) (g : GroupSt) (extra : List Nat) : Nat := (Config.digest (c.opcode :: extra ++ g.ranks)).toNat

/-- Whether the command of a collective still runs. -/
def Block.collRuns (b : Block) (x : Coll) : Bool :=
  match x.cmd with
  | some id => b.cmds.any (fun (c : Cmd) => decide (c.id = id) && decide (c.phase ≠ .done))
  | none => false

/-- Whether a status leaves the outputs of a collective undefined: PEER_TIMEOUT, CANCELLED and UNMAPPED of class 0x04 (R389, R391,
R393), and any failure of a PERMUTE (R388). -/
def spoils (op status : Nat) : Bool :=
  decide (status = 0x4003 ∨ status = 0x4004 ∨ status = 0x4008) || (decide (op = 0x0407) && decide (status ≠ 0 ∧ status ≠ 2))

/-- What a collective that ends with a status leaves undefined: its outputs, and for CANCELLED its bucket. -/
def Block.spoil (b : Block) (x : Coll) (status : Nat) : Block :=
  ((if spoils x.op status then x.outs else []) ++ (if status = 0x4004 then x.bucket else [])).foldl
    (fun b r => b.freeWork x.ctx r.1 r.2) b

/-- The command of a collective ends with a status: no data leaves any more; its completion event removes it. -/
def Block.endColl (b : Block) (tag status detail engine : Nat) : Block :=
  match b.coll tag with
  | some x =>
    match x.cmd with
    | some id => if b.collRuns x then ((b.setColl { x with outq := [] }).spoil x status).finish id status detail engine else b
    | none => b
  | none => b

/-- A collective leaves the Relay. -/
def Block.dropColl (b : Block) (tag : Nat) : Block :=
  Block.relayRegs { b with relay := { b.relay with colls := b.relay.colls.filter (fun x => !decide (x.tag = tag)) } }

/-- A credit reaches the collective that it names: units to send, and the digest's comparison (R369). -/
def Block.takeCredit (b : Block) (tag src digest n : Nat) : Block :=
  match b.coll tag with
  | some x =>
    match x.ranks.findIdx? (fun r => decide (r = src)) with
    | some i =>
      if digest ≠ x.digest ∧ x.passes ≠ 0 then
        if b.collRuns x then b.endColl tag 0x4002 i 0
        else { b with relay := { b.relay with pending := b.relay.pending ++ [(src, tag, digest, n)] } }
      else
        (b.setColl { x with credit := Sparse.set (always 0) x.credit i (Sparse.get (always 0) x.credit i + n)
                            met := if x.met.contains i then x.met else x.met ++ [i] }).pump tag
    | none => b
  | none => b

/-- The pending credits of a tag reach its collective when it starts (R370). -/
def Block.takePending (b : Block) (tag : Nat) : Block :=
  let l := b.relay.pending.filter (fun p => decide (p.2.1 = tag))
  let b := { b with relay := { b.relay with pending := b.relay.pending.filter (fun p => !decide (p.2.1 = tag)) } }
  let bad := (l.filterMap (fun p => (b.coll tag).bind (fun x =>
    if p.2.2.1 ≠ x.digest ∧ x.passes ≠ 0 then x.ranks.findIdx? (fun r => decide (r = p.1)) else none))).min?
  match bad with
  | some i => b.endColl tag 0x4002 i 0
  | none => l.foldl (fun b p => b.takeCredit tag p.1 p.2.2.1 p.2.2.2) b

/-- Whether a command in flight is one of a collective (R364). -/
def isCollOp (op : Nat) : Bool :=
  decide (0x0402 ≤ op ∧ op ≤ 0x0407) || decide (op = 0x0201 ∨ op = 0x0203) || decide (0x0205 ≤ op ∧ op ≤ 0x0207) ||
    decide (op = 0x0303 ∨ op = 0x0305)

/-- The Relay holds a command (R364, R385). -/
def Block.holdColl (b : Block) (id : Nat) (epoch : Bool) : Block :=
  if b.relay.held.any (fun h => decide (h.cmd = id)) then b
  else Block.relayRegs { b with relay := { b.relay with held := b.relay.held ++ [⟨id, epoch⟩] } }

/-- The Relay no longer holds a command. -/
def Block.unhold (b : Block) (id : Nat) : Block :=
  Block.relayRegs { b with relay := { b.relay with held := b.relay.held.filter (fun h => !decide (h.cmd = id)) } }

/-- Whether the Relay holds a command. -/
def Block.isHeld (b : Block) (id : Nat) : Bool := b.relay.held.any (fun h => decide (h.cmd = id))

/-- Whether the Relay holds a command for want of room (R364), which keeps later collectives of its context back. -/
def Block.roomHeld (b : Block) (ctx id : Nat) : Bool :=
  b.relay.held.any (fun h => !h.epoch && decide (h.cmd ≠ id) &&
    b.cmds.any (fun (c : Cmd) => decide (c.id = h.cmd) && decide (c.ctx = ctx)))

/-- The first held command of its context that only waits for room. -/
def Block.firstHeld (b : Block) (ctx id : Nat) : Bool :=
  match b.relay.held.find? (fun h => !h.epoch &&
      b.cmds.any (fun (c : Cmd) => decide (c.id = h.cmd) && decide (c.ctx = ctx))) with
  | some h => decide (h.cmd = id)
  | none => true

/-- A collective command starts (R362, R364, R365, R385, R389): `later` whether it is a later pass of a collective in
flight; `go` runs it with its group. The codes are those of its class (R557). -/
def Block.collStart (b : Block) (c : Cmd) (g e k : Nat) (later : Bool) (go : GroupSt → Block → Block) : Block :=
  match b.groupErr c.ctx g, b.group? g with
  | some x, _ => (b.unhold c.id).finish c.id x.1 x.2 0
  | none, none => b
  | none, some gs =>
    let tag := tagOf g e k
    if c.opcode ≠ 0x0407 ∧ epochState e gs.epoch = 2 then (b.unhold c.id).finish c.id 0x0400 0 0
    else if b.cancelled tag then
      let b := { b with relay := { b.relay with cancels := b.relay.cancels.filter (fun x => !decide (x = (g, e, some k))) } }
      ((b.unhold c.id).count .RELAY_CANCELLED_COUNT 0 1).finish c.id 0x4004 0 0
    else if c.opcode ≠ 0x0407 ∧ epochState e gs.epoch = 1 then b.holdColl c.id true
    else if later then go gs (b.unhold c.id)
    else if (b.coll tag).isSome then (b.unhold c.id).finish c.id 0x4007 0 0
    else if !b.collRoom c.ctx || (!b.isHeld c.id && b.roomHeld c.ctx c.id) then b.holdColl c.id false
    else go gs (b.unhold c.id)

/-- A collective enters flight; a tag whose reduction was delivered before is open again. -/
def Block.beginColl (b : Block) (x : Coll) : Block :=
  Block.relayRegs { b with relay := { b.relay with
    colls := b.relay.colls ++ [x], delivered := b.relay.delivered.filter (fun t => !decide (t = x.tag)) } }

/-- After a collective's inputs are ready: its first credits go out, and those that came early count. -/
def Block.openColl (b : Block) (tag : Nat) (sources : List Nat) : Block :=
  let b := b.grantFirst tag sources
  (b.takePending tag).pump tag

/-- Whether a command is one of a collective for certain (R364): a LOOKUP_POOL is one only if a table of its list is
sharded, a FETCH only if this module does not own the shard. -/
def Block.surelyColl (b : Block) (c : Cmd) : Bool :=
  match c.params with
  | .lookupPool _ => false
  | .fetch p =>
    match Sparse.get (always none) b.farrier.shards (c.ctx * 2 ^ 14 + p.shard) with
    | some sh => !sh.owned
    | none => false
  | _ => isCollOp c.opcode

/-- Whether a command is a later pass of a reduction (R373), which starts outside the order of R366. -/
def Cmd.laterPass (c : Cmd) : Bool :=
  match c.params with
  | .allReduce p => decide (p.pass ≠ 0)
  | .reduceScatter p => decide (p.pass ≠ 0)
  | _ => false

/-- Whether the collectives of a context that were dispatched before `c` have started, or wait for a future epoch (R366). -/
def Block.collTurn (b : Block) (c : Cmd) : Bool :=
  c.laterPass || (b.cmds.takeWhile (fun (x : Cmd) => !decide (x.id = c.id))).all (fun (x : Cmd) =>
    !(decide (x.ctx = c.ctx) && decide (x.phase = .waiting) && b.surelyColl x && !x.laterPass &&
      !b.relay.held.any (fun h => h.epoch && decide (h.cmd = x.id))))

/-- Whether the row of a collective's command may start it: its turn has come, and the Relay does not hold it. -/
def collReady (c : Cmd) (b : Block) : Bool := !b.isHeld c.id && b.collTurn c

/-- UPDATEs that wait on a tag that satisfies `p` end with EPOCH_FENCE (R343). -/
def Block.fenceUpdates (b : Block) (p : Nat → Bool) : Block :=
  let hit := b.farrier.held.filter (fun h => match b.findCmd h.cmd with
    | some c =>
      match c.params with
      | .update q => q.waitTag && p (tagOf q.group q.epoch q.bucket) &&
          !b.relay.delivered.contains (tagOf q.group q.epoch q.bucket)
      | _ => false
    | none => false)
  let b := { b with farrier := { b.farrier with held := b.farrier.held.filter (fun h => !hit.contains h) } }
  let b := b.rset .FARRIER_STATUS_WAITING 0 b.farrier.held.length
  hit.foldl (fun b h => b.finish h.cmd 0x0400 0 0) b

/-- A group's epoch becomes `e` (R386): remembered cancels that it passes go, and UPDATEs of fenced epochs end. -/
def Block.setEpoch (b : Block) (g e : Nat) : Block :=
  match b.groupSlot g, b.group? g with
  | some i, some gs =>
    let b := b.setGroupSlot i (some { gs with epoch := e })
    let l := b.relay.cancels.filter (fun c => !(decide (c.1 = g) && decide (epochState c.2.1 e = 2)))
    let b := { b with relay := { b.relay with cancels := l } }
    b.fenceUpdates (fun t => decide (tagGroup t = g) && decide (epochState (tagEpoch t) e = 2))
  | _, _ => b

/-- The completion event of a command of a collective (R364, R373, R381): the collective leaves the Relay, unless it awaits its
next pass. -/
def Block.collDone (b : Block) (c : Cmd) (status : Nat) : Block :=
  match b.relay.colls.find? (fun x => decide (x.cmd = some c.id)) with
  | none => if b.isHeld c.id then b.unhold c.id else b
  | some x =>
    let ok := decide (status < 0x0100) || decide (status = 0x0600)
    if ok && decide (x.passDone + 1 < x.passes) then b.setColl { x with cmd := none, passDone := x.passDone + 1 }
    else
      let b := b.dropColl x.tag
      let b := match b.groupSlot (tagGroup x.tag) with
        | some i => if x.op = 0x0407 then b.rset .RELAY_GROUP_STATE i 0 else b
        | none => b
      let b := b.count .RELAY_COLLECTIVES_COUNT 0 1
      let b := match x.op / 256 with
        | 2 => (b.count .BEATER_CVT_SAT_COUNT 0 x.sat).count .BEATER_CVT_UFL_COUNT 0 x.ufl
        | _ => (b.count .RELAY_CVT_SAT_COUNT 0 x.sat).count .RELAY_CVT_UFL_COUNT 0 x.ufl
      let b := if status = 0x4004 then b.count .RELAY_CANCELLED_COUNT 0 1 else b
      let b := if status = 0x4003 ∨ status = 0x2008 then b.count .RELAY_TIMEOUTS_COUNT 0 1 else b
      if ok && (decide (x.op = 0x0402) || decide (x.op = 0x0403)) then
        { b with relay := { b.relay with delivered := b.relay.delivered ++ [x.tag] } }
      else b

end Sys2Proof.Machine
end

