-- ==== Sys2Proof/Machine/SbBase.lean ====
section
/-! DEFINITION. The Stud Book's directory (R300 to R303, R308): entries, keys, slots, groups, and the registers that show
them. -/

namespace Sys2Proof.Machine

/-- ABSENT, FILLING, REPLICATED and DRAINING (R301). -/
def sbAbsent : Nat := 0
def sbFilling : Nat := 1
def sbReplicated : Nat := 2
def sbDraining : Nat := 3

/-- Entry `i` of the directory. -/
def Block.sb (b : Block) (i : Nat) : SbEntry := Sparse.get (always SbEntry.free) b.beater.book i

/-- A key (R275): row in bits [39:0], table in bits [51:40]. -/
def keyOf (table row : Nat) : Nat := table * 2 ^ 40 + row

/-- The key that an entry holds. -/
def SbEntry.key (e : SbEntry) : Nat := keyOf e.table e.row

/-- The set of a key of a context (R300). -/
def sbSet (ctx key : Nat) : Nat :=
  let k := ctx * 2 ^ 52 + key
  (k ^^^ (k / 2 ^ 13) ^^^ (k / 2 ^ 26) ^^^ (k / 2 ^ 39)) % 8192

/-- The index of the entry of a key, if it has one. -/
def Block.sbFind (b : Block) (ctx key : Nat) : Option Nat :=
  ((List.range 16).map (fun w => sbSet ctx key * 16 + w)).find? (fun i =>
    let e := b.sb i
    e.valid && decide (e.ctx = ctx) && decide (e.key = key))

/-- Whether an entry is a group entry: FILLING, REPLICATED or DRAINING (R301). -/
def SbEntry.inGroup (e : SbEntry) : Bool := e.valid && decide (e.state ≠ sbAbsent)

/-- No slot: the owner's entry (R301). -/
def sbNoSlot : Nat := 0xFFFFFFFF

/-- Whether an entry uses a replica slot of its context's pool. -/
def SbEntry.slotted (e : SbEntry) : Bool := e.inGroup && !e.owner && decide (e.slot ≠ sbNoSlot)

/-- The keys that a PROMOTE in flight has accepted on this module, each with 1, or 2 and the slot reserved for it (R314). -/
def Block.sbAccepted (b : Block) (ctx : Nat) : List (Nat × Nat) :=
  (b.relay.colls.filter (fun x => decide (x.op = 0x0205) && decide (x.ctx = ctx))).flatMap (fun x => x.keys.filter (fun k => !decide (k.2 = 0)))

/-- The slots reserved for such keys. -/
def Block.sbReserved (b : Block) (ctx : Nat) : List Nat :=
  ((b.sbAccepted ctx).filter (fun k => decide (2 ≤ k.2))).map (fun k => k.2 - 2)

/-- The directory's registers: entries by state, slots in use of each context. -/
def Block.sbRegs (b : Block) : Block :=
  let l := b.beater.book.map (fun p => p.2)
  let n := fun (st : Nat) => (l.filter (fun e => e.valid && decide (e.state = st))).length
  let b := (b.rset .BEATER_SB_STATUS_TRACKED 0 (n sbAbsent)).rset .BEATER_SB_STATUS_FILLING 0 (n sbFilling)
  let b := b.rset .BEATER_SB_STATUS_REPLICATED 0 (n sbReplicated)
  (List.range 16).foldl (fun b c =>
    b.rset .BEATER_SB_POOL_CFG_USED c
      ((l.filter (fun e => e.slotted && decide (e.ctx = c))).length + (b.sbReserved c).length)) b

/-- Entry `i` replaced. -/
def Block.setSb (b : Block) (i : Nat) (e : SbEntry) : Block :=
  Block.sbRegs { b with beater := { b.beater with book := Sparse.set (always SbEntry.free) b.beater.book i e } }

/-- The indices of the entries that satisfy `p`, ascending. -/
def Block.sbWhere (b : Block) (p : SbEntry → Bool) : List Nat := (b.beater.book.filter (fun x => p x.2)).map (fun x => x.1)

/-- Entries that satisfy `p` are freed. -/
def Block.sbFreeWhere (b : Block) (p : SbEntry → Bool) : Block := (b.sbWhere p).foldl (fun b i => b.setSb i SbEntry.free) b

/-- The group entries of a group. -/
def SbEntry.ofGroup (e : SbEntry) (g : Nat) : Bool := e.inGroup && decide (e.group = g)

/-- The entry of BEATER_SB_GROUP of a group. -/
def Block.sbGroup (b : Block) (g : Nat) : Option Nat :=
  (List.range 64).find? (fun i => b.flag .BEATER_SB_GROUP_VALID i && decide (b.rget .BEATER_SB_GROUP_GROUP i = g))

/-- The entry of BEATER_SB_GROUP of a group, given one if it has none; none when all 64 are taken. -/
def Block.sbGroupOr (b : Block) (g : Nat) : Option (Nat × Block) :=
  match b.sbGroup g with
  | some i => some (i, b)
  | none =>
    match (List.range 64).find? (fun i => !b.flag .BEATER_SB_GROUP_VALID i) with
    | some i =>
      let b := (b.rset .BEATER_SB_GROUP_GROUP i g).rset .BEATER_SB_GROUP_VALID i 1
      some (i, ((b.rset .BEATER_SB_GROUP_DEGRADED i 0).rset .BEATER_SB_GROUP_GEN i 0).rset .BEATER_SB_GROUP_STEP i 0)
    | none => none

/-- The generation of a group (R311). -/
def Block.sbGen (b : Block) (g : Nat) : Nat :=
  match b.sbGroup g with
  | some i => b.rget .BEATER_SB_GROUP_GEN i
  | none => 0

/-- Whether a group is marked DEGRADED (R319). -/
def Block.sbDegraded (b : Block) (g : Nat) : Bool :=
  match b.sbGroup g with
  | some i => b.flag .BEATER_SB_GROUP_DEGRADED i
  | none => false

/-- A group's Stud Book state goes with its definition (R302, R535): entries and slots freed, GEN and STEP 0. -/
def Block.sbDropGroup (b : Block) (g : Nat) (undefine : Bool) : Block :=
  let b := b.sbFreeWhere (fun e => e.ofGroup g)
  let b := { b with beater := { b.beater with failed := b.beater.failed.filter (fun x => !decide (x.1 = g)) } }
  match b.sbGroup g with
  | some i =>
    let b := ((b.rset .BEATER_SB_GROUP_GEN i 0).rset .BEATER_SB_GROUP_STEP i 0).rset .BEATER_SB_GROUP_DEGRADED i 0
    if undefine then (b.rset .BEATER_SB_GROUP_VALID i 0).rset .BEATER_SB_GROUP_GROUP i 0 else b
  | none => b

/-- The lowest free slot of a context's pool (R303). -/
def Block.sbFreeSlot (b : Block) (ctx : Nat) : Option Nat :=
  let used := (b.beater.book.filter (fun p => p.2.slotted && decide (p.2.ctx = ctx))).map (fun p => p.2.slot) ++ b.sbReserved ctx
  (List.range (min (b.rget .BEATER_SB_POOL_CFG_SLOTS ctx) (used.length + 1))).find? (fun i => !used.contains i)

/-- The address of a replica slot (R303). -/
def Block.sbSlotVa (b : Block) (ctx slot : Nat) : Nat :=
  b.rget .BEATER_SB_POOL_VA_VA ctx * 64 + slot * b.rget .BEATER_SB_POOL_CFG_SLOT_UNITS ctx * 64

/-- Bytes 0 to 27 of an entry (R301). -/
def SbEntry.bytes (e : SbEntry) : List Byte :=
  if e.valid then
    bytesOf 8 (e.row + e.table * 2 ^ 40 + e.ctx * 2 ^ 52) ++
      bytesOf 1 (e.state + 4 + 8 * b2n e.owner + 16 * b2n e.stale + 32 * b2n e.filled) ++ bytesOf 1 0 ++ bytesOf 2 e.group ++
      bytesOf 4 e.slot ++ bytesOf 2 e.version ++ bytesOf 2 e.fillVer ++ bytesOf 2 e.heat ++ bytesOf 2 0 ++ bytesOf 4 e.stepAt
  else List.replicate 28 0

/-- The 32 bytes of an entry, its CRC last; a free way's are all 0. -/
def SbEntry.image (e : SbEntry) : List Byte := e.bytes ++ (if e.valid then bytesOf 4 (crc32c e.bytes) else bytesOf 4 0)

/-- An entry fails its CRC check (R319). -/
def Block.sbFail (b : Block) (i : Nat) : Block :=
  let e := b.sb i
  if !e.valid then b
  else
    let b := b.count .BEATER_SB_DETECT_COUNT 0 1
    if e.inGroup then
      let b := match b.sbGroup e.group with
        | some k => b.rset .BEATER_SB_GROUP_DEGRADED k 1
        | none => b
      let b := { b with beater := { b.beater with failed := (e.group, i / 16) :: b.beater.failed } }
      b.absorbed { source := 0x052, cls := 0x12, outcome := 0, ctx := e.ctx, unit := i }
    else (b.setSb i SbEntry.free).absorbed { source := 0x052, cls := 0x12, outcome := 0, ctx := e.ctx, unit := i }

/-- The entries of a command's keys that fail their CRC check as it reads them (R319). -/
def Block.sbFails (b : Block) (l : List Nat) : Block := l.foldl Block.sbFail b

/-- BEATER_SB_PEEK_IDX (R301): the write copies the entry into BEATER_SB_PEEK. -/
def Block.sbPeek (b : Block) (v : Nat) : Block :=
  let b := b.rset .BEATER_SB_PEEK_IDX_INDEX 0 v
  let im := (b.sb (v % 2 ^ 17)).image
  (List.range 4).foldl (fun b k => b.rset .BEATER_SB_PEEK_DATA k (field im (8 * k) 8)) b

end Sys2Proof.Machine
end

