-- ==== Sys2Proof/Machine/Relay.lean ====
section
/-! DEFINITION. The Relay's collectives (R371 to R388): what each does at its start, as data arrives, and when it is over. The
rows stand in `RelayCmd.lean`. -/

namespace Sys2Proof.Machine

/-! ### Actions of a collective -/

/-- The collective with a tag, in an action. -/
def theColl (tag : Nat) : Act Coll := do
  match (← get).coll tag with
  | some x => return x
  | none => throw .internal

/-- A collective changed in an action. -/
def collSet (tag : Nat) (f : Coll → Coll) : Act Unit := act (fun b => b.onColl tag f)

/-- The status of an unmapped page in a collective of an opcode (R298, R358, R393). -/
def unmappedCode (op : Nat) : Nat := if op / 256 = 2 then 0x2006 else if op / 256 = 3 then 0x3008 else 0x4008

/-- An action of a collective; an access error ends it on this member (R393). -/
def Block.collAct (b : Block) (tag op : Nat) (m : Act Unit) : Block :=
  match m b with
  | (.ok _, b) => b
  | (.error (.unmapped a), b) => b.endColl tag (unmappedCode op) 0 (a % 2 ^ 56)
  | (.error x, b) => let r := x.status (0, 0); b.endColl tag r.1 r.2 0

/-! ### Reductions (R371 to R380) -/

/-- The size in bytes of an element of format 0 (FP32) or 1 (BF16). -/
def esz (fmt : Nat) : Nat := if fmt = 1 then 2 else 4

end Sys2Proof.Machine

namespace Sys2Proof

open Machine

/-- BYTES, 0 selecting 16 MiB. -/
def CollParams.size (p : CollParams) : Nat := if p.bytes = 0 then 16777216 else p.bytes

/-- The elements of the bucket. -/
def CollParams.elements (p : CollParams) : Nat := p.size / Machine.esz p.fmt

/-- Chunk `j` of `n` members: its first element and its length (R375). -/
def CollParams.chunkAt (p : CollParams) (n j : Nat) : Nat × Nat :=
  let c := ceilDiv (ceilDiv p.elements n) 32 * 32
  (j * c, min ((j + 1) * c) p.elements - j * c)

/-- The chunks that are not empty. -/
def CollParams.chunkList (p : CollParams) (n : Nat) : List Nat := (List.range n).filter (fun j => decide ((p.chunkAt n j).2 ≠ 0))

/-- Whether a contribution is given. -/
def CollParams.hasSrc (p : CollParams) : Bool := decide (p.srcVa ≠ 2 ^ 64 - 1)

/-- Whether the fields of a reduction are out of range (R371 to R373, R376). -/
def CollParams.badRed (p : CollParams) (scatter : Bool) : Bool :=
  decide (p.size < 128 ∨ 67108864 < p.size ∨ p.size % 128 ≠ 0) || decide (3 < p.algo) || (scatter && decide (p.algo = 2)) ||
    decide (1 < p.fmt) || decide (1 < p.outFmt) || decide (1 < p.srcFmt) || decide (p.passes = 0 ∨ p.passes ≤ p.pass) ||
    (p.hasSrc && decide (p.srcFmt ≠ p.fmt) && !(decide (p.srcFmt = 1) && decide (p.fmt = 0))) ||
    (!p.hasSrc && decide (p.pass ≠ 0)) || (decide (p.hint = 3) && decide (p.useCount = 0))

end Sys2Proof

namespace Sys2Proof.Machine

/-- The algorithm of a reduction (R376): 1 RING, 2 TREE, 3 DIRECT. -/
def Block.redAlgo (b : Block) (p : CollParams) (scatter : Bool) (n : Nat) : Nat :=
  if p.algo ≠ 0 then p.algo
  else if !scatter && decide (p.size < b.rget .RELAY_CFG_TREE_BYTES * n) then 2
  else if n ≤ b.rget .RELAY_CFG_DIRECT_MAX then 3
  else 1

/-- The FP32 codes of `n` elements from `i` of packed bytes. -/
def codesAt (fmt : Nat) (bs : List Byte) (i n : Nat) : List Nat :=
  (elems fmt ((bs.drop (i * esz fmt)).take (n * esz fmt)) n).map (toF32 fmt)

/-- This member's elements of a range of its bucket. -/
def Coll.mine (x : Coll) (p : CollParams) (i n : Nat) : List Nat := codesAt p.fmt x.own i n

/-- Element-wise sums rounded once (R377). -/
def addLists (a b : List Nat) : List Nat := List.zipWith addF32 a b

/-- Conversions of FP32 codes to a format, with their counts noted in the collective. -/
def convList (fmt : Nat) (sat : Bool) (l : List Nat) : List Cvt := l.map (cvtCode 0 fmt .rne sat)

/-- The counts of conversions. -/
def Coll.noteCvt (x : Coll) (l : List Cvt) : Coll :=
  { x with sat := x.sat + (l.filter (·.sat)).length, ufl := x.ufl + (l.filter (·.ufl)).length }

/-- A partial sum leaves for a member (R377): FP32, or BF16 with WIRE_BF16. -/
def Coll.sendPartial (x : Coll) (p : CollParams) (dst leg : Nat) (l : List Nat) : Coll :=
  if p.wireBf16 then
    let c := convList 1 false l
    (x.noteCvt c).post dst leg (packElems 1 (c.map (·.code)))
  else x.post dst leg (packElems 0 l)

/-- A partial sum as it arrived. -/
def Coll.partialFrom (x : Coll) (p : CollParams) (leg i n : Nat) : List Nat := codesAt (b2n p.wireBf16) (x.stream leg i) 0 n

/-- The result of a chunk (R377): MEAN, and the conversion to the output format. -/
def redResult (p : CollParams) (n : Nat) (l : List Nat) : List Cvt :=
  let s := if p.mean then l.map (fun v => fmaF32 v (divF32 (natF32 1) (natF32 n)) 0) else l
  convList p.outFmt true s

/-- Whether a code of the output format is a NaN or an infinity. -/
def specialCode (fmt c : Nat) : Bool := (fp32.decode (toF32 fmt c)).isSpecial

/-- Result bytes are written at element `i` of the output (R375, R380). -/
def redWrite (tag : Nat) (c : Cmd) (p : CollParams) (i : Nat) (bs : List Byte) : Act Unit := do
  writeVa (c.req p.hint p.useCount) (p.outVa + i * esz p.outFmt) bs
  let sp := (elems p.outFmt bs (bs.length / esz p.outFmt)).any (specialCode p.outFmt)
  collSet tag (fun x => { x with special := x.special || sp })

/-- The result of chunk `j` is formed here (R377, R378): written, and for ALL_REDUCE sent on. -/
def redForm (tag : Nat) (c : Cmd) (p : CollParams) (scatter : Bool) (algo j : Nat) (l : List Nat) : Act Unit := do
  let x ← theColl tag
  let n := x.ranks.length
  let r := redResult p n l
  let bs := packElems p.outFmt (r.map (·.code))
  collSet tag (fun x => x.noteCvt r)
  redWrite tag c p (if scatter || decide (algo = 2) then 0 else (p.chunkAt n j).1) bs
  if !scatter then
    match algo with
    | 1 => collSet tag (fun x => x.post ((x.self + 1) % n) (2 * j + 1) bs)
    | 2 => collSet tag (fun x => ([2 * x.self + 1, 2 * x.self + 2].filter (fun i => decide (i < n))).foldl (fun x i => x.post i 1 bs) x)
    | _ => collSet tag (fun x => x.others.foldl (fun x i => x.post i (2 * j + 1) bs) x)

/-- A stream that is complete and not acted on yet. -/
def Coll.fresh (x : Coll) (leg i : Nat) : Bool := x.got leg i && !x.acted.contains (streamKey leg i)

/-- A stream has been acted on. -/
def collActed (tag leg i : Nat) : Act Unit := collSet tag (fun x => { x with acted := x.acted ++ [streamKey leg i] })

/-- RING: partials and results that came from the preceding member. -/
def ringStep (tag : Nat) (c : Cmd) (p : CollParams) (scatter : Bool) : Act Unit := do
  let x ← theColl tag
  let n := x.ranks.length
  let prev := (x.self + n - 1) % n
  let next := (x.self + 1) % n
  (p.chunkList n).forM (fun j => do
    let x ← theColl tag
    let k := p.chunkAt n j
    if x.fresh (2 * j) prev then
      collActed tag (2 * j) prev
      let s := addLists (x.partialFrom p (2 * j) prev k.2) (x.mine p k.1 k.2)
      if j = x.self then redForm tag c p scatter 1 j s
      else collSet tag (fun x => x.sendPartial p next (2 * j) s)
    if x.fresh (2 * j + 1) prev then
      collActed tag (2 * j + 1) prev
      redWrite tag c p k.1 (x.stream (2 * j + 1) prev)
      if next ≠ j then collSet tag (fun x => x.post next (2 * j + 1) (x.stream (2 * j + 1) prev)))

/-- DIRECT: the contributions to this member's chunk, and the results of the others. -/
def directStep (tag : Nat) (c : Cmd) (p : CollParams) (scatter : Bool) : Act Unit := do
  let x ← theColl tag
  let n := x.ranks.length
  let k := p.chunkAt n x.self
  let leg := 2 * x.self
  if k.2 ≠ 0 ∧ x.gotAll leg ∧ !x.acted.contains (streamKey leg x.self) then
    collActed tag leg x.self
    let part := fun (i : Nat) => if i = x.self then x.mine p k.1 k.2 else x.partialFrom p leg i k.2
    redForm tag c p scatter 3 x.self ((List.range (n - 1)).foldl (fun s i => addLists s (part (i + 1))) (part 0))
  (p.chunkList n).forM (fun j => do
    let x ← theColl tag
    if x.fresh (2 * j + 1) j then
      collActed tag (2 * j + 1) j
      redWrite tag c p (p.chunkAt n j).1 (x.stream (2 * j + 1) j))

/-- TREE: the subtrees' sums up, the result down. -/
def treeStep (tag : Nat) (c : Cmd) (p : CollParams) : Act Unit := do
  let x ← theColl tag
  let n := x.ranks.length
  let kids := [2 * x.self + 1, 2 * x.self + 2].filter (fun i => decide (i < n))
  if kids.all (fun i => x.got 0 i) ∧ !x.acted.contains (streamKey 0 x.self) then
    collActed tag 0 x.self
    let s := kids.foldl (fun s i => addLists s (x.partialFrom p 0 i p.elements)) (x.mine p 0 p.elements)
    if x.self = 0 then redForm tag c p false 2 0 s
    else collSet tag (fun x => x.sendPartial p ((x.self - 1) / 2) 0 s)
  if x.self ≠ 0 ∧ x.fresh 1 ((x.self - 1) / 2) then
    let up := (x.self - 1) / 2
    collActed tag 1 up
    redWrite tag c p 0 (x.stream 1 up)
    collSet tag (fun y => kids.foldl (fun y i => y.post i 1 (x.stream 1 up)) y)

/-- A reduction goes on. -/
def redStep (tag : Nat) (c : Cmd) (p : CollParams) (scatter : Bool) : Act Unit := do
  let x ← theColl tag
  if x.phase ≠ 0 ∧ x.ranks.length ≠ 1 then
    match x.phase with
    | 1 => ringStep tag c p scatter
    | 2 => treeStep tag c p
    | _ => directStep tag c p scatter

/-- Whether a reduction is over on this member. -/
def Coll.redOver (x : Coll) (p : CollParams) (scatter : Bool) : Bool :=
  let n := x.ranks.length
  let cs := p.chunkList n
  let prev := (x.self + n - 1) % n
  if n = 1 then true
  else match x.phase with
    | 1 => cs.all (fun j => (decide (j = prev) || x.acted.contains (streamKey (2 * j) prev)) &&
        (scatter || decide (j = x.self) || x.acted.contains (streamKey (2 * j + 1) prev)))
    | 2 => x.acted.contains (streamKey 0 x.self) && (decide (x.self = 0) || x.acted.contains (streamKey 1 ((x.self - 1) / 2)))
    | _ => (decide ((p.chunkAt n x.self).2 = 0) || x.acted.contains (streamKey (2 * x.self) x.self)) &&
        (scatter || cs.all (fun j => decide (j = x.self) || x.acted.contains (streamKey (2 * j + 1) j)))

/-- The members that this one receives from. -/
def Coll.redSources (x : Coll) : List Nat :=
  let n := x.ranks.length
  match x.phase with
  | 1 => if n = 1 then [] else [(x.self + n - 1) % n]
  | 2 => ([2 * x.self + 1, 2 * x.self + 2].filter (fun i => decide (i < n))) ++ (if x.self = 0 then [] else [(x.self - 1) / 2])
  | _ => x.others

/-- The contribution of a pass in the bucket's format (R372): read once, with LAST and a use count of 1. -/
def redSource (c : Cmd) (p : CollParams) : Act (List Byte) := do
  let raw ← readVa (c.req 3 1) p.srcVa (p.elements * esz p.srcFmt)
  return if p.srcFmt = p.fmt then raw else packElems p.fmt ((elems p.srcFmt raw p.elements).map (toF32 p.srcFmt))

/-- The 128-byte lines of a contribution are added to the bucket (R372). -/
def addLines (q : Req) (p : CollParams) (v : List Byte) : Act Unit :=
  (List.range (p.size / 128)).forM (fun i => do
    let _ ← atomicPiece q (p.bucketVa + i * 128) 128 (fun old => atomicBytes 8 p.fmt ((v.drop (i * 128)).take 128) [] old))

/-- What a pass does to the bucket (R372). -/
def redPass (c : Cmd) (p : CollParams) : Act Unit := do
  if p.hasSrc then
    let v ← redSource c p
    if p.pass = 0 then writeVa (c.req 0 0) p.bucketVa v else addLines (c.req 0 0) p v

/-- The communicating pass begins: the bucket is read (R374), and what this member sends first is ready. -/
def redBegin (tag : Nat) (c : Cmd) (p : CollParams) (algo : Nat) : Act Unit := do
  let q := if p.bucketLast then c.req 3 1 else c.req 0 0
  let bs ← readVa q p.bucketVa p.size
  collSet tag (fun x => { x with own := bs, phase := algo })
  let x ← theColl tag
  let n := x.ranks.length
  if n = 1 then redForm tag c p true algo 0 (x.mine p 0 p.elements)
  else
    match algo with
    | 1 =>
      let j := (x.self + n - 1) % n
      let k := p.chunkAt n j
      if k.2 ≠ 0 then collSet tag (fun x => x.sendPartial p ((x.self + 1) % n) (2 * j) (x.mine p k.1 k.2))
    | 2 => return ()
    | _ =>
      (p.chunkList n).forM (fun j => do
        let k := p.chunkAt n j
        if j ≠ x.self then collSet tag (fun x => x.sendPartial p j (2 * j) (x.mine p k.1 k.2)))

/-! ### Gathers and broadcasts (R382, R383) -/

/-- ALL_GATHER: units of the other members are written as they land. -/
def gatherStep (tag : Nat) (c : Cmd) (p : CollParams) : Act Unit := do
  let x ← theColl tag
  x.others.forM (fun i => do
    if x.fresh 0 i then
      collActed tag 0 i
      writeVa (c.req p.hint p.useCount) (p.outVa + i * p.size) (x.stream 0 i))

/-- BROADCAST: each unit is written, and goes to the next member as soon as it has landed. -/
def bcastStep (tag : Nat) (c : Cmd) (p : CollParams) : Act Unit := do
  let x ← theColl tag
  let n := x.ranks.length
  let prev := (x.self + n - 1) % n
  let next := (x.self + 1) % n
  let have_ := Sparse.get (always 0) x.units (streamKey 0 prev)
  if x.self ≠ p.root ∧ x.phase < have_ then
    (List.range (have_ - x.phase)).forM (fun d => do
      let k := x.phase + d
      let bs := ((x.stream 0 prev).drop (k * unitBytes)).take unitBytes
      writeVa (c.req p.hint p.useCount) (p.outVa + k * unitBytes) bs
      if next ≠ p.root then
        collSet tag (fun x => { x with outq := x.outq ++ [⟨next, 0, k, decide (p.size ≤ (k + 1) * unitBytes), bs⟩] }))
    collSet tag (fun x => { x with phase := have_ })

/-- Whether a gather or a broadcast is over. -/
def Coll.gatherOver (x : Coll) : Bool := x.others.all (fun i => x.acted.contains (streamKey 0 i))

/-- Whether a BROADCAST is over. -/
def Coll.bcastOver (x : Coll) (p : CollParams) : Bool := decide (x.self = p.root) || decide (p.size ≤ x.phase * unitBytes)

/-! ### ALL_TO_ALL_V (R384) -/

/-- A length rounded up to a line. -/
def lineUp (n : Nat) : Nat := ceilDiv n 128 * 128

/-- Where segment `i` of a list of lengths begins: each on a 128-byte boundary. -/
def segAt (l : List Nat) (i : Nat) : Nat := (l.take i).foldl (fun s n => s + lineUp n) 0

/-- The counts that this member sends, kept as 8-byte numbers. -/
def Coll.sendCounts (x : Coll) : List Nat := (List.range x.ranks.length).map (fun i => field x.own (8 * i) 8)

/-- The counts that arrive: leg 0, and this member's own. -/
def Coll.recvCounts (x : Coll) : List Nat :=
  (List.range x.ranks.length).map (fun i => if i = x.self then field x.own (8 * i) 8 else field (x.stream 0 i) 0 8)

/-- ALL_TO_ALL_V goes on: phase 1 once the counts have been compared with RECV_BYTES. Legs: 0 counts, 1 verdicts, 2 data. -/
def a2aStep (tag : Nat) (c : Cmd) (p : A2aParams) : Act Unit := do
  let x ← theColl tag
  let n := x.ranks.length
  if x.phase = 0 ∧ x.gotAll 0 then
    let rc := x.recvCounts
    let need := segAt rc n
    let ok := decide (need ≤ p.recvBytes)
    collSet tag (fun x =>
      let y := { x with phase := 1, small := !ok, rx := need }
      y.others.foldl (fun y i => y.post i 1 [BitVec.ofNat 8 (b2n ok)]) y)
    if ok then
      writeVa (c.req 0 0) p.recvCountsVa (rc.flatMap (bytesOf 8))
      let bs ← readVa (c.req 0 0) (p.sendVa + segAt x.sendCounts x.self) (x.sendCounts.getD x.self 0)
      writeVa (c.req 0 0) (p.recvVa + segAt rc x.self) bs
  x.others.forM (fun i => do
    let x ← theColl tag
    if x.fresh 1 i then
      collActed tag 1 i
      if field (x.stream 1 i) 0 1 = 1 then
        let bs ← readVa (c.req 0 0) (p.sendVa + segAt x.sendCounts i) (x.sendCounts.getD i 0)
        if bs.length ≠ 0 then collSet tag (fun x => x.post i 2 bs)
      else collSet tag (fun x => { x with refused := x.refused ++ [i] })
    if x.fresh 2 i ∧ !x.small then
      collActed tag 2 i
      writeVa (c.req 0 0) (p.recvVa + segAt x.recvCounts i) (x.stream 2 i))

/-- Whether an ALL_TO_ALL_V is over. -/
def Coll.a2aOver (x : Coll) : Bool :=
  decide (x.phase = 1) && x.others.all (fun i => x.acted.contains (streamKey 1 i) &&
    (x.small || decide (x.recvCounts.getD i 0 = 0) || x.acted.contains (streamKey 2 i)))

/-! ### PERMUTE (R386 to R388) -/

/-- An entry of the move list: source, destination, offsets, length. -/
structure Move where
  src : Nat
  dst : Nat
  from_ : Nat
  to_ : Nat
  len : Nat
  deriving DecidableEq, Repr

/-- The move list, of 32-byte entries. -/
def movesOf (bs : List Byte) : List Move :=
  (List.range (bs.length / 32)).map (fun i =>
    ⟨field bs (32 * i) 2, field bs (32 * i + 2) 2, field bs (32 * i + 8) 8, field bs (32 * i + 16) 8, field bs (32 * i + 24) 8⟩)

/-- Whether an entry is out of range. -/
def Move.bad (m : Move) (n : Nat) : Bool :=
  decide (n ≤ m.src ∨ n ≤ m.dst ∨ m.from_ % 128 ≠ 0 ∨ m.to_ % 128 ≠ 0 ∨ m.len % 128 ≠ 0)

/-- The entries that this member sends, each with the place of its bytes in the staging area. -/
def staged (self : Nat) : Nat → List Move → List (Move × Nat)
  | _, [] => []
  | o, m :: ms => if m.src = self then (m, o) :: staged self (o + m.len) ms else staged self o ms

/-- How many bytes this member stages. -/
def stageBytes (self : Nat) (ms : List Move) : Nat := (ms.filter (fun m => decide (m.src = self))).foldl (fun s m => s + m.len) 0

/-- The bytes of a move are written to BASE_VA (R386), and noted: a PERMUTE that fails leaves them undefined (R388). -/
def moveIn (tag : Nat) (q : Req) (p : PermuteParams) (m : Move) (bs : List Byte) : Act Unit := do
  collSet tag (fun x => { x with outs := x.outs ++ [(p.baseVa + m.to_, m.len)] })
  writeVa q (p.baseVa + m.to_) bs

/-- The bytes in which ranges overlap: which move wrote such a byte last is undefined (R387). -/
def overlapsOf : List (Nat × Nat) → List (Nat × Nat)
  | [] => []
  | r :: rs => rs.filterMap (fun k =>
      let lo := max r.1 k.1
      let hi := min (r.1 + r.2) (k.1 + k.2)
      if lo < hi then some (lo, hi - lo) else none) ++ overlapsOf rs

/-- PERMUTE goes on. Phases: 0 drain, 1 drained and told, 2 moving, 3 its moves complete. -/
def permuteStep (tag : Nat) (c : Cmd) (p : PermuteParams) : Act Unit := do
  let x ← theColl tag
  let n := x.ranks.length
  let ms := movesOf x.own
  let q := c.req 0 0
  if x.phase = 1 ∧ (List.range n).all (fun i => x.drained.contains i) ∧ !x.small then
    let st := staged x.self 0 ms
    st.forM (fun m => do
      let bs ← readVa q (p.baseVa + m.1.from_) m.1.len
      writeVa q (p.workVa + m.2) bs)
    collSet tag (fun x => { x with phase := 2 })
    act (fun b => match b.groupSlot (p.group) with
      | some i => b.rset .RELAY_GROUP_STATE i 2
      | none => b)
    (List.range n).forM (fun i => do
      let l ← (st.filter (fun m => decide (m.1.dst = i))).mapM (fun m => readVa q (p.workVa + m.2) m.1.len)
      if i = x.self then
        (((st.filter (fun m => decide (m.1.dst = i))).map (fun m => m.1)).zip l).forM (fun m => moveIn tag q p m.1 m.2)
      else if l ≠ [] then collSet tag (fun x => x.post i 0 l.flatten))
  let x ← theColl tag
  if x.phase = 2 then
    x.others.forM (fun i => do
      let mine := ms.filter (fun m => decide (m.src = i) && decide (m.dst = x.self))
      if x.fresh 0 i then
        collActed tag 0 i
        let bs := x.stream 0 i
        let _ ← mine.foldlM (fun (o : Nat) m => do
          moveIn tag q p m ((bs.drop o).take m.len)
          return o + m.len) 0)
    let x ← theColl tag
    if x.others.all (fun i => !ms.any (fun m => decide (m.src = i) && decide (m.dst = x.self)) ||
        x.acted.contains (streamKey 0 i)) then
      collSet tag (fun x => { x with phase := 3, moved := x.moved ++ [x.self] })
      act (fun b => (overlapsOf x.outs).foldl (fun b r => b.freeWork x.ctx r.1 r.2) b)
      act (fun b => (b.tellAll (x.others.map (fun i => x.ranks.getD i 0)) 1 x.ctx (.movesDone p.group p.epoch) none).1)

/-- A PERMUTE whose drain is complete says so to every member (R386): no collective of its old epoch is in flight. -/
def Block.permuteDrain (b : Block) (tag : Nat) : Block :=
  match b.coll tag with
  | none => b
  | some x =>
    let g := tagGroup tag
    let old := (tagEpoch tag + 255) % 256
    if x.phase ≠ 0 ∨ b.relay.colls.any (fun y => decide (tagGroup y.tag = g) && decide (tagEpoch y.tag = old) && decide (y.passes ≠ 0)) then b
    else
      let b := b.setColl { x with phase := 1, drained := x.drained ++ [x.self] }
      (b.tellAll (x.others.map (fun i => x.ranks.getD i 0)) 1 x.ctx (.drained g (tagEpoch tag) x.small) none).1

/-- The members that this one receives moves from. -/
def Coll.moveSources (x : Coll) : List Nat :=
  x.others.filter (fun i => (movesOf x.own).any (fun m => decide (m.src = i) && decide (m.dst = x.self)))

/-- A PERMUTE ends once every member has reported its moves (R386), or before its Stage phase when a staging area is too
small (R387). -/
def Block.permuteEnd (b : Block) (tag : Nat) (det : Bool) : Block :=
  match b.coll tag with
  | none => b
  | some x =>
    let ms := movesOf x.own
    let n := x.ranks.length
    if !b.collRuns x then b
    else if x.phase = 1 ∧ x.small ∧ (List.range n).all (fun i => x.drained.contains i) then
      b.endColl tag 0x4005 0 (stageBytes x.self ms)
    else if x.phase = 3 ∧ x.outq = [] ∧ (List.range n).all (fun i => x.moved.contains i) then
      let got := (ms.filter (fun m => decide (m.dst = x.self))).foldl (fun s m => s + m.len) 0
      let b := b.setEpoch (tagGroup tag) (tagEpoch tag)
      b.endColl tag (if det then 0x0002 else 0) 0 (halves (stageBytes x.self ms) got)
    else b

/-- A PERMUTE goes as far as it can. -/
def Block.permuteAdvance (b : Block) (tag : Nat) (c : Cmd) (p : PermuteParams) : Block :=
  let b := b.permuteDrain tag
  match b.coll tag with
  | none => b
  | some x =>
    if !b.collRuns x then b
    else
      let b := b.collAct tag c.opcode (permuteStep tag c p)
      let b := match b.coll tag with
        | some y => if x.phase < 2 ∧ 2 ≤ y.phase ∧ b.collRuns y then b.openColl tag y.moveSources else b
        | none => b
      (b.pump tag).permuteEnd tag x.recovered

/-- The PERMUTEs that drain go on after a collective has left the Relay. -/
def Block.permutes (b : Block) : Block :=
  b.relay.colls.foldl (fun b x =>
    match x.cmd.bind b.findCmd with
    | some c =>
      match c.params with
      | .permute p => if x.phase = 0 then b.permuteAdvance x.tag c p else b
      | _ => b
    | none => b) b

end Sys2Proof.Machine
end

