-- ==== Sys2Proof/Machine/Complete.lean ====
section
/-! DEFINITION. The completion event of a command (R14, R22, R51, R68, R83 to R90, R496, R500). -/

namespace Sys2Proof.Machine

/-- Whether an effect is a SIGNAL to a tile that has been retired meanwhile (R157, R511). -/
def Block.flagGone (b : Block) : Effect → Bool
  | .flag n _ => !b.tileWorks n
  | .count _ _ _ => false
  | .doorbell _ _ => false
  | .stream _ => false

/-- The status and detail of a record: HOST_CUT, or SECURITY when the cut was an IDE failure, for a command whose
host-bound writes were cut (R49, R51, R55); SNAPSHOT_TORN (R267); OK_RECOMPUTED after an absorbed detection (R88). -/
def Block.finalStatus (b : Block) (c : Cmd) (r : Result) : Result :=
  match c.cutIdx with
  | some i =>
    if r.status < 0x0100 ∨ r.status = 0x0500 then
      let reason := match b.hitch.cuts[i]? with
        | some e => e.reason
        | none => b.rget .HITCH_STATUS_LAST_REASON
      { r with status := if reason = 6 then 0x0700 else 0x0500, detail := i }
    else r
  | none =>
    let torn := match b.drover.snaps.find? (fun s => decide (s.cmd = c.id)) with
      | some s => s.torn.length
      | none => 0
    if torn ≠ 0 ∧ r.status < 0x0100 then { r with status := 0x6003, engine := r.engine + torn }
    else if c.effects.any (b.flagGone ·) then { r with status := 0x0100, detail := 17 }
    else if r.status = 0 ∧ c.det then { r with status := 0x0002 }
    else r

/-- An effect of the completion event (R120, R157). -/
def Block.applyEffect (b : Block) : Effect → Block
  | .count f i n => b.count f i n
  | .flag t f => if b.tileWorks t then b.flagUp t f else b
  | .doorbell m bit => b.mbxRing m (2 ^ bit)
  | .stream n => b.onTile n (fun t => { t with streamT := some b.clk.t })

/-- The entry of class 0x14 for a command that ends with HOST_CUT or SECURITY (R51). -/
def Block.cutCmdEntry (b : Block) (c : Cmd) (status : Nat) : Block :=
  if status = 0x0500 ∨ status = 0x0700 then
    b.errLog { source := 0x056, cls := 0x14, outcome := 1, status := status, ctx := c.ctx, cmd := some (c.ring, c.seq) }
  else b

/-- What a status brings beyond the record: a module fault's count (R500), the retirement of a tile (R496). -/
def Block.escalate (b : Block) (c : Cmd) (status : Nat) : Block :=
  let src := sourceOf c.opcode c.tile
  if status = 0x0FFF then b.noteEscalation 0x15 src
  else if status = 0x3007 then b.noteEscalation 0x04 src
  else if (status = 0x1005 ∨ status = 0x1009 ∨ status = 0x5004) ∧ b.flag .OSTLER_FAULT_CFG_AUTO_RETIRE then
    b.tileCause (c.detTile.getD c.tile)
  else b

/-- FENCE, SIGNAL, WAIT and MBX_ACCESS complete in a later tick than their start (R156 to R158, R160). -/
def Block.afterStart (b : Block) (c : Cmd) : Block :=
  if 0x0107 ≤ c.opcode ∧ c.opcode ≤ 0x010A then b.advanceTo (c.startT + 64) else b

/-- The commands of the Beater and of the Stud Book in progress (BEATER_STATUS, BEATER_SB_STATUS.BUSY). -/
def Block.beaterRegs (b : Block) : Block :=
  let l := b.cmds.filter (fun (c : Cmd) => decide (c.opcode / 256 = 2) && decide (c.phase = .running ∨ c.phase = .done))
  let has := fun (f : Nat → Bool) => b2n (l.any (fun (c : Cmd) => f c.opcode))
  let b := b.rset .BEATER_STATUS_INFLIGHT 0 l.length
  let b := b.rset .BEATER_STATUS_UPDATING 0 (has (fun o => decide (o = 0x0204)))
  Block.sbRegs (b.rset .BEATER_SB_STATUS_BUSY 0 (has (fun o => decide (o = 0x0205 ∨ o = 0x0206 ∨ o = 0x0207))))

/-- The UPDATE and REVERT commands that run, and the UPDATEs held (FARRIER_STATUS). -/
def Block.farrierRegs (b : Block) : Block :=
  let l := b.cmds.filter (fun (c : Cmd) => decide (c.opcode = 0x0302 ∨ c.opcode = 0x0304) && decide (c.phase = .running ∨ c.phase = .done) &&
    !b.farrier.held.any (fun h => decide (h.cmd = c.id)))
  (b.rset .FARRIER_STATUS_RUNNING 0 l.length).rset .FARRIER_STATUS_WAITING 0 b.farrier.held.length

/-- The class 0x05 commands in progress (BLINK_STATUS). -/
def Block.blinkRegs (b : Block) : Block :=
  let n := fun (o : Nat) => (b.cmds.filter (fun (c : Cmd) => decide (c.opcode = o) && decide (c.phase = .running ∨ c.phase = .done))).length
  let b := b.rset .BLINK_STATUS_ACTIVE 0 (n 0x0501)
  let b := b.rset .BLINK_STATUS_LATCHING 0 (b2n (b.attends.any (fun a => a.latching)))
  b.rset .BLINK_STATUS_EDITING 0 (b2n (decide (n 0x0502 ≠ 0)))

/-- NORM_REDUCE's completion event gives its clip slot the step's norm (R347). -/
def Block.normDone (b : Block) (c : Cmd) (status engine : Nat) : Block :=
  match c.params with
  | .normReduce p =>
    let k := p.clipSlot
    if 0x0100 ≤ status then b
    else
      let b := b.rset .FARRIER_CLIP_PREV_STEP k (b.rget .FARRIER_CLIP_STEP k)
      let b := b.rset .FARRIER_CLIP_PREV_NORM k (b.rget .FARRIER_CLIP_NORM k)
      let b := b.rset .FARRIER_CLIP_CFG_PREV_VALID k (b.rget .FARRIER_CLIP_CFG_VALID k)
      ((b.rset .FARRIER_CLIP_STEP k p.cstep).rset .FARRIER_CLIP_NORM k (engine % 2 ^ 32)).rset .FARRIER_CLIP_CFG_VALID k 1
  | _ => b

/-- What the completion event of a command does to the engine that ran it: the Relay, the Beater, the Farrier,
Blinkers. -/
def Block.engineDone (b : Block) (c : Cmd) (r : Result) : Block :=
  let b := (b.collDone c r.status).normDone c r.status r.engine
  let f := b.farrier
  let b := { b with farrier := { f with holds := f.holds.filter (fun h => !decide (h.cmd = c.id))
                                        held := f.held.filter (fun h => !decide (h.cmd = c.id))
                                        lagged := f.lagged.filter (fun h => !decide (h.cmd = c.id))
                                        fetches := f.fetches.filter (fun h => !decide (h.cmd = some c.id)) } }
  let b := { b with attends := b.attends.filter (fun a => !decide (a.cmd = c.id)) }
  b.beaterRegs.farrierRegs.blinkRegs.permutes

/-- The completion event of a command with its result. -/
def Block.complete (b : Block) (c : Cmd) (r0 : Result) (fail : Nat) : Block :=
  let b := b.afterStart c
  let r := b.finalStatus c r0
  let src := sourceOf c.opcode c.tile
  let dr := { b.drover with snaps := b.drover.snaps.filter (fun s => decide (s.cmd ≠ c.id)), late := b.drover.late.filter (fun x => decide (x.1 ≠ c.id)) }
  let b := { b with cmds := b.cmds.filter (fun (x : Cmd) => decide (x.id ≠ c.id)), drover := dr }
  let b := if c.joined then b.tileLeave c.tile else b
  let b := b.engineDone c r
  let b := c.effects.foldl Block.applyEffect b
  let b := if r.status < 0x0100 ∧ c.signals then b.count .SPAOG_GATE_VALUE c.trailer.signalGate 1 else b
  let b := b.cutCmdEntry c r.status
  let b := b.perf src 0x02 0 c.ctx 1
  let b := if b.traced c then
      b.traceRec src 2 4 c.ctx c.seq (c.ring + r.status * 2 ^ 16 + r.detail % 2 ^ 16 * 2 ^ 32) c.cookie
    else b
  let b := if bitAt c.flags 1 ∧ r.status = 0 then b.unreserve c.cq
    else b.postRecord ⟨c.cq, c.ring, c.seq, r.status, r.detail % 2 ^ 16, c.cookie, r.engine % 2 ^ 64, bitAt c.flags 2, c.ctx, src, fail⟩
  let b := b.escalate c r.status
  if c.joined then b.notePrim c.tile else b

/-- COMMAND_COMPLETION (R84): `fail` is 1 where the write of the record fails in the way that R87 gives, 2 where that of the
tail write-back does. -/
def execCommandCompletion (id : Nat) (fail : Fin 3) (s : State) : Host.Outcome State Fault Refusal :=
  s.run (fun b =>
    match b.findCmd id with
    | some c =>
      match c.phase, c.result with
      | .done, some r => b.complete c r fail
      | _, _ => b
    | none => b)

end Sys2Proof.Machine
end

