-- ==== Sys2Proof/Machine/Tile.lean ====
section
/-! DEFINITION. The commands of a compute tile but VKERN (chapter 05), and the writes of its registers. -/

namespace Sys2Proof.Machine

/-! ### Ends of tile commands -/

/-- A command ends with the outcome of an action; an unmapped or forbidden page gives TRANSLATION with the address of the
first byte that lies in it (R161, R162). -/
def Block.tileConclude (b : Block) (id : Nat) (m : Act (Nat × Nat × Nat)) : Block :=
  match m b with
  | (.ok (s, d, e), b) => b.finish id s d e
  | (.error (.unmapped a), b) => b.finish id 0x1003 0 (a % 2 ^ 56)
  | (.error x, b) => let r := x.status (0x1003, 0); b.finish id r.1 r.2 0

/-- A tile-store parity detection of a command (R155): LOST_DATA with the failing address, an entry of class 0x08, and the
tile's count (R496). -/
def Block.parityLost (b : Block) (c : Cmd) (a : Nat) : Block :=
  let b := b.finish c.id 0x0300 0 a
  let b := b.errLog { source := c.tile, cls := 0x08, outcome := 1, status := 0x0300, ctx := c.ctx, cmd := some (c.ring, c.seq), addr := a }
  (b.perf c.tile 0x0C 0 c.ctx 1).noteParity c.tile

/-- The parity error that a command's reads meet: an address in one of the ranges it reads. -/
def parityHit (spans : List (Nat × Nat × Bool)) (par : Option Nat) : Option Nat :=
  par.bind (fun a => if spans.any (fun s => !s.2.2 && decide (s.1 ≤ a) && decide (a ≤ s.2.1)) then some a else none)

/-! ### LOAD and STORE (R161) -/

/-- The requests of a tile's memory port: its team's translation cache (R246). -/
def Cmd.port (c : Cmd) (hint uses : Nat) : Req := c.req hint uses (c.tile / 8)

end Sys2Proof.Machine

namespace Sys2Proof

open Machine

/-- The line-sized pieces of a copy in its own order: device virtual address, tile-store address, bytes. -/
def CopyParams.parts (p : CopyParams) : List (Nat × Nat × Nat) :=
  (List.range p.rows).flatMap (fun r =>
    let va := (p.va + r * p.vaStride) % 2 ^ 56
    (piecesOf va p.rowBytes).map (fun x => (x.1, Machine.tsAddr p.tsAddr + r * p.tsStride + (x.1 - va), x.2)))

end Sys2Proof

namespace Sys2Proof.Machine

/-- Bytes written to a tile store. -/
def Block.tsWrite (b : Block) (n a : Nat) (bs : List Byte) : Block :=
  b.onTile n (fun t => { t with store := t.store.writeBytes a bs })

/-- The pieces of a LOAD, one after the other. -/
def loadParts (q : Req) (n : Nat) : List (Nat × Nat × Nat) → Act Unit
  | [] => return ()
  | x :: rest => do
    let bs ← readPiece q x.1 x.2.2
    act (fun b => b.tsWrite n x.2.1 bs)
    loadParts q n rest

/-- The pieces of a STORE, one after the other, up to a failing word. -/
def storeParts (q : Req) (n : Nat) (par : Option Nat) : List (Nat × Nat × Nat) → Act (Option Nat)
  | [] => return none
  | x :: rest => do
    let st := ((← get).tile n).store
    match par with
    | some a =>
      if x.2.1 ≤ a ∧ a < x.2.1 + x.2.2 then
        if x.2.1 < a / 4 * 4 then writePiece q x.1 (st.readBytes x.2.1 (a / 4 * 4 - x.2.1))
        return some a
      else
        writePiece q x.1 (st.readBytes x.2.1 x.2.2)
        storeParts q n par rest
    | none =>
      writePiece q x.1 (st.readBytes x.2.1 x.2.2)
      storeParts q n par rest

/-- LOAD (R161). -/
def execLoad (id : Nat) (p : CopyParams) (s : State) : Host.Outcome State Fault Refusal :=
  s.run (fun b => b.tileCmd id (.load p) (fun c b => b.tileConclude id (do
    loadParts (c.port p.hint p.useCount) c.tile p.parts
    return (0, 0, p.rows * p.rowBytes % 2 ^ 32))))

/-- STORE (R155, R161): `par` the tile-store address of a parity error that it meets. -/
def execStore (id : Nat) (p : CopyParams) (par : Option Nat) (s : State) : Host.Outcome State Fault Refusal :=
  s.run (fun b => b.tileCmd id (.store p) (fun c b =>
    let a := parityHit (b.plan c).spans par
    match storeParts (c.port p.hint p.useCount) c.tile a p.parts b with
    | (.ok (some x), b) => b.parityLost c x
    | (.ok none, b) => b.finish id 0 0 (p.rows * p.rowBytes % 2 ^ 32)
    | (.error x, b) => b.tileConclude id (throw x)))

/-! ### Groups -/

/-- A group or slot replaced, with the registers that show it: TILE_GRP, TILE_SLOT_OPEN and TILE_STATUS.OPEN. -/
def Block.setGroup (b : Block) (n k : Nat) (g : Group) : Block :=
  let b := b.onTile n (fun t => { t with groups := Sparse.set (always Group.none) t.groups k g })
  if k < 8 then
    let i := n * 8 + k
    let b := (b.rset .TILE_GRP_OPEN i (b2n g.isOpen)).rset .TILE_GRP_INT i (b2n g.isInt)
    let b := (b.rset .TILE_GRP_FIRST_ROW i (g.base / 256 % 1024)).rset .TILE_GRP_ROWS i g.rows
    let b := (b.rset .TILE_GRP_MATMULS i g.matmuls.length).rset .TILE_GRP_ARRAY_CYCLES i g.cycles
    let o := b.rget .TILE_STATUS_OPEN n
    b.rset .TILE_STATUS_OPEN n (if g.isOpen then setBit o k else clearBit o k)
  else
    let i := n * 8 + (k - 8) / 64
    let w := b.rget .TILE_SLOT_OPEN_OPEN i
    let b := b.rset .TILE_SLOT_OPEN_OPEN i (if g.isOpen then setBit w ((k - 8) % 64) else clearBit w ((k - 8) % 64))
    b.rset .TILE_STATUS_OPEN n (b2n ((b.tile n).groups.any (fun g => g.2.isOpen)))

/-- A group or slot is released (R141). -/
def Block.releaseGroup (b : Block) (n k : Nat) : Block :=
  let b := b.setGroup n k Group.none
  b.rset .TILE_STATUS_REPLAYING n (b2n ((b.tile n).groups.any (fun g => g.2.closing.isSome)))

/-- ACC_STATE with a detail (R163). -/
def Block.accState (b : Block) (id d : Nat) : Block := b.finish id 0x1001 d 0

/-- Why a MATMUL is not executed, if it is not: status, detail, engine bytes (R135, R136, R139, R155). -/
def matmulErr (p : MatmulParams) (m : AccMode) (g : Group) : Option (Nat × Nat × Nat) :=
  if !g.isOpen then some (0x1001, 1, 0)
  else match g.failed with
    | some a => some (0x0300, 0, a)
    | none =>
      if 256 ≤ g.matmuls.length then some (0x1001, 3, 0)
      else if g.isInt ≠ (p.isInt && !p.scaled) then some (0x1001, 4, 0)
      else if g.rows < (if m.legacy then 0 else p.rowOff) + ceilDiv p.n 64 * p.m then some (0x1001, 5, 0)
      else none

/-- L (R132): 0 for a MATMUL that waited for nothing but the array and starts as the array ends its previous MATMUL. -/
def Block.shadowCycles (b : Block) (n id : Nat) : Nat :=
  match (b.tile n).prim with
  | some (i, t) => if i = id ∧ t < b.clk.t ∧ (b.tile n).streamT = some b.clk.t then 0 else 160
  | none => 160

/-- A MATMUL executes (R111, R132, R151): `upset` the errors of the array. -/
def Block.runMatmul (b : Block) (c : Cmd) (p : MatmulParams) (k : Nat) (upset : List (Nat × Nat × BitVec 32)) : Block :=
  let n := c.tile
  let t := b.tile n
  let g := b.group n k
  let r := g.add t.store t.acc p (if (b.accMode n).legacy then 0 else p.rowOff)
  let cyc := b.shadowCycles n c.id + p.cycles
  let b := if p.resetBusy then b.rset .TILE_ARRAY_BUSY_COUNT n 0 else b
  let b := b.setTile n { t with acc := r.1.upset r.2.1 upset, streamT := none }
  let b := b.setGroup n k { r.1 with matmuls := g.matmuls ++ [p], cycles := min 0xFFFFFFFF (g.cycles + cyc) }
  let b := (b.addEffect c.id (.count .TILE_ARRAY_BUSY_COUNT n cyc)).addEffect c.id (.count .TILE_CVT_SAT_COUNT n r.2.2)
  ((b.addEffect c.id (.stream n)).perf n 0x04 0 c.ctx cyc).finish c.id 0 0 (halves cyc r.2.2)

/-- MATMUL (R111, R133 to R136, R139, R155): `par` the tile-store address of a parity error that it meets. -/
def execMatmul (id : Nat) (p : MatmulParams) (par : Option Nat) (upset : List (Nat × Nat × BitVec 32)) (s : State) :
    Host.Outcome State Fault Refusal :=
  s.run (fun b => b.tileCmd id (.matmul p) (fun c b =>
    let m := b.accMode c.tile
    let k := p.key m
    let g := b.group c.tile k
    match matmulErr p m g, parityHit (b.plan c).spans par with
    | some e, _ => b.finish id e.1 e.2.1 e.2.2
    | none, some a => (b.setGroup c.tile k { g with failed := some a }).parityLost c a
    | none, none => b.runMatmul c p k upset))

/-- Whether an ACC_OPEN meets an open group (R137). -/
def Block.openClash (b : Block) (n k base rows : Nat) : Bool :=
  (b.group n k).isOpen ||
    (decide (k < 8) && (b.tile n).groups.any (fun g => decide (g.1 < 8) && decide (g.1 / 4 = k / 4) && g.2.isOpen &&
      decide (g.2.base < base + rows * 256) && decide (base < g.2.base + g.2.rows * 256)))

/-- The group that an ACC_OPEN opens (R137, R144, R164). -/
def Block.newGroup (b : Block) (n : Nat) (p : AccOpenParams) (m : AccMode) : Group :=
  { Group.none with
    isOpen := true
    isInt := decide (p.entry = 7)
    bf16 := m.bf16
    base := if m.legacy then p.firstRow * m.rows * 64 * m.entry else (p.group / 4 * 1024 + p.firstRow) * 256
    rows := p.rows
    initAddr := if p.init = 1 then some (tsAddr p.initAddr) else none
    check := ⟨b.flag .TILE_CHECK_CFG_ENABLE n, b.rget .TILE_CHECK_CFG_TOL_EXP n, b.rget .TILE_CHECK_CFG_TOL_ABS n⟩ }

/-- ACC_OPEN (R137, R138, R145, R155). -/
def execAccOpen (id : Nat) (p : AccOpenParams) (par : Option Nat) (s : State) : Host.Outcome State Fault Refusal :=
  s.run (fun b => b.tileCmd id (.accOpen p) (fun c b =>
    let m := b.accMode c.tile
    let k := p.key m
    let g := b.newGroup c.tile p m
    if b.openClash c.tile k g.base g.rows then b.accState id 2
    else match parityHit (b.plan c).spans par with
      | some a => (b.setGroup c.tile k { g with failed := some a }).parityLost c a
      | none =>
        let t := b.tile c.tile
        let r := g.start t.store t.acc
        ((b.setTile c.tile { t with acc := r.2 }).setGroup c.tile k r.1).finish id 0 0 0))

/-! ### Drains -/

/-- The drain of a group (R141): every tile row is written to the destination, unchanged in format. -/
def Block.drainRows (b : Block) (n : Nat) (p : AccCloseParams) (g : Group) : Block :=
  b.onTile n (fun t => { t with store := (List.range g.rows).foldl (fun st i =>
    st.writeBytes (tsAddr p.dest + i * p.destStride) (t.acc.readBytes (g.addr i 0) (64 * g.entry))) t.store })

/-- The record of a drained group (R149, R162). -/
def drainRecord (sp : Option (Nat × Nat)) (replayed : Bool) (skipped : Nat) : Nat :=
  (sp.map (fun x => x.1)).getD 0xFFFF + (sp.map (fun x => x.2)).getD 0xFF * 2 ^ 16 +
    (b2n sp.isSome + 2 * b2n replayed + 4 * b2n (decide (skipped ≠ 0))) * 2 ^ 24 + skipped % 2 ^ 32 * 2 ^ 32

/-- An entry of class 0x01 (R495): UNIT holds the tile row in its upper half. -/
def checkEntry (c : Cmd) (outcome status : Nat) (det : Nat × Nat) (now : Nat) : ErrIn :=
  { source := c.tile, cls := 0x01, outcome := outcome, status := status, ctx := c.ctx, cmd := some (c.ring, c.seq),
    unit := det.2 * 2 ^ 16, time := some det.1, interruptNs := if outcome = 0 then now - det.1 else 0 }

/-- A drain and its comparison (R141, R149, R150, R152, R153). -/
def Block.drain (b : Block) (c : Cmd) (p : AccCloseParams) (k : Nat) : Block :=
  let n := c.tile
  let g := b.group n k
  let acc := (b.tile n).acc
  let sp := g.firstSpecial acc
  let cmp := g.compare acc
  let e := drainRecord sp g.det.isSome cmp.1
  let b := (b.drainRows n p g).count .TILE_CHECK_SKIPPED_COUNT n cmp.1
  match cmp.2, g.det with
  | none, none => (b.releaseGroup n k).finish c.id (if sp.isSome && p.forbidSpecial then 0x0600 else 0) 0 e
  | none, some d =>
    let st := if sp.isSome && p.forbidSpecial then 0x0600 else 0
    let b := (b.releaseGroup n k).absorbed (checkEntry c 0 (if st = 0 then 0x0002 else st) d b.now)
    (b.updCmd c.id (fun c => { c with det := true })).finish c.id st 0 e
  | some r, none =>
    let b := (b.count .TILE_CHECK_FAIL_COUNT n 1).setGroup n k { g with closing := some c.id, det := some (b.now, r) }
    b.rset .TILE_STATUS_REPLAYING n 1
  | some _, some d =>
    let b := (b.count .TILE_CHECK_FAIL_COUNT n 1).releaseGroup n k
    let b := (b.errLog (checkEntry c 1 0x1005 d 0)).perf n 0x0C 0 c.ctx 1
    (b.updCmd c.id (fun c => { c with detTile := some n })).finish c.id 0x1005 0 e

/-- ACC_CLOSE (R139, R141 to R143, R150, R155): `upset` the errors of the drain. -/
def execAccClose (id : Nat) (p : AccCloseParams) (upset : List (Nat × Nat × BitVec 32)) (s : State) :
    Host.Outcome State Fault Refusal :=
  s.run (fun b => b.tileCmd id (.accClose p) (fun c b =>
    let k := p.key (b.accMode c.tile)
    let g := b.group c.tile k
    if !g.isOpen then b.accState id 1
    else match g.failed with
      | some a => (b.releaseGroup c.tile k).finish id 0x0300 0 a
      | none =>
        if p.discard then (b.releaseGroup c.tile k).finish id 0 0 0
        else if tsLast < tsAddr p.dest + (g.rows - 1) * p.destStride + 64 * g.entry - 1 then b.finish id 0x0100 20 0
        else (b.onTile c.tile (fun t => { t with acc := g.upset t.acc upset })).drain c p k))

/-- The ranges that a group's replay reads. -/
def Block.replaySpans (b : Block) (n : Nat) (g : Group) : List (Nat × Nat × Bool) :=
  (match g.initAddr with
    | some a => [(a, a + g.rows * 64 * g.entry - 1, false)]
    | none => []) ++ g.matmuls.flatMap (fun p => (planMatmul p (b.accMode n)).spans)

/-- A group computed again from the tile store (R153, steps 1 and 2). -/
def Block.recompute (b : Block) (n k : Nat) (g : Group) : Block :=
  let t := b.tile n
  let r0 := fun (p : MatmulParams) => if (b.accMode n).legacy then 0 else p.rowOff
  let s := g.start t.store t.acc
  let r := g.matmuls.foldl (fun (a : Group × Memory) p =>
    let x := a.1.add t.store a.2 p (r0 p)
    (x.1, x.2.1)) s
  (b.setTile n { t with acc := r.2, streamT := none }).setGroup n k r.1

/-- GROUP_REPLAY (R153, R155): once no MATMUL runs and no other drain works in the group's bank. -/
def Block.replay (b : Block) (c : Cmd) (p : AccCloseParams) (k : Nat) (par : Option Nat) (upset : List (Nat × Nat × BitVec 32)) :
    Block :=
  let n := c.tile
  let g := b.group n k
  let b := b.count .TILE_CHECK_REPLAYS_COUNT n 1
  match parityHit (b.replaySpans n g) par with
  | some a => (b.releaseGroup n k).parityLost c a
  | none =>
    let b := b.recompute n k g
    let cyc := g.matmuls.foldl (fun s p => s + p.cycles) 160
    let b := (b.count .TILE_ARRAY_BUSY_COUNT n cyc).perf n 0x04 0 c.ctx cyc
    (b.onTile n (fun t => { t with acc := g.upset t.acc upset })).drain c p k

/-- Whether a replay may take the array now: no MATMUL of the tile is in progress, nor a drain in the group's bank. -/
def Block.replayReady (b : Block) (c : Cmd) : Bool :=
  (b.cmds.filter (fun (x : Cmd) => decide (x.opcode / 256 = 1) && decide (x.tile = c.tile) &&
      decide (x.phase = .running ∨ x.phase = .done) && decide (x.id ≠ c.id))).all (fun x =>
    decide ((b.plan x).unit ≠ .array) &&
      (decide ((b.plan x).unit ≠ .drain) || b.replayWaits x ||
        !((b.accMode c.tile).legacy || decide ((b.plan x).key.map (· / 4) = (b.plan c).key.map (· / 4)))))

/-- GROUP_REPLAY of the ACC_CLOSE with number `id`. -/
def execGroupReplay (id : Nat) (par : Option Nat) (upset : List (Nat × Nat × BitVec 32)) (s : State) :
    Host.Outcome State Fault Refusal :=
  s.run (fun b =>
    match b.findCmd id with
    | some c =>
      match c.params with
      | .accClose p =>
        let k := p.key (b.accMode c.tile)
        if c.phase = .running ∧ (b.group c.tile k).closing = some id ∧ b.replayReady c then
          (b.replay c p k par upset).notePrim c.tile
        else b
      | _ => b
    | none => b)

/-! ### FENCE, SIGNAL and WAIT -/

/-- Whether every earlier command on the units of a FENCE's MASK has completed (R156). -/
def Block.fenceClear (b : Block) (c : Cmd) (mask : Nat) : Bool :=
  (b.earlier c).all (fun (x : Cmd) => decide (mask % 16 ≠ 0) && !bitAt (mask % 16) (b.plan x).unit.bit)

/-- FENCE (R156): it starts in order, and ends once the commands that it names have completed. -/
def execFence (id : Nat) (p : FenceParams) (s : State) : Host.Outcome State Fault Refusal :=
  s.run (fun b =>
    match b.findCmd id with
    | some c =>
      if c.phase = .running ∧ c.params = .fence p then (if b.fenceClear c p.mask then b.finish id 0 0 0 else b)
      else b.tileCmd id (.fence p) (fun c b => if b.fenceClear c p.mask then b.finish id 0 0 0 else b)
    | none => b)

/-- SIGNAL (R157): the flag or doorbell bit is set by its completion event. -/
def execSignal (id : Nat) (p : SignalParams) (s : State) : Host.Outcome State Fault Refusal :=
  s.run (fun b => b.tileCmd id (.signal p) (fun c b =>
    if p.kind = 0 then
      if b.tileWorks p.index && decide (b.rget .TILE_CFG_CTX p.index = c.ctx) then
        (b.addEffect id (.flag p.index p.flag)).finish id 0 0 0
      else b.finish id 0x0100 17 0
    else (b.addEffect id (.doorbell p.index p.flag)).finish id 0 0 0))

/-- The flag of a tile. -/
def Block.flagVal (b : Block) (n f : Nat) : Nat := b.rget .TILE_FLAG_VALUE (flagIdx n f)

/-- A WAIT that is satisfied ends with the flag's value (R158, R162). -/
def Block.waitEnd (b : Block) (c : Cmd) (p : WaitParams) : Block :=
  let v := b.flagVal c.tile p.flag
  if reached 32 p.value v then
    (b.updCmd c.id (fun c => { c with startT := b.clk.t })).finish c.id 0 0 v
  else b

/-- WAIT (R158): it starts in order, and ends once the flag has reached VALUE. -/
def execWait (id : Nat) (p : WaitParams) (s : State) : Host.Outcome State Fault Refusal :=
  s.run (fun b =>
    match b.findCmd id with
    | some c =>
      if c.phase = .running ∧ c.params = .wait p then b.waitEnd c p
      else b.tileCmd id (.wait p) (fun c b => b.waitEnd c p)
    | none => b)

/-- WAIT_TIMEOUT (R159): TIMEOUT_US after its start a WAIT that is not satisfied ends, and the tile is HELD. -/
def execWaitTimeout (id : Nat) (s : State) : Host.Outcome State Fault Refusal :=
  s.run (fun b =>
    match b.findCmd id with
    | some c =>
      match c.params with
      | .wait p =>
        if c.phase = .running ∧ p.timeoutUs ≠ 0 ∧ !reached 32 p.value (b.flagVal c.tile p.flag) then
          let b := b.advanceTo (c.startT + p.timeoutUs * usec)
          (b.finish id 0x1002 0 (b.flagVal c.tile p.flag)).rset .TILE_STATUS_STATE c.tile 2
        else b
      | _ => b
    | none => b)

/-! ### MBX_ACCESS (R160) -/

/-- One access of a tile to a mailbox: `ok` whether the row is the packet's operation; `go` gives the result. -/
def Block.mbxAccess (b : Block) (id : Nat) (p : MbxAccessParams) (ok : Bool) (go : Nat → Block → Nat × Block) : Block :=
  if ok then
    b.tileCmd id (.mbxAccess p) (fun c b =>
      let r := go (128 + c.tile) b
      let b := if p.resultAddr = 0xFFFFFFFF then r.2 else r.2.tsWrite c.tile p.resultAddr (bytesOf 8 r.1)
      b.finish id 0 0 r.1)
  else b

/-- LOCK; an operation code above 5 is out of range. -/
def execMbxAccessLock (id : Nat) (p : MbxAccessParams) (s : State) : Host.Outcome State Fault Refusal :=
  s.run (fun b => b.mbxAccess id p (decide (p.op = 0 ∨ 5 < p.op)) (fun a b => b.mbxLockTry p.mbx a))

/-- RELEASE. -/
def execMbxAccessRelease (id : Nat) (p : MbxAccessParams) (s : State) : Host.Outcome State Fault Refusal :=
  s.run (fun b => b.mbxAccess id p (decide (p.op = 1)) (fun a b => (b.rget .MBX_STATUS_OWNER p.mbx, b.mbxRelease p.mbx a)))

/-- WRITE. -/
def execMbxAccessWrite (id : Nat) (p : MbxAccessParams) (s : State) : Host.Outcome State Fault Refusal :=
  s.run (fun b => b.mbxAccess id p (decide (p.op = 2)) (fun _ b =>
    (b2n (!b.flag .MBX_STATUS_FULL p.mbx), b.mbxPut p.mbx p.value)))

/-- TAKE. -/
def execMbxAccessTake (id : Nat) (p : MbxAccessParams) (s : State) : Host.Outcome State Fault Refusal :=
  s.run (fun b => b.mbxAccess id p (decide (p.op = 3)) (fun _ b => b.mbxTakeOut p.mbx))

/-- ACK. -/
def execMbxAccessAck (id : Nat) (p : MbxAccessParams) (s : State) : Host.Outcome State Fault Refusal :=
  s.run (fun b => b.mbxAccess id p (decide (p.op = 4)) (fun _ b => (b.rget .MBX_DB_BITS p.mbx, b.mbxAck p.mbx p.value)))

/-- PEEK. -/
def execMbxAccessPeek (id : Nat) (p : MbxAccessParams) (s : State) : Host.Outcome State Fault Refusal :=
  s.run (fun b => b.mbxAccess id p (decide (p.op = 5)) (fun _ b =>
    (b.word .MBX_STATUS p.mbx % 2 ^ 32 + b.rget .MBX_DB_BITS p.mbx * 2 ^ 32, b)))

/-! ### Registers of a tile -/

/-- BAR0 offset of register `o` of TILE_n. -/
def tileOffset (n o : Nat) : Nat := 0x400000 + n * 0x10000 + o

/-- A write of TILE_CFG (R144, R148). -/
def Block.writeTileCfg (b : Block) (n v : Nat) : Block :=
  let rows := bits v 2 12
  if b.rget .TILE_STATUS_STATE n = 0 ∧ !(b.tile n).groups.any (fun g => g.2.isOpen) ∧ 8 ≤ rows ∧ rows ≤ 2048 ∧ rows % 8 = 0 then
    let b := (b.rset .TILE_CFG_ACC_MODE n (bits v 0 1)).rset .TILE_CFG_LEGACY_BF16 n (bits v 1 1)
    (b.rset .TILE_CFG_LEGACY_ROWS n rows).rset .TILE_STATUS_ACC_MODE n (bits v 0 1)
  else b.rset .TILE_STATUS_CFG_REJECT n 1

/-- TILE_CFG_WRITE. -/
def execTileCfgWrite (tile : Fin 64) (value : BitVec 32) (s : State) : Host.Outcome State Fault Refusal :=
  s.run (fun b => b.barWrite (tileOffset tile 8) (fun b => b.writeTileCfg tile value.toNat))

/-- A HELD tile runs again, or is IDLE when no command remains (R159). -/
def Block.leaveHeld (b : Block) (n : Nat) : Block :=
  (b.rset .TILE_STATUS_STATE n (if b.rget .TILE_STATUS_QUEUED n = 0 then 0 else 1)).notePrim n

/-- TILE_CTL.RELEASE (R159). -/
def Block.tileRelease (b : Block) (n : Nat) : Block := if b.rget .TILE_STATUS_STATE n = 2 then b.leaveHeld n else b

/-- TILE_CTL.FLUSH (R159): first, every dispatched command that has not started completes with FLUSHED. -/
def Block.tileFlush (b : Block) (n : Nat) : Block :=
  if b.rget .TILE_STATUS_STATE n = 2 then
    ((b.cmds.filter (fun (c : Cmd) => decide (c.opcode / 256 = 1) && decide (c.tile = n) && decide (c.phase = .waiting))).foldl
      (fun b c => b.finish c.id 0x1004 0 0) b).leaveHeld n
  else b

/-- TILE_CTL_RELEASE. -/
def execTileCtlRelease (tile : Fin 64) (s : State) : Host.Outcome State Fault Refusal :=
  s.run (fun b => b.barWrite (tileOffset tile 0x10) (fun b => b.tileRelease tile))

/-- TILE_CTL_FLUSH. -/
def execTileCtlFlush (tile : Fin 64) (s : State) : Host.Outcome State Fault Refusal :=
  s.run (fun b => b.barWrite (tileOffset tile 0x10) (fun b => b.tileFlush tile))

/-- TILE_FLAG_WRITE (R158). -/
def execTileFlagWrite (tile : Fin 64) (flag : Fin 16) (value : BitVec 32) (s : State) : Host.Outcome State Fault Refusal :=
  s.run (fun b => b.barWrite (tileOffset tile (0x100 + 8 * flag.val)) (fun b =>
    b.rset .TILE_FLAG_VALUE (flagIdx tile flag) value.toNat))

end Sys2Proof.Machine
end

