-- ==== Sys2Proof/Machine/VxWord.lean ====
section
/-! DEFINITION. The VX instruction word (chapter 06): its fields, what each instruction uses of them, which words are legal
(R167), and the issue costs and latencies. -/

namespace Sys2Proof.Machine

/-- The word of opcode `op` with fields `f`. -/
def vxEncode (op : BitVec 8) (f : VxFields) : BitVec 64 :=
  f.imm ++ (f.bs ++ (f.sat ++ (f.rnd ++ (f.fmt ++ (f.c ++ (f.b ++ (f.a ++ (f.d ++ op))))))))

/-- The opcode of a word. -/
def vxOpcode (w : BitVec 64) : BitVec 8 := w.extractLsb' 0 8

/-- The fields of a word. -/
def vxDecode (w : BitVec 64) : VxFields where
  d := w.extractLsb' 8 6
  a := w.extractLsb' 14 6
  b := w.extractLsb' 20 6
  c := w.extractLsb' 26 6
  fmt := w.extractLsb' 32 4
  rnd := w.extractLsb' 36 2
  sat := w.extractLsb' 38 1
  bs := w.extractLsb' 39 1
  imm := w.extractLsb' 40 24

/-- What a register field names: nothing, a scalar register, a vector register. -/
inductive VxReg where
  | none | s | v
  deriving DecidableEq, Repr

/-- How an instruction issues: without lanes, through the tile-store port, or on the lanes. -/
inductive VxIssue where
  | free | port | lane
  deriving DecidableEq, Repr

/-- What an instruction uses of its word: the registers, whether D is read and written, the formats that FMT may name (none:
FMT is unused), whether RND and SAT, BS and IMM are used, whether vector registers are INT64 pairs when FMT is INT64; then its
issue, lane cycles and latency. -/
structure VxForm where
  op : BitVec 8
  d : VxReg := .none
  a : VxReg := .none
  b : VxReg := .none
  c : VxReg := .none
  readD : Bool := false
  writeD : Bool := true
  fmts : List Nat := []
  cvt : Bool := false
  bs : Bool := false
  imm : Bool := false
  pairs : Bool := false
  issue : VxIssue := .free
  lanes : Nat := 0
  lat : Nat := 1
  deriving DecidableEq, Repr

/-- FP32, BF16 and FP16. -/
def vxF : List Nat := [0, 1, 2]
/-- INT32 and INT64. -/
def vxI : List Nat := [7, 8]
/-- Every format. -/
def vxAny : List Nat := [0, 1, 2, 3, 4, 5, 6, 7, 8]

/-- The opcodes that the instruction tables list; the others are reserved. -/
def vxOpcodes : List Nat :=
  List.range 9 ++ (List.range 11).map (· + 0x10) ++ (List.range 8).map (· + 0x30) ++ (List.range 23).map (· + 0x40) ++
    (List.range 5).map (· + 0x60) ++ (List.range 7).map (· + 0x68) ++ (List.range 6).map (· + 0x70) ++ (List.range 4).map (· + 0x80)

/-- Whether an opcode is reserved. -/
def vxReserved (op : BitVec 8) : Bool := !vxOpcodes.contains op.toNat

end Sys2Proof.Machine

namespace Sys2Proof

open Machine

/-- FMT. -/
def VxFields.fm (f : VxFields) : Nat := f.fmt.toNat
/-- Register field D. -/
def VxFields.rd (f : VxFields) : Nat := f.d.toNat
/-- Register field A. -/
def VxFields.ra (f : VxFields) : Nat := f.a.toNat
/-- Register field B. -/
def VxFields.rb (f : VxFields) : Nat := f.b.toNat
/-- Register field C. -/
def VxFields.rc (f : VxFields) : Nat := f.c.toNat
/-- IMM, zero-extended. -/
def VxFields.immU (f : VxFields) : Nat := f.imm.toNat
/-- IMM, sign-extended to 64 bits. -/
def VxFields.imm64 (f : VxFields) : BitVec 64 := f.imm.signExtend 64
/-- Whether operand B is broadcast (R168). -/
def VxFields.bcast (f : VxFields) : Bool := decide (f.bs = 1)
/-- The source format of a conversion: IMM[3:0]. -/
def VxFields.src (f : VxFields) : Nat := bits f.immU 0 4
/-- PART: IMM[6:4]. -/
def VxFields.part (f : VxFields) : Nat := bits f.immU 4 3
/-- G from IMM[9:8]; the code 0b11 is reserved. -/
def VxFields.group (f : VxFields) : Nat := if bits f.immU 8 2 = 0 then 128 else if bits f.immU 8 2 = 1 then 64 else 32
/-- Whether IMM[9:8] names a group length. -/
def VxFields.groupOk (f : VxFields) : Bool := decide (bits f.immU 8 2 ≠ 3)

end Sys2Proof

namespace Sys2Proof.Machine

/-- Whether a register field is legal for its use: unused fields are 0, a scalar register has bit 5 clear, an INT64 pair an even
number (R167). -/
def VxReg.ok (u : VxReg) (pair : Bool) (r : BitVec 6) : Bool :=
  match u with
  | .none => decide (r = 0)
  | .s => decide (r.toNat < 32)
  | .v => !pair || decide (r.toNat % 2 = 0)

/-- Operand B as BS makes it (R168). -/
def VxForm.useB (m : VxForm) (f : VxFields) : VxReg := if m.bs && f.bcast then .s else m.b

/-- Whether vector registers are pairs (R166). -/
def VxForm.pair (m : VxForm) (f : VxFields) : Bool := m.pairs && decide (f.fm = 8)

/-- Whether a word is legal (R167). -/
def VxForm.legal (m : VxForm) (f : VxFields) : Bool :=
  let p := m.pair f
  m.d.ok p f.d && m.a.ok p f.a && (m.useB f).ok p f.b && m.c.ok p f.c &&
    (if m.fmts = [] then decide (f.fm = 0) else m.fmts.contains f.fm) &&
    (if m.cvt then decide (f.rnd.toNat ≠ 3) else decide (f.rnd = 0) && decide (f.sat = 0)) &&
    (m.bs || decide (f.bs = 0)) && (m.imm || decide (f.imm = 0))

/-- The scoreboard's name of a register (R170). -/
def VxReg.keys (u : VxReg) (pair : Bool) (r : Nat) : List Nat :=
  match u with
  | .none => []
  | .s => if r = 0 then [] else [64 + r]
  | .v => if pair then [r, r + 1] else [r]

/-- The registers that an instruction reads. -/
def VxForm.sources (m : VxForm) (f : VxFields) : List Nat :=
  let p := m.pair f
  m.a.keys p f.ra ++ (m.useB f).keys p f.rb ++ m.c.keys p f.rc ++ (if m.readD then m.d.keys p f.rd else [])

/-- The registers that an instruction writes. -/
def VxForm.dests (m : VxForm) (f : VxFields) : List Nat := if m.writeD then m.d.keys (m.pair f) f.rd else []

/-! ### Forms of instruction groups -/

/-- A control or scalar instruction. -/
def formS (op : BitVec 8) (d a b : VxReg) (readD writeD imm : Bool) (lat : Nat) : VxForm :=
  { op := op, d := d, a := a, b := b, readD := readD, writeD := writeD, imm := imm, lat := lat }

/-- A vector memory instruction: `b` the stride or index register. -/
def formM (op : BitVec 8) (b : VxReg) (store : Bool) : VxForm :=
  { op := op, d := .v, a := .s, b := b, readD := store, writeD := !store, imm := true, issue := .port, lat := 8 }

/-- Lane cycles and latency of arithmetic by format. -/
def arithCost (fmt : Nat) : Nat × Nat := if fmt = 8 then (2, 3) else if fmt = 7 then (1, 2) else (1, 4)

/-- A lane instruction on D, A and B, with C when `c`. -/
def formL (op : BitVec 8) (fmts : List Nat) (c : Bool) (cost : Nat × Nat) : VxForm :=
  { op := op, d := .v, a := .v, b := .v, c := if c then .v else .none, fmts := fmts, bs := true, pairs := true, issue := .lane,
    lanes := cost.1, lat := cost.2 }

/-- A lane instruction on D and A. -/
def formU (op : BitVec 8) (fmts : List Nat) (imm : Bool) (cost : Nat × Nat) : VxForm :=
  { op := op, d := .v, a := .v, fmts := fmts, imm := imm, pairs := true, issue := .lane, lanes := cost.1, lat := cost.2 }

/-- A shuffle on D, A and B. -/
def formP (op : BitVec 8) (fmts : List Nat) (imm : Bool) (lat : Nat) : VxForm :=
  { op := op, d := .v, a := .v, b := .v, fmts := fmts, imm := imm, issue := .lane, lanes := 1, lat := lat }

/-- The form of an opcode, as the instruction tables and the table of issue costs give it. -/
def vxForm (op : BitVec 8) (f : VxFields) : VxForm :=
  match op.toNat with
  | 0x00 => formS op .none .none .none false false false 1
  | 0x01 => formS op .none .none .none false false true 1
  | 0x02 => formS op .none .s .none false false true 1
  | 0x03 => formS op .s .none .s true false true 1
  | 0x04 => formS op .s .none .s true false true 1
  | 0x05 => formS op .s .none .s true false true 1
  | 0x06 => formS op .s .none .s true false true 1
  | 0x07 => formS op .s .none .none true true true 1
  | 0x08 => formS op .s .s .none false true false 1
  | 0x12 => formS op .s .s .s false true false 3
  | 0x17 => formS op .s .s .none false true true 1
  | 0x18 => formS op .s .none .none false true true 1
  | 0x19 => formS op .s .none .none true true true 1
  | 0x1A => formS op .s .v .none false true true 3
  | 0x30 => formM op .none false
  | 0x31 => formM op .none true
  | 0x32 => formM op .s false
  | 0x33 => formM op .s true
  | 0x34 => formM op .v false
  | 0x35 => formM op .v true
  | 0x36 => formS op .s .s .none false true true 6
  | 0x37 => formS op .s .s .none true false true 6
  | 0x40 => formL op (vxF ++ vxI) false (arithCost f.fm)
  | 0x41 => formL op (vxF ++ vxI) false (arithCost f.fm)
  | 0x42 => formL op (vxF ++ [7]) false (arithCost f.fm)
  | 0x43 => formL op (vxF ++ [7]) true (arithCost f.fm)
  | 0x44 => formL op (vxF ++ [7]) true (arithCost f.fm)
  | 0x45 => formL op (vxF ++ vxI) false (arithCost f.fm)
  | 0x46 => formL op (vxF ++ vxI) false (arithCost f.fm)
  | 0x47 => formU op (vxF ++ vxI) false (arithCost f.fm)
  | 0x48 => formU op (vxF ++ vxI) false (arithCost f.fm)
  | 0x49 => formL op vxAny false (1, 2)
  | 0x4A => formL op vxAny false (1, 2)
  | 0x4B => formL op vxAny false (1, 2)
  | 0x4C => formL op vxI false (arithCost f.fm)
  | 0x4D => formL op vxI false (arithCost f.fm)
  | 0x4E => formL op vxI false (arithCost f.fm)
  | 0x4F => formL op (vxF ++ vxI) false (arithCost f.fm)
  | 0x50 => formL op (vxF ++ vxI) false (arithCost f.fm)
  | 0x51 => formL op (vxF ++ vxI) false (arithCost f.fm)
  | 0x52 => formL op vxF false (1, 4)
  | 0x53 => formL op vxAny true (1, 2)
  | 0x54 => formL op vxAny false (1, 2)
  | 0x55 => { formU op [7] false (1, 2) with a := .s }
  | 0x56 => formU op vxF false (1, 4)
  | 0x60 => formU op (vxF ++ [7]) false (1, 12)
  | 0x61 => formU op (vxF ++ [7]) false (1, 12)
  | 0x62 => formU op vxF false (1, 12)
  | 0x63 => formU op [0, 7] true (1, 10)
  | 0x64 => formU op vxF true (1, 10)
  | 0x68 => formP op [] false 6
  | 0x69 => formP op [] true 3
  | 0x6A => formP op vxAny false 3
  | 0x6B => formP op vxAny false 3
  | 0x6C => formP op vxAny false 3
  | 0x6D => formP op vxAny false 3
  | 0x6E => { formP op [] true 3 with b := .none }
  | 0x70 => formU op vxF false (2, 12)
  | 0x71 => formU op vxF false (2, 12)
  | 0x72 => formU op vxF false (2, 12)
  | 0x73 => formU op vxF false (2, 12)
  | 0x74 => formU op vxF false (2, 12)
  | 0x75 => formU op vxF false (2, 12)
  | 0x80 => { formU op vxAny true (1, if f.src = 8 then 5 else 4) with cvt := true, pairs := false }
  | 0x81 => { formU op [3, 4, 5, 6] true (2, 16) with pairs := false }
  | 0x82 => { formU op vxAny true (2, 12) with b := .v, cvt := true, pairs := false }
  | 0x83 => { formU op [0] true (1, 5) with b := .v, pairs := false }
  | _ => formS op .s .s .s false true false 1

end Sys2Proof.Machine
end

