-- ==== Sys2Proof/Machine/VxBase.lean ====
section
/-! DEFINITION. The vector engine (chapter 06): registers and elements (R165, R166, R168, R169), the issue of one instruction
(R170, R187, R188), the end of a kernel (R184, R194, R195). -/

namespace Sys2Proof.Machine

/-! ### Registers -/

/-- Scalar register `r`; S0 reads as 0. -/
def Vx.sreg (x : Vx) (r : Nat) : BitVec 64 := if r = 0 then 0 else Sparse.get (always 0) x.s r

/-- Scalar register `r` written; a write to S0 is ignored (R165). -/
def Vx.setS (x : Vx) (r : Nat) (v : BitVec 64) : Vx := if r = 0 then x else { x with s := Sparse.set (always 0) x.s r v }

/-- Word `w` of vector register `r`. -/
def Vx.word (x : Vx) (r w : Nat) : Nat := (Sparse.get (always 0) x.v (512 * r + w)).toNat

/-- Word `w` of vector register `r` written. -/
def Vx.setWord (x : Vx) (r w v : Nat) : Vx := { x with v := Sparse.set (always 0) x.v (512 * r + w) (BitVec.ofNat 32 v) }

/-- Element `i` of a vector in format `fmt` (R104, R166): an INT64 vector is the pair of `r` and `r + 1`. -/
def Vx.elem (x : Vx) (r fmt i : Nat) : Nat :=
  let w := fmtBits fmt
  if w = 64 then x.word r i + x.word (r + 1) i * 2 ^ 32 else bits (x.word r (i * w / 32)) (i * w % 32) w

/-- Element `i` of a vector in format `fmt` written. -/
def Vx.setElem (x : Vx) (r fmt i v : Nat) : Vx :=
  let w := fmtBits fmt
  if w = 64 then (x.setWord r i v).setWord (r + 1) i (v / 2 ^ 32)
  else x.setWord r (i * w / 32) (setBits (x.word r (i * w / 32)) (i * w % 32) w v)

/-- Elements `start`, `start + 1`, … of a vector written in turn. -/
def Vx.setElems (x : Vx) (r fmt : Nat) : Nat → List Nat → Vx
  | _, [] => x
  | start, v :: vs => Vx.setElems (x.setElem r fmt start v) r fmt (start + 1) vs

/-- How many elements of format `fmt` lie in the words below VL (R169). -/
def Vx.count (x : Vx) (fmt : Nat) : Nat := if fmtBits fmt = 64 then x.vl else x.vl * 32 / fmtBits fmt

/-- Element `i` of operand B: of V[B], or the broadcast of S[B] (R168). -/
def Vx.opB (x : Vx) (f : VxFields) (i : Nat) : Nat :=
  if f.bcast then (x.sreg f.rb).toNat % 2 ^ fmtBits f.fm else x.elem f.rb f.fm i

/-! ### Issue -/

/-- Where `n` lane cycles from `cyc` on fall, with `w` cycles of service work waiting and the last `share` of each window of 8
reserved for it (R187): the first of them, the cycle after the last, and the service work that still waits. -/
def laneGo (base share : Nat) : Nat → Nat → Nat → Nat → Option Nat → Nat × Nat × Nat
  | 0, cyc, _, w, first => (first.getD cyc, cyc, w)
  | fuel + 1, cyc, n, w, first =>
    if n = 0 then (first.getD cyc, cyc, w)
    else if w ≠ 0 ∧ 8 - share ≤ (base + cyc) % 8 then laneGo base share fuel (cyc + 1) n (w - 1) first
    else laneGo base share fuel (cyc + 1) (n - 1) w (some (first.getD cyc))

/-- When an instruction issues, and what its issue leaves: the engine with its lanes and port taken. `stall` lane cycles are
removed by Curb (R188), none during a replay (R535). -/
def Vx.issueAt (x : Vx) (m : VxForm) (f : VxFields) (share stall : Nat) : Nat × Vx :=
  let t := (m.sources f).foldl (fun t k => max t (Sparse.get (always 0) x.ready k)) x.cyc
  match m.issue with
  | .free => (t, x)
  | .port => (max t x.portFree, x)
  | .lane =>
    let t := t + stall
    let w := x.svcWait - (t - x.laneFree)
    let r := laneGo x.base share (m.lanes + w) (max t x.laneFree) m.lanes w none
    (r.1, { x with laneFree := r.2.1, svcWait := r.2.2, busy := x.busy + m.lanes })

/-- The kernel that runs on tile `n`: its VKERN. -/
def Block.kernel (b : Block) (n : Nat) : Option (Cmd × VkernParams) :=
  match (b.tile n).vx.cmd with
  | some id =>
    match b.findCmd id with
    | some c =>
      match c.params with
      | .vkern p => if c.phase = .running ∧ c.tile = n ∧ !b.faulted then some (c, p) else none
      | _ => none
    | none => none
  | none => none

/-- TILE_VX_STATUS follows the engine; service cycles taken since are counted. -/
def Block.setVx (b : Block) (n : Nat) (x : Vx) : Block :=
  let used := (b.tile n).vx.svcWait - x.svcWait
  let b := b.onTile n (fun t => { t with vx := x })
  let b := (b.rset .TILE_VX_STATUS_PC n x.pc).rset .TILE_VX_STATUS_VL n x.vl
  let b := (b.rset .TILE_VX_STATUS_RUNNING n (b2n x.cmd.isSome)).rset .TILE_VX_STATUS_SVC_ACTIVE n (b2n (decide (x.svcWait ≠ 0)))
  (b.count .TILE_VX_SVC_CYCLES_COUNT n used).perf n 0x06 0 (b.rget .TILE_CFG_CTX n) used

/-- The entry of a detection in the vector path (R495, class 0x02). -/
def vxEntry (c : Cmd) (outcome status now : Nat) (det : Option Nat) : ErrIn :=
  { source := c.tile, cls := 0x02, outcome := outcome, status := status, ctx := c.ctx, cmd := some (c.ring, c.seq),
    time := det, interruptNs := if outcome = 0 then now - det.getD now else 0 }

/-- The kernel of command `c` ends: its counts go to the completion event (R120), the service work that waits has every cycle. -/
def Block.vxOver (b : Block) (c : Cmd) : Block :=
  let n := c.tile
  let x := (b.tile n).vx
  let b := b.setVx n { x with cmd := none, svcWait := 0 }
  let b := (b.addEffect c.id (.count .TILE_VEC_BUSY_COUNT n x.busy)).addEffect c.id (.count .TILE_CVT_SAT_COUNT n x.sat)
  (b.addEffect c.id (.count .TILE_CVT_UFL_COUNT n x.ufl)).perf n 0x05 0 c.ctx x.busy

/-- A kernel that had a detection and was replayed ends without a further one (R191): its entry, and OK_RECOMPUTED for OK. -/
def Block.vxAbsorbed (b : Block) (c : Cmd) (status : Nat) : Block :=
  match (b.tile c.tile).vx.det with
  | some t =>
    let b := b.absorbed (vxEntry c 0 (if status = 0 then 0x0002 else status) b.now (some t))
    b.updCmd c.id (fun c => { c with det := true })
  | none => b

/-- A kernel ends with a status, detail and engine bytes. -/
def Block.vxEnd (b : Block) (c : Cmd) (status detail engine : Nat) : Block :=
  ((b.vxAbsorbed c status).vxOver c).finish c.id status detail engine

/-- How an instruction ends its kernel. -/
inductive VxStop where
  | status (s d e : Nat)
  | parity (a : Nat)
  deriving DecidableEq, Repr

/-- The kernel ends at an instruction (R184). -/
def Block.vxStop (b : Block) (c : Cmd) : VxStop → Block
  | .status s d e => b.vxEnd c s d e
  | .parity a => ((b.vxAbsorbed c 0x0300).vxOver c).parityLost c a

/-- Whether a kernel that would issue at `t` has reached MAX_CYCLES. -/
def pastMax (p : VkernParams) (t : Nat) : Bool := decide (p.maxCycles ≠ 0 ∧ p.maxCycles ≤ t)

/-- The word that the kernel reaches next ends it when its PC has passed 8,191 (R170) or its opcode is reserved (R167). -/
def Block.vxSettle (b : Block) (n : Nat) : Block :=
  match b.kernel n with
  | some (c, p) =>
    let x := (b.tile n).vx
    let w := Sparse.get (always 0) x.imem x.pc
    if 8191 < x.pc then b.vxEnd c 0x1007 0x2000 0
    else if vxReserved (vxOpcode w) && !pastMax p x.cyc then b.vxEnd c 0x1007 x.pc w.toNat
    else b
  | none => b

/-- What an instruction does to the engine and the block. -/
abbrev VxBody := Cmd → VkernParams → Vx → Block → Except VxStop (Vx × Block)

/-- An instruction that only changes the engine. -/
def vxPure (g : Vx → Vx) : VxBody := fun _ _ x b => .ok (g x, b)

/-- One instruction of the kernel that runs on tile `n`, if its word is next and the kernel has cycles left (R170, R184). -/
def Block.vxRow (b : Block) (n : Nat) (op : BitVec 8) (f : VxFields) (stall : Nat) (body : VxBody) : Block :=
  match b.kernel n with
  | some (c, p) =>
    let m := vxForm op f
    let x := (b.tile n).vx
    let w := vxEncode op f
    if Sparse.get (always 0) x.imem x.pc ≠ w then b
    else if !m.legal f then (if pastMax p x.cyc then b else b.vxEnd c 0x1007 x.pc w.toNat)
    else
      let stall := if b.flag .CURB_STATUS_VGAP && !x.replayed then stall else 0
      let r := x.issueAt m f (b.rget .TILE_VX_CFG_SHARE n) stall
      if pastMax p r.1 then b
      else
        let lat := r.1 + m.lat
        let y := { r.2 with cyc := r.1 + 1, pc := x.pc + 1, done := max r.2.done lat }
        match body c p y b with
        | .error e => (b.setVx n { r.2 with cyc := r.1 }).vxStop c e
        | .ok (z, b) =>
          let z := { z with ready := (m.dests f).foldl (fun a k =>
            Sparse.set (always 0) a k (max (Sparse.get (always 0) a k) lat)) z.ready }
          (b.setVx n z).vxSettle n
  | none => b

/-- A row of the vector engine. -/
def State.vx (s : State) (n : Nat) (op : BitVec 8) (f : VxFields) (stall : Nat) (body : VxBody) :
    Host.Outcome State Fault Refusal :=
  s.run (fun b => b.vxRow n op f stall body)

end Sys2Proof.Machine
end

