-- ==== Sys2Proof/Machine/VxMath.lean ====
section
/-! DEFINITION. The transcendental functions of R177 and R410: the exact value to more than 100 bits, the bound, and the
result, of which the spec fixes only that it lies within the bound and depends on the input bits alone. -/

namespace Sys2Proof.Machine

/-- floor(log2(e)·2^200). -/
def log2eFix : Nat := 2318321547468254865173387471183990171487108758923299108729110
/-- floor(2^400 ÷ 2π). -/
def inv2piFix : Nat := 410977832395975605218853833625233461132178843898737362007205898620758186588316929411123559258072822909570399674468614023
/-- floor(2^400·π ÷ 2). -/
def piHalfFix : Nat := 4056188623365485619431135675650447259580575800089632601795595518807615452686995249372761680463408407713783389863663788118

/-- ±m·2^(e+k) rounded down to an integer. -/
def scaled (s : Bool) (m : Nat) (e : Int) (k : Nat) : Int :=
  let f := e + k
  let v : Int := if 0 ≤ f then (m * 2 ^ f.toNat : Nat) else (m : Int) / 2 ^ (-f).toNat
  if s then -v else v

/-- 2^(f ÷ 2^200)·2^200 over the top `k` bits of `f`, with `c` the root 2^(2^(k−200−1))·2^200 to start from. -/
def exp2Go : Nat → Nat → Nat → Nat → Nat
  | 0, _, _, acc => acc
  | k + 1, f, c, acc => exp2Go k f (isqrt (c * 2 ^ 200)) (if f.testBit k then acc * c / 2 ^ 200 else acc)

/-- 2^(v ÷ 2^200), for v held to ±400·2^200. -/
def exp2Fix (v : Int) : FVal :=
  let w := clampInt (-400 * 2 ^ 200) (400 * 2 ^ 200) v
  .fin false (exp2Go 200 (w % 2 ^ 200).toNat (isqrt (2 ^ 401)) (2 ^ 200)) (w / 2 ^ 200 - 200)

/-- The first `k` binary digits of log2(t ÷ 2^300) for t in [2^300, 2^301), after `acc`. -/
def log2Go : Nat → Nat → Nat → Nat
  | 0, _, acc => acc
  | k + 1, t, acc =>
    let u := t * t / 2 ^ 300
    if 2 ^ 301 ≤ u then log2Go k (u / 2) (2 * acc + 1) else log2Go k u (2 * acc)

/-- log2 of m·2^e, m not 0. -/
def log2Fix (m : Nat) (e : Int) : FVal :=
  let l := m.log2
  let t := if l ≤ 300 then m * 2 ^ (300 - l) else m / 2 ^ (l - 300)
  let v : Int := (e + l) * 2 ^ 150 + (log2Go 150 t 0 : Nat)
  .fin (decide (v < 0)) v.natAbs (-150)

/-- e^v·2^600 for a value ±m·2^e. -/
def expFix600 (s : Bool) (m : Nat) (e : Int) : Nat :=
  match exp2Fix (scaled s (m * log2eFix) (e - 200) 200) with
  | .fin _ n g => (scaled false n g 600).toNat
  | _ => 0

/-- The sines and cosines of r·π/2, r in [0, 1) in units of 2^-400: `k` terms of the series from `term` of number `n`. -/
def series : Nat → Nat → Nat → Nat → Int → Int
  | 0, _, _, _, acc => acc
  | k + 1, n, sq, term, acc =>
    let next := term * sq / 2 ^ 400 / ((n + 1) * (n + 2))
    series k (n + 2) sq next (acc + (if n / 2 % 2 = 0 then (term : Int) else -(term : Int)))

/-- sin or cos of ±m·2^e, in units of 2^-400, with full argument reduction. -/
def sinCosFix (isCos s : Bool) (m : Nat) (e : Int) : Int :=
  let t := (scaled false (m * inv2piFix) e 0).toNat % 2 ^ 400
  let q := 4 * t / 2 ^ 400
  let phi := 4 * t % 2 ^ 400 * piHalfFix / 2 ^ 400
  let sq := phi * phi / 2 ^ 400
  let si := series 60 1 sq phi 0
  let co := series 60 0 sq (2 ^ 400) 0
  match isCos, q with
  | true, 0 => co
  | true, 1 => -si
  | true, 2 => -co
  | true, _ => si
  | false, 0 => if s then -si else si
  | false, 1 => if s then -co else co
  | false, 2 => if s then si else -si
  | false, _ => if s then co else -co

/-- An integer in units of 2^-k as an exact value. -/
def FVal.ofFix (v : Int) (k : Nat) : FVal := .fin (decide (v < 0)) v.natAbs (-(k : Int))

/-- The exponent of the spacing of the grid of `f` at an exact value. -/
def FFmt.ulpExp (f : FFmt) : FVal → Int
  | .fin _ m e =>
    let l : Int := if m = 0 then f.emin else m.log2 + e
    (if l < f.emin then f.emin else l) - f.frac
  | _ => f.emin - f.frac

/-- Whether a code's value lies within `tol` of `y`. -/
def FFmt.near (f : FFmt) (tol y : FVal) (c : Nat) : Bool :=
  let x := f.decode c
  !x.isSpecial && !FVal.lt tol (FVal.sub x y).abs

/-- The result for input code `x` of the function with number `k`, whose exact value is `y`: what the hardware offers if
that lies within `tol`, else the nearest code; a result beyond range is an infinity. -/
def transResult (k x : Nat) (f : FFmt) (tol y : FVal) : Nat :=
  let r := f.rne y
  let c := (Config.transCode k x).toNat % 2 ^ (1 + f.ebits + f.frac)
  if (f.decode r).isSpecial then r else if f.near tol y c then c else r

/-- The number of function `op` in format `fmt`. -/
def transKey (op fmt : Nat) : Nat := op * 16 + fmt

/-- The bound of R177: `k` ulp of FP32, or the absolute bound 2^a where `abs`; 1 ulp of BF16 and FP16. -/
def transTol (fmt k : Nat) (abs : Bool) (a : Int) (f : FFmt) (y : FVal) : FVal :=
  if fmt = 0 then (if abs then .fin false 1 a else .fin false k (f.ulpExp y)) else .fin false 1 (f.ulpExp y)

/-- The floating-point format with code `fmt`; FP32 for any other. -/
def fltFmt (fmt : Nat) : FFmt := if fmt = 1 then bf16 else if fmt = 2 then fp16 else fp32

/-- VEXP2 of code `x`. -/
def transExp2 (fmt x : Nat) : Nat :=
  let f := fltFmt fmt
  match f.decode x with
  | .nan => f.nanCode
  | .inf s => f.rne (if s then .fin false 0 0 else .inf false)
  | .fin s m e =>
    let y := exp2Fix (scaled s m e 200)
    transResult (transKey 0x70 fmt) x f (transTol fmt 2 false 0 f y) y

/-- VLOG2 of code `x`. -/
def transLog2 (fmt x : Nat) : Nat :=
  let f := fltFmt fmt
  match f.decode x with
  | .nan => f.nanCode
  | .inf s => if s then f.nanCode else f.rne (.inf false)
  | .fin s m e =>
    if m = 0 then f.rne (.inf true)
    else if s then f.nanCode
    else
      let y := log2Fix m e
      let mid := !FVal.lt (.fin s m e) (.fin false 3 (-2)) && !FVal.lt (.fin false 3 (-1)) (.fin s m e)
      transResult (transKey 0x71 fmt) x f (transTol fmt 2 mid (-22) f y) y

/-- VRCP of code `x`. -/
def transRcp (fmt x : Nat) : Nat :=
  let f := fltFmt fmt
  match f.decode x with
  | .nan => f.nanCode
  | .inf s => f.signed s 0
  | .fin s m e =>
    if m = 0 then f.rne (.inf s)
    else
      let y : FVal := .fin s (2 ^ 300 / m) (-300 - e)
      transResult (transKey 0x72 fmt) x f (transTol fmt 1 false 0 f y) y

/-- VRSQRT of code `x`. -/
def transRsqrt (fmt x : Nat) : Nat :=
  let f := fltFmt fmt
  match f.decode x with
  | .nan => f.nanCode
  | .inf s => if s then f.nanCode else 0
  | .fin s m e =>
    if m = 0 then f.rne (.inf s)
    else if s then f.nanCode
    else
      let x0 := if e % 2 = 0 then (m, e) else (m * 2, e - 1)
      let y : FVal := .fin false (isqrt (2 ^ 400 / x0.1)) (-200 - x0.2 / 2)
      transResult (transKey 0x73 fmt) x f (transTol fmt 2 false 0 f y) y

/-- VTANH of code `x`. -/
def transTanh (fmt x : Nat) : Nat :=
  let f := fltFmt fmt
  match f.decode x with
  | .nan => f.nanCode
  | .inf s => f.rne (.fin s 1 0)
  | .fin s m e =>
    if m = 0 then f.signed s 0
    else
      let q := expFix600 true m (e + 1)
      let y : FVal := .fin s ((2 ^ 600 - q) * 2 ^ 300 / (2 ^ 600 + q)) (-300)
      transResult (transKey 0x74 fmt) x f (transTol fmt 4 (FVal.lt (.fin false m e) (.fin false 1 (-4))) (-24) f y) y

/-- VSIGM of code `x`. -/
def transSigm (fmt x : Nat) : Nat :=
  let f := fltFmt fmt
  match f.decode x with
  | .nan => f.nanCode
  | .inf s => if s then 0 else f.rne (.fin false 1 0)
  | .fin s m e =>
    let q := expFix600 true m e
    let y : FVal := .fin false ((if s then q else 2 ^ 600) * 2 ^ 600 / (2 ^ 600 + q)) (-600)
    transResult (transKey 0x75 fmt) x f (transTol fmt 4 false 0 f y) y

/-- cos (or sin) of an FP32 code (R410); of ±0 it is 1.0 (or the argument), and of a NaN or an infinity the canonical NaN. -/
def transCos (isCos : Bool) (x : Nat) : Nat :=
  match fp32.decode x with
  | .fin s m e =>
    if m = 0 then (if isCos then natF32 1 else x)
    else
      let y := FVal.ofFix (sinCosFix isCos s m e) 400
      transResult (transKey 0x100 (b2n isCos)) x fp32 (.fin false 1 (fp32.ulpExp y)) y
  | _ => fp32.nanCode

end Sys2Proof.Machine
end

