-- ==== Sys2Proof/Machine/VxLane.lean ====
section
/-! DEFINITION. The lane arithmetic, compares and selects of VX (chapter 06, R168, R169, R173 to R175). -/

namespace Sys2Proof.Machine

/-- An exact value of a floating-point FMT. -/
def fltVal (fmt c : Nat) : FVal := (fltFmt fmt).decode c

/-- A lane instruction: element `i` of D, for every element below VL, from the engine before it. -/
def vxLanes (f : VxFields) (g : Vx → Nat → Nat) (x : Vx) : Vx :=
  x.setElems f.rd f.fm 0 ((List.range (x.count f.fm)).map (g x))

/-- An arithmetic result of a floating-point FMT, rounded once (R173), or of an integer one, wrapping (R174). -/
def vxArith (f : VxFields) (gf : FVal → FVal → FVal) (gi : Int → Int → Int) (a b : Nat) : Nat :=
  if fmtIsFloat f.fm then (fltFmt f.fm).rne (gf (fltVal f.fm a) (fltVal f.fm b))
  else ofSigned (fmtBits f.fm) (gi (toSigned (fmtBits f.fm) a) (toSigned (fmtBits f.fm) b))

/-- A lane instruction of two operands. -/
def vxBin (f : VxFields) (g : Nat → Nat → Nat) : Vx → Vx := vxLanes f (fun x i => g (x.elem f.ra f.fm i) (x.opB f i))

/-- A lane instruction of one operand. -/
def vxUn (f : VxFields) (g : Nat → Nat) : Vx → Vx := vxLanes f (fun x i => g (x.elem f.ra f.fm i))

/-- A × B + C with `neg` the sign of C: one rounding. -/
def vxFused (f : VxFields) (neg : Bool) : Vx → Vx := vxLanes f (fun x i =>
  let a := x.elem f.ra f.fm i
  let b := x.opB f i
  let c := x.elem f.rc f.fm i
  if fmtIsFloat f.fm then
    let z := fltVal f.fm c
    (fltFmt f.fm).rne (FVal.add (FVal.mul (fltVal f.fm a) (fltVal f.fm b)) (if neg then z.neg else z))
  else
    let z := toSigned 32 c
    ofSigned 32 (toSigned 32 a * toSigned 32 b + (if neg then -z else z)))

/-- The lesser of two exact values; −0 is less than +0, and a NaN wins (R175). -/
def FVal.least (x y : FVal) : FVal :=
  if x.isNan || y.isNan then .nan
  else if FVal.lt x y then x
  else if FVal.lt y x then y
  else match x with
    | .fin true _ _ => x
    | _ => y

/-- The greater of two exact values (R175). -/
def FVal.greatest (x y : FVal) : FVal :=
  if x.isNan || y.isNan then .nan
  else if FVal.lt x y then y
  else if FVal.lt y x then x
  else match x with
    | .fin true _ _ => y
    | _ => x

/-- All ones where a comparison holds, else 0. -/
def vxMask (f : VxFields) (b : Bool) : Nat := if b then 2 ^ fmtBits f.fm - 1 else 0

/-- A compare: `gf` on exact values, `gi` on signed integers. -/
def vxCompare (f : VxFields) (gf : FVal → FVal → Bool) (gi : Int → Int → Bool) : Vx → Vx := vxBin f (fun a b =>
  vxMask f (if fmtIsFloat f.fm then gf (fltVal f.fm a) (fltVal f.fm b)
    else gi (toSigned (fmtBits f.fm) a) (toSigned (fmtBits f.fm) b)))

/-- The class bits of a floating-point code (VCLASS). -/
def vxClassBits (fmt c : Nat) : Nat :=
  let f := fltFmt fmt
  let sign := b2n (bitAt c (f.frac + f.ebits)) * 32
  sign + (match f.decode c with
    | .nan => 16
    | .inf _ => 8
    | .fin _ m _ => if m = 0 then 1 else if m < 2 ^ f.frac then 2 else 4)

/-- VADD. -/
def execVadd (tile : Fin 64) (f : VxFields) (stall : Nat) (s : State) : Host.Outcome State Fault Refusal :=
  s.vx tile 0x40 f stall (vxPure (vxBin f (vxArith f FVal.add (fun a b => a + b))))

/-- VSUB. -/
def execVsub (tile : Fin 64) (f : VxFields) (stall : Nat) (s : State) : Host.Outcome State Fault Refusal :=
  s.vx tile 0x41 f stall (vxPure (vxBin f (vxArith f FVal.sub (fun a b => a - b))))

/-- VMUL: INT32 keeps the low 32 bits. -/
def execVmul (tile : Fin 64) (f : VxFields) (stall : Nat) (s : State) : Host.Outcome State Fault Refusal :=
  s.vx tile 0x42 f stall (vxPure (vxBin f (vxArith f FVal.mul (fun a b => a * b))))

/-- VFMA. -/
def execVfma (tile : Fin 64) (f : VxFields) (stall : Nat) (s : State) : Host.Outcome State Fault Refusal :=
  s.vx tile 0x43 f stall (vxPure (vxFused f false))

/-- VFMS. -/
def execVfms (tile : Fin 64) (f : VxFields) (stall : Nat) (s : State) : Host.Outcome State Fault Refusal :=
  s.vx tile 0x44 f stall (vxPure (vxFused f true))

/-- VMIN. -/
def execVmin (tile : Fin 64) (f : VxFields) (stall : Nat) (s : State) : Host.Outcome State Fault Refusal :=
  s.vx tile 0x45 f stall (vxPure (vxBin f (vxArith f FVal.least (fun a b => min a b))))

/-- VMAX. -/
def execVmax (tile : Fin 64) (f : VxFields) (stall : Nat) (s : State) : Host.Outcome State Fault Refusal :=
  s.vx tile 0x46 f stall (vxPure (vxBin f (vxArith f FVal.greatest (fun a b => max a b))))

/-- VABS: the least integer returns itself. -/
def execVabs (tile : Fin 64) (f : VxFields) (stall : Nat) (s : State) : Host.Outcome State Fault Refusal :=
  s.vx tile 0x47 f stall (vxPure (vxUn f (fun a => vxArith f (fun x _ => x.abs) (fun x _ => x.natAbs) a 0)))

/-- VNEG. -/
def execVneg (tile : Fin 64) (f : VxFields) (stall : Nat) (s : State) : Host.Outcome State Fault Refusal :=
  s.vx tile 0x48 f stall (vxPure (vxUn f (fun a => vxArith f (fun x _ => x.neg) (fun x _ => -x) a 0)))

/-- VAND. -/
def execVand (tile : Fin 64) (f : VxFields) (stall : Nat) (s : State) : Host.Outcome State Fault Refusal :=
  s.vx tile 0x49 f stall (vxPure (vxBin f (fun a b => a &&& b)))

/-- VOR. -/
def execVor (tile : Fin 64) (f : VxFields) (stall : Nat) (s : State) : Host.Outcome State Fault Refusal :=
  s.vx tile 0x4A f stall (vxPure (vxBin f (fun a b => a ||| b)))

/-- VXOR. -/
def execVxor (tile : Fin 64) (f : VxFields) (stall : Nat) (s : State) : Host.Outcome State Fault Refusal :=
  s.vx tile 0x4B f stall (vxPure (vxBin f (fun a b => a ^^^ b)))

/-- VSHL: by B modulo the element width. -/
def execVshl (tile : Fin 64) (f : VxFields) (stall : Nat) (s : State) : Host.Outcome State Fault Refusal :=
  s.vx tile 0x4C f stall (vxPure (vxBin f (fun a b => a * 2 ^ (b % fmtBits f.fm) % 2 ^ fmtBits f.fm)))

/-- VSHR. -/
def execVshr (tile : Fin 64) (f : VxFields) (stall : Nat) (s : State) : Host.Outcome State Fault Refusal :=
  s.vx tile 0x4D f stall (vxPure (vxBin f (fun a b => a / 2 ^ (b % fmtBits f.fm))))

/-- VSRA. -/
def execVsra (tile : Fin 64) (f : VxFields) (stall : Nat) (s : State) : Host.Outcome State Fault Refusal :=
  s.vx tile 0x4E f stall (vxPure (vxBin f (fun a b => ofSigned (fmtBits f.fm) (toSigned (fmtBits f.fm) a / 2 ^ (b % fmtBits f.fm)))))

/-- VCMPEQ. -/
def execVcmpeq (tile : Fin 64) (f : VxFields) (stall : Nat) (s : State) : Host.Outcome State Fault Refusal :=
  s.vx tile 0x4F f stall (vxPure (vxCompare f FVal.eq (fun a b => decide (a = b))))

/-- VCMPLT. -/
def execVcmplt (tile : Fin 64) (f : VxFields) (stall : Nat) (s : State) : Host.Outcome State Fault Refusal :=
  s.vx tile 0x50 f stall (vxPure (vxCompare f FVal.lt (fun a b => decide (a < b))))

/-- VCMPLE. -/
def execVcmple (tile : Fin 64) (f : VxFields) (stall : Nat) (s : State) : Host.Outcome State Fault Refusal :=
  s.vx tile 0x51 f stall (vxPure (vxCompare f (fun a b => FVal.lt a b || FVal.eq a b) (fun a b => decide (a ≤ b))))

/-- VCMPUN. -/
def execVcmpun (tile : Fin 64) (f : VxFields) (stall : Nat) (s : State) : Host.Outcome State Fault Refusal :=
  s.vx tile 0x52 f stall (vxPure (vxCompare f (fun a b => a.isNan || b.isNan) (fun _ _ => false)))

/-- VSEL. -/
def execVsel (tile : Fin 64) (f : VxFields) (stall : Nat) (s : State) : Host.Outcome State Fault Refusal :=
  s.vx tile 0x53 f stall (vxPure (vxLanes f (fun x i =>
    if bitAt (x.elem f.rc f.fm i) (fmtBits f.fm - 1) then x.elem f.ra f.fm i else x.opB f i)))

/-- VMOV: A, or the broadcast of B when BS is 1. -/
def execVmov (tile : Fin 64) (f : VxFields) (stall : Nat) (s : State) : Host.Outcome State Fault Refusal :=
  s.vx tile 0x54 f stall (vxPure (vxLanes f (fun x i => if f.bcast then x.opB f i else x.elem f.ra f.fm i)))

/-- VIOTA. -/
def execViota (tile : Fin 64) (f : VxFields) (stall : Nat) (s : State) : Host.Outcome State Fault Refusal :=
  s.vx tile 0x55 f stall (vxPure (vxLanes f (fun x i => ((x.sreg f.ra).toNat + i) % 2 ^ 32)))

/-- VCLASS. -/
def execVclass (tile : Fin 64) (f : VxFields) (stall : Nat) (s : State) : Host.Outcome State Fault Refusal :=
  s.vx tile 0x56 f stall (vxPure (vxUn f (vxClassBits f.fm)))

end Sys2Proof.Machine
end

