-- ==== Sys2Proof/Machine/VxConv.lean ====
section
/-! DEFINITION. The reductions, shuffles, transcendental functions, conversions and group scales of VX (chapter 06, R176 to
R180). -/

namespace Sys2Proof.Machine

/-! ### Reductions (R176) -/

/-- One step of the fixed tree after the other: the halves are combined element by element, `k` times. -/
def treeGo (op : Nat → Nat → Nat) : Nat → List Nat → List Nat
  | 0, l => l
  | k + 1, l => treeGo op k (List.zipWith op (l.take (l.length / 2)) (l.drop (l.length / 2)))

/-- The fixed tree over a list whose length is a power of two. -/
def treeOf (op : Nat → Nat → Nat) (l : List Nat) : Nat := (treeGo op l.length.log2 l).headD 0

/-- The elements of V[A] of a reduction, as FP32 codes, or INT32 ones; words at or above VL hold the identity. -/
def vxReduceIn (f : VxFields) (ident : Nat) (x : Vx) : List Nat :=
  let n := if f.fm = 1 ∨ f.fm = 2 then 1024 else 512
  (List.range n).map (fun i =>
    if i < x.count f.fm then (let c := x.elem f.ra f.fm i; if fmtIsFloat f.fm then toF32 f.fm c else c) else ident)

/-- Results to words 0, 1, …; the other words of V[D] become 0. -/
def vxReduceOut (f : VxFields) (l : List Nat) (x : Vx) : Vx :=
  x.setElems f.rd 7 0 (l ++ List.replicate (512 - l.length) 0)

/-- A list in runs of `g`, `k` of them. -/
def runsOf (g : Nat) : Nat → List Nat → List (List Nat)
  | 0, _ => []
  | k + 1, l => l.take g :: runsOf g k (l.drop g)

/-- A whole-register reduction. -/
def vxReduce (f : VxFields) (op : Nat → Nat → Nat) (ident : Nat) (x : Vx) : Vx :=
  vxReduceOut f [treeOf op (vxReduceIn f ident x)] x

/-- A reserved code in IMM ends the kernel as an illegal word (R167). -/
def vxIllegal (op : BitVec 8) (f : VxFields) (x : Vx) : VxStop := .status 0x1007 (x.pc - 1) (vxEncode op f).toNat

/-- A group reduction. -/
def vxReduceG (opc : BitVec 8) (f : VxFields) (op : Nat → Nat → Nat) (ident : Nat) : VxBody := fun _ _ x b =>
  if f.groupOk then
    let l := vxReduceIn f ident x
    .ok (vxReduceOut f ((runsOf f.group (l.length / f.group) l).map (treeOf op)) x, b)
  else .error (vxIllegal opc f x)

/-- The sum of two elements: FP32 rounded once, or INT32 wrapping. -/
def vxSum (f : VxFields) (a b : Nat) : Nat := if fmtIsFloat f.fm then addF32 a b else (a + b) % 2 ^ 32

/-- The greater of two elements. -/
def vxMaxOf (f : VxFields) (a b : Nat) : Nat :=
  if fmtIsFloat f.fm then fp32.rne (FVal.greatest (fp32.decode a) (fp32.decode b))
  else ofSigned 32 (max (toSigned 32 a) (toSigned 32 b))

/-- The greater of two magnitudes. -/
def vxAmaxOf (a b : Nat) : Nat := fp32.rne (FVal.greatest (fp32.decode a).abs (fp32.decode b).abs)

/-! ### Shuffles -/

/-- The format in which VZIPLO, VZIPHI, VUNZIPE and VUNZIPO move elements: 16 bits wide for BF16 and FP16, else words. -/
def shufFmt (f : VxFields) : Nat := if f.fm = 1 ∨ f.fm = 2 then 1 else 7

/-- A shuffle of words: those of V[D] below VL. -/
def vxShuffle (f : VxFields) (g : Vx → Nat → Nat) (x : Vx) : Vx := x.setElems f.rd 7 0 ((List.range x.vl).map (g x))

/-- A shuffle of elements: `g` names the operand (false A, true B) and the element, from the element count of a register. -/
def vxMove (f : VxFields) (g : Nat → Nat → Bool × Nat) (x : Vx) : Vx :=
  let e := shufFmt f
  let m := 16384 / fmtBits e
  x.setElems f.rd e 0 ((List.range (x.count e)).map (fun i =>
    let s := g m i
    x.elem (if s.1 then f.rb else f.ra) e s.2))

/-! ### Conversions and group scales -/

/-- The width of a format as conversions count it: an INT64 pair counts as 32 (chapter 06). -/
def cvtBits (fmt : Nat) : Nat := if fmt = 8 then 32 else fmtBits fmt

/-- How many elements a conversion processes. -/
def cvtCount (src dst : Nat) : Nat := 16384 / max (cvtBits src) (cvtBits dst)

/-- How many segments the narrower side has. -/
def cvtSegs (src dst : Nat) : Nat := max (cvtBits src) (cvtBits dst) / min (cvtBits src) (cvtBits dst)

/-- Whether a conversion's source format, PART and pairs are legal. -/
def cvtOk (f : VxFields) : Bool :=
  (fmtOf f.src).isSome && decide (f.part < cvtSegs f.src f.fm) && (decide (f.src ≠ 8) || decide (f.ra % 2 = 0)) &&
    (decide (f.fm ≠ 8) || decide (f.rd % 2 = 0))

/-- The first element of the source segment. -/
def cvtFrom (f : VxFields) : Nat := if cvtBits f.src < cvtBits f.fm then f.part * cvtCount f.src f.fm else 0

/-- The first element of the destination segment. -/
def cvtTo (f : VxFields) : Nat := if cvtBits f.fm < cvtBits f.src then f.part * cvtCount f.src f.fm else 0

/-- The rounding of a word; stochastic rounding takes draw number `n` (R115, R117). -/
def vxRnd (f : VxFields) (n : Nat) : Rnd :=
  if f.rnd = 0 then .rne else if f.rnd = 1 then .rna else .sr (Config.srBits n).toNat

/-- Conversions of a list of elements with their counts, and the draws of stochastic rounding (R119, R180). -/
def vxConvert (f : VxFields) (l : List Cvt) (x : Vx) (b : Block) (k : Nat) : Vx × Block :=
  let y := x.setElems f.rd f.fm k (l.map (·.code))
  ({ y with sat := y.sat + (l.filter (·.sat)).length, ufl := y.ufl + (l.filter (·.ufl)).length },
    if f.rnd = 2 then { b with free := { b.free with draws := b.free.draws + l.length } } else b)

/-- Whether every value of a format is exact in FP32. -/
def inF32 (fmt : Nat) : Bool := decide (fmt ≤ 6)

/-- One element of VQNT: the division by its scale, rounded once to FP32, and the conversion (R119, R179). -/
def vqntElem (f : VxFields) (r : Rnd) (c s : Nat) : Cvt :=
  let xv := fp32.decode (toF32 f.src c)
  let sv := fp32.decode s
  let q := fp32.decode (fp32.div xv sv)
  let o := match fmtOf f.fm with
    | some g => g.ofVal r (decide (f.sat = 1)) q
    | none => { code := 0 }
  let live := !xv.isSpecial && !xv.isZero
  { o with sat := o.sat || (live && q.isSpecial && !sv.isSpecial && !sv.isZero), ufl := o.ufl || (live && q.isZero) }

/-- One element of VDQNT: the product with its scale, rounded once to FP32 (R119). -/
def vdqntElem (src c s : Nat) : Cvt :=
  let xv := fp32.decode (toF32 src c)
  let sv := fp32.decode s
  let o := fp32.rne (FVal.mul xv sv)
  let ov := fp32.decode o
  let live := !xv.isSpecial && !xv.isZero
  { code := o, sat := live && ov.isSpecial && !sv.isSpecial, ufl := live && ov.isZero }

/-- The word of the scale register that holds the scale of element `i` of `n` (R178, R179). -/
def scaleWord (f : VxFields) (n i : Nat) : Nat := f.part * (n / f.group) + i / f.group

/-- VSEED's groups: their seeds as FP32 codes, and whether one has a special value (R121, R178). -/
def vseedGroups (f : VxFields) (x : Vx) : List (Nat × Bool) :=
  let n := cvtCount f.src f.fm
  let sf := if bitAt f.immU 10 then 1 else 0
  (List.range (n / f.group)).map (fun j =>
    let vs := (List.range f.group).map (fun i => fp32.decode (toF32 f.src (x.elem f.ra f.src (cvtFrom f + j * f.group + i))))
    let s := seedScale vs f.fm sf
    (toF32 sf s.1, s.2))

/-- VRSUM. -/
def execVrsum (tile : Fin 64) (f : VxFields) (stall : Nat) (s : State) : Host.Outcome State Fault Refusal :=
  s.vx tile 0x60 f stall (vxPure (vxReduce f (vxSum f) 0))

/-- VRMAX. -/
def execVrmax (tile : Fin 64) (f : VxFields) (stall : Nat) (s : State) : Host.Outcome State Fault Refusal :=
  s.vx tile 0x61 f stall (vxPure (vxReduce f (vxMaxOf f) (if fmtIsFloat f.fm then 0xFF800000 else 0x80000000)))

/-- VRAMAX. -/
def execVramax (tile : Fin 64) (f : VxFields) (stall : Nat) (s : State) : Host.Outcome State Fault Refusal :=
  s.vx tile 0x62 f stall (vxPure (vxReduce f vxAmaxOf 0))

/-- VRSUMG. -/
def execVrsumg (tile : Fin 64) (f : VxFields) (stall : Nat) (s : State) : Host.Outcome State Fault Refusal :=
  s.vx tile 0x63 f stall (vxReduceG 0x63 f (vxSum f) 0)

/-- VRAMAXG. -/
def execVramaxg (tile : Fin 64) (f : VxFields) (stall : Nat) (s : State) : Host.Outcome State Fault Refusal :=
  s.vx tile 0x64 f stall (vxReduceG 0x64 f vxAmaxOf 0)

/-- VPERM. -/
def execVperm (tile : Fin 64) (f : VxFields) (stall : Nat) (s : State) : Host.Outcome State Fault Refusal :=
  s.vx tile 0x68 f stall (vxPure (vxShuffle f (fun x w => x.word f.ra (x.word f.rb w % 512))))

/-- VSLIDE. -/
def execVslide (tile : Fin 64) (f : VxFields) (stall : Nat) (s : State) : Host.Outcome State Fault Refusal :=
  s.vx tile 0x69 f stall (vxPure (vxShuffle f (fun x w =>
    let k := w + f.immU % 512
    if k < 512 then x.word f.ra k else x.word f.rb (k - 512))))

/-- VZIPLO. -/
def execVziplo (tile : Fin 64) (f : VxFields) (stall : Nat) (s : State) : Host.Outcome State Fault Refusal :=
  s.vx tile 0x6A f stall (vxPure (vxMove f (fun _ i => (decide (i % 2 = 1), i / 2))))

/-- VZIPHI. -/
def execVziphi (tile : Fin 64) (f : VxFields) (stall : Nat) (s : State) : Host.Outcome State Fault Refusal :=
  s.vx tile 0x6B f stall (vxPure (vxMove f (fun m i => (decide (i % 2 = 1), i / 2 + m / 2))))

/-- VUNZIPE. -/
def execVunzipe (tile : Fin 64) (f : VxFields) (stall : Nat) (s : State) : Host.Outcome State Fault Refusal :=
  s.vx tile 0x6C f stall (vxPure (vxMove f (fun m i => (decide (m / 2 ≤ i), 2 * (i % (m / 2))))))

/-- VUNZIPO. -/
def execVunzipo (tile : Fin 64) (f : VxFields) (stall : Nat) (s : State) : Host.Outcome State Fault Refusal :=
  s.vx tile 0x6D f stall (vxPure (vxMove f (fun m i => (decide (m / 2 ≤ i), 2 * (i % (m / 2)) + 1))))

/-- VBCAST. -/
def execVbcast (tile : Fin 64) (f : VxFields) (stall : Nat) (s : State) : Host.Outcome State Fault Refusal :=
  s.vx tile 0x6E f stall (vxPure (fun x => x.setElems f.rd 7 0 (List.replicate 512 (x.word f.ra (f.immU % 512)))))

/-- VEXP2 (R177). -/
def execVexp2 (tile : Fin 64) (f : VxFields) (stall : Nat) (s : State) : Host.Outcome State Fault Refusal :=
  s.vx tile 0x70 f stall (vxPure (vxUn f (transExp2 f.fm)))

/-- VLOG2 (R177). -/
def execVlog2 (tile : Fin 64) (f : VxFields) (stall : Nat) (s : State) : Host.Outcome State Fault Refusal :=
  s.vx tile 0x71 f stall (vxPure (vxUn f (transLog2 f.fm)))

/-- VRCP (R177). -/
def execVrcp (tile : Fin 64) (f : VxFields) (stall : Nat) (s : State) : Host.Outcome State Fault Refusal :=
  s.vx tile 0x72 f stall (vxPure (vxUn f (transRcp f.fm)))

/-- VRSQRT (R177). -/
def execVrsqrt (tile : Fin 64) (f : VxFields) (stall : Nat) (s : State) : Host.Outcome State Fault Refusal :=
  s.vx tile 0x73 f stall (vxPure (vxUn f (transRsqrt f.fm)))

/-- VTANH (R177). -/
def execVtanh (tile : Fin 64) (f : VxFields) (stall : Nat) (s : State) : Host.Outcome State Fault Refusal :=
  s.vx tile 0x74 f stall (vxPure (vxUn f (transTanh f.fm)))

/-- VSIGM (R177). -/
def execVsigm (tile : Fin 64) (f : VxFields) (stall : Nat) (s : State) : Host.Outcome State Fault Refusal :=
  s.vx tile 0x75 f stall (vxPure (vxUn f (transSigm f.fm)))

/-- VCVT. -/
def execVcvt (tile : Fin 64) (f : VxFields) (stall : Nat) (s : State) : Host.Outcome State Fault Refusal :=
  s.vx tile 0x80 f stall (fun _ _ x b =>
    if cvtOk f then
      let l := (List.range (cvtCount f.src f.fm)).map (fun i =>
        cvtCode f.src f.fm (vxRnd f (b.free.draws + i)) (decide (f.sat = 1)) (x.elem f.ra f.src (cvtFrom f + i)))
      .ok (vxConvert f l x b (cvtTo f))
    else .error (vxIllegal 0x80 f x))

/-- VSEED. -/
def execVseed (tile : Fin 64) (f : VxFields) (stall : Nat) (s : State) : Host.Outcome State Fault Refusal :=
  s.vx tile 0x81 f stall (fun _ _ x b =>
    let n := cvtCount f.src f.fm
    if inF32 f.src && f.groupOk && decide ((f.part + 1) * (n / f.group) ≤ 512) &&
        (decide (cvtBits f.fm ≤ cvtBits f.src) || decide (f.part < cvtSegs f.src f.fm)) then
      let l := vseedGroups f x
      let y := x.setElems f.rd 0 (f.part * (n / f.group)) (l.map (fun p => p.1))
      .ok ({ y with special := y.special || l.any (fun p => p.2) }, b)
    else .error (vxIllegal 0x81 f x))

/-- VQNT. -/
def execVqnt (tile : Fin 64) (f : VxFields) (stall : Nat) (s : State) : Host.Outcome State Fault Refusal :=
  s.vx tile 0x82 f stall (fun _ _ x b =>
    if cvtOk f && inF32 f.src && f.groupOk then
      let n := cvtCount f.src f.fm
      let l := (List.range n).map (fun i =>
        vqntElem f (vxRnd f (b.free.draws + i)) (x.elem f.ra f.src (cvtFrom f + i)) (x.word f.rb (scaleWord f n i)))
      .ok (vxConvert f l x b (cvtTo f))
    else .error (vxIllegal 0x82 f x))

/-- VDQNT. -/
def execVdqnt (tile : Fin 64) (f : VxFields) (stall : Nat) (s : State) : Host.Outcome State Fault Refusal :=
  s.vx tile 0x83 f stall (fun _ _ x b =>
    if cvtOk f && inF32 f.src && f.groupOk then
      let l := (List.range 512).map (fun i => vdqntElem f.src (x.elem f.ra f.src (cvtFrom f + i)) (x.word f.rb (scaleWord f 512 i)))
      .ok (vxConvert f l x b 0)
    else .error (vxIllegal 0x83 f x))

end Sys2Proof.Machine
end

