-- ==== Sys2Proof/Machine/FarrierRules.lean ====
section
/-! DEFINITION. The optimiser rules (R331 to R336) on FP32 codes, as the Farrier's shards and the Beater's record cycles use
them. -/

namespace Sys2Proof.Machine

/-- How many state vectors a rule keeps (R273). -/
def ruleStates (rule : Nat) : Nat :=
  match rule with
  | 2 => 1 | 3 => 1 | 5 => 1 | 4 => 2 | 7 => 2 | _ => 0

/-- Whether a rule keeps row words (R273). -/
def ruleWords (rule : Nat) : Bool := decide (rule = 4 ∨ rule = 6 ∨ rule = 7)

/-- A hyperparameter block (R331), as FP32 codes. -/
structure Hyper where
  lr : Nat
  wd : Nat
  b1 : Nat
  b2 : Nat
  eps : Nat
  gscale : Nat
  damp : Nat
  trMin : Nat
  trMax : Nat
  deriving DecidableEq, Repr

/-- The hyperparameters of 64 bytes. -/
def hyperOf (l : List Byte) : Hyper :=
  ⟨field l 0 4, field l 4 4, field l 8 4, field l 12 4, field l 16 4, field l 20 4, field l 24 4, field l 28 4, field l 32 4⟩

/-- 1.0 in FP32. -/
def oneF32 : Nat := 0x3F800000

/-- The negation of an FP32 code. -/
def negF32 (x : Nat) : Nat := fp32.rne (FVal.neg (fp32.decode x))

/-- powi of R334 over the low `n` bits of `t`. -/
def powiGo : Nat → Nat → Nat → Nat → Nat
  | 0, _, _, y => y
  | n + 1, t, x, y => powiGo n (t / 2) (mulF32 x x) (if t % 2 = 1 then mulF32 y x else y)

/-- powi(b, t) (R334). -/
def powiF32 (b t : Nat) : Nat := powiGo 32 (t % 2 ^ 32) b oneF32

/-- The constants of an update (R334). -/
structure RuleK where
  gs : Nat
  od : Nat
  ob1 : Nat
  ob2 : Nat
  lwd : Nat
  rb1 : Nat
  rb2 : Nat
  deriving DecidableEq, Repr

/-- The constants from the hyperparameters, the clip factor and t. -/
def ruleConsts (h : Hyper) (clip t : Nat) : RuleK :=
  { gs := mulF32 h.gscale clip
    od := subF32 oneF32 h.damp
    ob1 := subF32 oneF32 h.b1
    ob2 := subF32 oneF32 h.b2
    lwd := mulF32 h.lr h.wd
    rb1 := divF32 oneF32 (subF32 oneF32 (powiF32 h.b1 t))
    rb2 := divF32 oneF32 (subF32 oneF32 (powiF32 h.b2 t)) }

/-- st(y) (R332): the conversion to STATE_FMT (0 FP32, 1 BF16) that stores a state value. -/
def stCvt (fmt y : Nat) : Cvt := if fmt = 1 then cvtCode 0 1 .rne false y else { code := y }

/-- A stored state value in FP32. -/
def stVal (fmt c : Nat) : Nat := if fmt = 1 then toF32 1 c else c

/-- The accumulators of R333 with one run of at most 512 elements added. -/
def laneSquares : List Nat → List Nat → List Nat
  | p :: ps, x :: xs => fmaF32 x x p :: laneSquares ps xs
  | ps, [] => ps
  | [], _ => []

/-- sumsq (R333). -/
def sumsq (x : List Nat) : Nat :=
  treeOf addF32 ((runsOf 512 (ceilDiv x.length 512) x).foldl laneSquares (List.replicate 512 0))

/-- An element's new value and its stored states (R335); for LAMB the value is x. -/
structure ElemOut where
  w : Nat
  states : List Cvt
  deriving DecidableEq, Repr

/-- The first moment of AdamW and LAMB, the second, and u (R335). -/
def adamPart (h : Hyper) (k : RuleK) (fmt g m v : Nat) : Cvt × Cvt × Nat :=
  let m' := stCvt fmt (fmaF32 h.b1 m (mulF32 k.ob1 g))
  let v' := stCvt fmt (fmaF32 h.b2 v (mulF32 k.ob2 (mulF32 g g)))
  let d := addF32 (sqrtF32 (mulF32 (stVal fmt v'.code) k.rb2)) h.eps
  (m', v', divF32 (mulF32 (stVal fmt m'.code) k.rb1) d)

/-- One element under a rule (R335), from w, the gradient g0 and the states in FP32. -/
def elemRule (rule : Nat) (h : Hyper) (k : RuleK) (fmt w g0 m v : Nat) : ElemOut :=
  let g := mulF32 k.gs g0
  let gc := fmaF32 h.wd w g
  let nlr := negF32 h.lr
  match rule with
  | 1 => ⟨fmaF32 nlr gc w, []⟩
  | 2 =>
    let m' := stCvt fmt (fmaF32 h.b1 m (mulF32 k.od gc))
    ⟨fmaF32 nlr (stVal fmt m'.code) w, [m']⟩
  | 3 =>
    let m' := stCvt fmt (fmaF32 h.b1 m (mulF32 k.od gc))
    ⟨fmaF32 nlr (fmaF32 h.b1 (stVal fmt m'.code) gc) w, [m']⟩
  | 4 =>
    let a := adamPart h k fmt g m v
    ⟨fmaF32 nlr a.2.2 (fmaF32 (negF32 k.lwd) w w), [a.1, a.2.1]⟩
  | 5 =>
    let s' := stCvt fmt (fmaF32 gc gc m)
    let d := addF32 (sqrtF32 (stVal fmt s'.code)) h.eps
    ⟨fmaF32 nlr (divF32 gc d) w, [s']⟩
  | _ =>
    let a := adamPart h k fmt g m v
    ⟨fmaF32 h.wd w a.2.2, [a.1, a.2.1]⟩

/-- The trust ratio of a segment (R336), from its old w and its x. -/
def trustRatio (h : Hyper) (w x : List Nat) : Nat :=
  let nw := sumsq w
  let nx := sumsq x
  let tr := if (fp32.decode nw).isZero || (fp32.decode nx).isZero then oneF32 else divF32 (sqrtF32 nw) (sqrtF32 nx)
  FFmt.min fp32 (FFmt.max fp32 tr h.trMin) h.trMax

/-- LAMB's second pass over the segments of `n` elements. -/
def lambGo (h : Hyper) (n : Nat) : Nat → List Nat → List Nat → List Nat
  | 0, _, _ => []
  | k + 1, w, x =>
    let ws := w.take n
    let xs := x.take n
    let a := negF32 (mulF32 h.lr (trustRatio h ws xs))
    List.zipWith (fun xi wi => fmaF32 a xi wi) xs ws ++ lambGo h n k (w.drop n) (x.drop n)

/-- What a rule makes of a run of elements: the new values, the stored states, ACC. -/
structure RuleOut where
  w : List Nat
  s1 : List Cvt
  s2 : List Cvt
  acc : Nat
  deriving DecidableEq, Repr

/-- Row-wise Adagrad over one table row (R335). -/
def rowAdagrad (h : Hyper) (k : RuleK) (w g0 : List Nat) (acc : Nat) : RuleOut :=
  let g := List.zipWith (fun wi gi => fmaF32 h.wd wi (mulF32 k.gs gi)) w g0
  let acc' := addF32 acc (mulF32 (sumsq g) (divF32 oneF32 (natF32 w.length)))
  let d := addF32 (sqrtF32 acc') h.eps
  ⟨List.zipWith (fun wi gi => fmaF32 (negF32 h.lr) (divF32 gi d) wi) w g, [], [], acc'⟩

/-- A rule over a run of elements (R335, R336); `seg` is the length of a trust segment. Missing states read as zeros. -/
def applyRule (rule : Nat) (h : Hyper) (k : RuleK) (fmt seg : Nat) (w g0 m v : List Nat) (acc : Nat) : RuleOut :=
  if rule = 6 then rowAdagrad h k w g0 acc
  else
    let m' := if m = [] then w.map (fun _ => 0) else m
    let v' := if v = [] then w.map (fun _ => 0) else v
    let out := List.zipWith (fun (a : Nat × Nat) (b : Nat × Nat) => elemRule rule h k fmt a.1 a.2 b.1 b.2) (w.zip g0) (m'.zip v')
    let nw := out.map (fun o => o.w)
    ⟨if rule = 7 then lambGo h seg (ceilDiv w.length (max 1 seg)) w nw else nw,
      out.filterMap (fun o => o.states[0]?), out.filterMap (fun o => o.states[1]?), acc⟩

/-- How many conversions of a list saturated, and how many underflowed (R119). -/
def cvtCounts (l : List Cvt) : Nat × Nat := ((l.filter (·.sat)).length, (l.filter (·.ufl)).length)

end Sys2Proof.Machine
end

