-- ==== Sys2Proof/Machine/FarrierBase.lean ====
section
/-! DEFINITION. Shards and their version slots (R323 to R329), as the Farrier and the Relay reach them. -/

namespace Sys2Proof.Machine

/-- A number rounded up to a multiple of 64. -/
def up64 (n : Nat) : Nat := ceilDiv n 64 * 64

end Sys2Proof.Machine

namespace Sys2Proof

open Machine

/-- The bytes of a working element. -/
def ShardParams.eW (p : ShardParams) : Nat := fmtBits p.wfmt / 8

/-- The bytes of a state element. -/
def ShardParams.eS (p : ShardParams) : Nat := if p.stateFmt = 1 then 2 else 4

/-- The format and size of part `k` of a slot (R326): 0 working copy, 1 master, 2 S1, 3 S2; size 0 where the shard lacks it. -/
def ShardParams.part (p : ShardParams) (k : Nat) : Nat × Nat :=
  match k with
  | 0 => (p.wfmt, up64 (p.elems * p.eW))
  | 1 => (0, if p.mode = 1 then up64 (4 * p.elems) else 0)
  | 2 => (p.stateFmt, if 1 ≤ ruleStates p.rule then up64 (p.elems * p.eS) else 0)
  | _ => (p.stateFmt, if 2 ≤ ruleStates p.rule then up64 (p.elems * p.eS) else 0)

/-- Where a part begins in its slot. -/
def ShardParams.partAt (p : ShardParams) (k : Nat) : Nat := ((List.range k).map (fun j => (p.part j).2)).foldl (· + ·) 64

/-- SLOT_BYTES (R326). -/
def ShardParams.slotBytes (p : ShardParams) : Nat := p.partAt 4

/-- The part that the rule updates (R325): the master in MODE 1, else the working copy. -/
def ShardParams.valuePart (p : ShardParams) : Nat := if p.mode = 1 then 1 else 0

/-- Whether MODE and WFMT combine (R325). -/
def ShardParams.modeOk (p : ShardParams) : Bool :=
  (decide (p.mode = 0) && decide (p.wfmt = 0)) || (decide (p.mode = 1) && decide (1 ≤ p.wfmt ∧ p.wfmt ≤ 4)) ||
    (decide (p.mode = 2) && decide (p.wfmt = 1))

end Sys2Proof

namespace Sys2Proof.Machine

/-- The key of a shard of a context. -/
def shardKey (ctx n : Nat) : Nat := ctx * 2 ^ 14 + n

/-- Shard `n` of a context, if it is defined. -/
def Block.shard? (b : Block) (ctx n : Nat) : Option Shard :=
  if n < 16384 then Sparse.get (always none) b.farrier.shards (shardKey ctx n) else none

/-- The shards defined in a context, with their numbers. -/
def Block.shardsOf (b : Block) (ctx : Nat) : List (Nat × Shard) :=
  b.farrier.shards.filterMap (fun p => if p.1 / 2 ^ 14 = ctx then p.2.map (fun s => (p.1 % 2 ^ 14, s)) else none)

/-- A shard's descriptor set or removed, with FARRIER_SHARDS. -/
def Block.setShard (b : Block) (ctx n : Nat) (x : Option Shard) : Block :=
  let m := Sparse.set (always none) b.farrier.shards (shardKey ctx n) x
  let b := { b with farrier := { b.farrier with shards := m } }
  let l := b.shardsOf ctx
  (b.rset .FARRIER_SHARDS_DEFINED ctx l.length).rset .FARRIER_SHARDS_OWNED ctx (l.filter (fun s => s.2.owned)).length

/-- The address of version `v` of a shard (R326). -/
def Shard.slotVa (s : Shard) (v : Nat) : Nat := s.p.baseVa + v % (s.p.depth + 1) * s.p.slotBytes

/-- The next version of a shard. -/
def Shard.next (s : Shard) : Nat := (s.version + 1) % 2 ^ 32

/-- Whether an UPDATE of the shard has written version V + 1 and holds its commit (R328, R350). -/
def Block.writingNext (b : Block) (ctx n : Nat) : Bool :=
  b.farrier.lagged.any (fun l => decide (l.ctx = ctx) && l.entries.any (fun e => decide (e.shard = n)))

/-- Whether version `v` is retained (R328), compared under R9. -/
def Block.retained (b : Block) (ctx n : Nat) (s : Shard) (v : Nat) : Bool :=
  decide ((s.version + 2 ^ 32 - v % 2 ^ 32) % 2 ^ 32 + b2n (b.writingNext ctx n) ≤ s.p.depth)

/-- The elements of part `k` of version `v`, as codes of its format. -/
def readPart (c : Cmd) (s : Shard) (v k : Nat) : Act (List Nat) := do
  let f := s.p.part k
  let bs ← readVa (c.req 0 0) (s.slotVa v + s.p.partAt k) (s.p.elems * (fmtBits f.1 / 8))
  return elems f.1 bs s.p.elems

/-- Part `k` of version `v` is written, padded with zeros. -/
def writePart (c : Cmd) (s : Shard) (v k : Nat) (l : List Nat) : Act Unit := do
  let f := s.p.part k
  let bs := packElems f.1 l
  writeVa (c.req 0 0) (s.slotVa v + s.p.partAt k) (bs ++ List.replicate (f.2 - bs.length) 0)

/-- The 64 bytes of a slot header (R327). -/
def slotHeader (version step now clip flags : Nat) : List Byte :=
  bytesOf 4 version ++ bytesOf 4 step ++ bytesOf 8 now ++ bytesOf 4 clip ++ bytesOf 1 flags ++ List.replicate 43 0

/-- The version that a field names: 0xFFFF_FFFF is the current one (R344). -/
def Shard.named (s : Shard) (v : Nat) : Nat := if v = 0xFFFFFFFF then s.version else v

end Sys2Proof.Machine
end

