-- ==== Sys2Proof/Machine/RelayCmd.lean ====
section
/-! DEFINITION. The commands of the Relay (chapter 13): GROUP_DEFINE, the collectives' starts and ends, PERMUTE, BUCKET_CANCEL.
What arrives from the peers stands in `RelayUnit.lean`. -/

namespace Sys2Proof.Machine

/-! ### GROUP_DEFINE (R361, R362) -/

/-- Whether a collective of a group, a PERMUTE among them, is in flight. -/
def Block.groupBusy (b : Block) (g : Nat) : Bool := b.relay.colls.any (fun x => decide (tagGroup x.tag = g))

/-- A group's definition goes. -/
def Block.undefineGroup (b : Block) (g : Nat) : Block :=
  match b.groupSlot g with
  | some i =>
    let b := (b.sbDropGroup g true).setGroupSlot i none
    { b with relay := { b.relay with cancels := b.relay.cancels.filter (fun c => !decide (c.1 = g))
                                     early := b.relay.early.filter (fun x => !decide (x.2.1 = g)) } }
  | none => b

/-- A group is defined with the ranks of its members. -/
def Block.defineGroup (b : Block) (c : Cmd) (p : GroupParams) (ranks : List Nat) : Block :=
  let slot := match b.groupSlot p.group with
    | some i => some i
    | none => (List.range 64).find? (fun i => decide (Sparse.get (always none) b.relay.groups i = none))
  let other := match b.group? p.group with
    | some g => decide (g.ctx ≠ c.ctx)
    | none => false
  match slot, ranks.findIdx? (fun r => decide (r = b.rank)) with
  | some i, some m =>
    if !ranks.Nodup || ranks.any (fun r => decide (2 ^ 14 ≤ r)) || other then b.finish c.id 0x0100 0 0
    else if b.groupBusy p.group then b.finish c.id 0x4006 0 0
    else
      let b := if (b.group? p.group).isSome then b.sbDropGroup p.group false else b
      let b := (b.setGroupSlot i (some ⟨p.group, c.ctx, p.epoch, ranks, m⟩)).rset .RELAY_GROUP_STATE i 0
      (b.setEpoch p.group p.epoch).finish c.id 0 0 (halves m ranks.length)
  | _, _ => b.finish c.id 0x0100 0 0

/-- GROUP_DEFINE at its start. -/
def Block.doGroupDefine (c : Cmd) (p : GroupParams) (b : Block) : Block :=
  if p.undefine then
    match b.groupErr c.ctx p.group with
    | some e => b.finish c.id e.1 e.2 0
    | none => if b.groupBusy p.group then b.finish c.id 0x4006 0 0 else (b.undefineGroup p.group).finish c.id 0 0 0
  else if p.members = 0 ∨ 16384 < p.members then b.finish c.id 0x0100 0 0
  else b.withAct c.id 0x4008 (readVa (c.req 0 0) p.listVa (2 * p.members)) (fun bs b =>
    b.defineGroup c p ((List.range p.members).map (fun i => field bs (2 * i) 2)))

/-- GROUP_DEFINE (R361, R362). -/
def execGroupDefine (id : Nat) (p : GroupParams) (s : State) : Host.Outcome State Fault Refusal :=
  s.run (fun b => b.runCmd id (.groupDefine p) always2 (fun c b => b.doGroupDefine c p))

/-! ### Reductions (R371 to R381) -/

/-- The status of a collective that is over: OK_RECOMPUTED after a recovery (R392). -/
def Coll.okStatus (x : Coll) : Nat := if x.recovered then 0x0002 else 0

/-- A reduction that is over ends (R380, R394, R395). -/
def Block.redEnd (b : Block) (tag : Nat) (p : CollParams) (scatter : Bool) : Block :=
  match b.coll tag with
  | some x =>
    if b.collRuns x && decide (x.outq = []) && x.redOver p scatter then
      b.endColl tag (if p.forbidSpecial && x.special then 0x0600 else x.okStatus) 0 (halves x.sat (x.phase + 256 * p.pass))
    else b
  | none => b

/-- A reduction goes as far as it can. -/
def Block.redAdvance (b : Block) (tag : Nat) (c : Cmd) (p : CollParams) (scatter : Bool) : Block :=
  match b.coll tag with
  | some x =>
    if b.collRuns x then ((b.collAct tag c.opcode (redStep tag c p scatter)).pump tag).redEnd tag p scatter else b
  | none => b

/-- A reduction's collective enters flight at pass 0, or goes on with a later pass (R373). -/
def Block.redEnter (b : Block) (c : Cmd) (p : CollParams) (scatter : Bool) (gs : GroupSt) (algo : Nat) : Option Block :=
  let tag := tagOf p.group p.epoch p.bucket
  let digest := c.digest gs [algo, p.fmt, p.outFmt, p.size, p.passes, b2n p.mean, b2n p.wireBf16]
  let outs := if p.pass + 1 < p.passes then [] else [(p.outVa, (if scatter then (p.chunkAt gs.ranks.length gs.self).2 else p.elements) * esz p.outFmt)]
  let bucket := [(p.bucketVa, p.size)]
  if p.pass = 0 then some (b.beginColl { newColl c tag gs digest p.passes b.clk.t with outs := outs, bucket := bucket })
  else
    match b.coll tag with
    | some x =>
      if x.cmd = none ∧ x.passDone = p.pass ∧ x.passes = p.passes ∧ x.op = c.opcode then
        some (b.setColl { x with cmd := some c.id, startT := b.clk.t, digest := digest, outs := outs, bucket := bucket })
      else none
    | none => none

/-- A pass of a reduction in flight: its contribution, and at the last pass the collective (R372 to R374). -/
def Block.redRun (c : Cmd) (p : CollParams) (scatter : Bool) (gs : GroupSt) (algo : Nat) (b : Block) : Block :=
  let tag := tagOf p.group p.epoch p.bucket
  let b := (b.setRunning c.id).collAct tag c.opcode (redPass c p)
  if p.pass + 1 < p.passes then b.endColl tag 0 0 (halves 0 (256 * p.pass))
  else
    let b := b.collAct tag c.opcode (do
      let y ← theColl tag
      if (← get).collRuns y then redBegin tag c p algo)
    match b.coll tag with
    | some x =>
      if b.collRuns x then ((if gs.ranks.length = 1 then b else b.openColl tag x.redSources)).redAdvance tag c p scatter else b
    | none => b

/-- A pass of a reduction with its group (R372 to R374). -/
def Block.redGo (c : Cmd) (p : CollParams) (scatter : Bool) (gs : GroupSt) (b : Block) : Block :=
  let algo := b.redAlgo p scatter gs.ranks.length
  match b.redEnter c p scatter gs algo with
  | none => b.finish c.id 0x0100 0 0
  | some b => b.redRun c p scatter gs algo

/-- A reduction starts. -/
def Block.startRed (c : Cmd) (p : CollParams) (scatter : Bool) (b : Block) : Block :=
  if p.badRed scatter then (b.unhold c.id).finish c.id 0x0100 0 0
  else b.collStart c p.group p.epoch p.bucket (decide (p.pass ≠ 0)) (fun gs b => b.redGo c p scatter gs)

/-- ALL_REDUCE (R371 to R381). -/
def execAllReduce (id : Nat) (p : CollParams) (s : State) : Host.Outcome State Fault Refusal :=
  s.run (fun b => b.runCmd id (.allReduce p) collReady (fun c b => b.startRed c p false))

/-- REDUCE_SCATTER (R371 to R381). -/
def execReduceScatter (id : Nat) (p : CollParams) (s : State) : Host.Outcome State Fault Refusal :=
  s.run (fun b => b.runCmd id (.reduceScatter p) collReady (fun c b => b.startRed c p true))

/-! ### ALL_GATHER and BROADCAST (R382, R383) -/

/-- Whether the fields that ALL_GATHER and BROADCAST share are out of range. -/
def badGather (p : CollParams) : Bool :=
  decide (p.size < 128 ∨ 67108864 < p.size ∨ p.size % 128 ≠ 0) || decide (1 < p.fmt) || (decide (p.hint = 3) && decide (p.useCount = 0))

/-- ALL_GATHER's source: SRC_VA, or the working copy of a retained version of a shard (R382). -/
def Block.gatherSrc (b : Block) (c : Cmd) (p : CollParams) : Except (Nat × Nat) Nat :=
  if p.shardSrc then
    let n := p.srcVa % 2 ^ 16
    match b.shard? c.ctx n with
    | none => .error (0x3001, n)
    | some sh =>
      if !sh.owned then .error (0x3002, n)
      else
        let v := sh.named (p.srcVa / 2 ^ 32)
        if b.retained c.ctx n sh v then .ok (sh.slotVa v + sh.p.partAt 0) else .error (0x3003, 0)
  else .ok (p.srcVa % 2 ^ 56)

/-- ALL_GATHER goes as far as it can. -/
def Block.gatherAdvance (b : Block) (tag : Nat) (c : Cmd) (p : CollParams) : Block :=
  match b.coll tag with
  | some x =>
    if b.collRuns x then
      let b := (b.collAct tag c.opcode (gatherStep tag c p)).pump tag
      match b.coll tag with
      | some y =>
        if b.collRuns y && decide (y.outq = []) && y.gatherOver then
          b.endColl tag y.okStatus 0 (halves (y.ranks.length * p.size / 1024) 0)
        else b
      | none => b
    else b
  | none => b

/-- ALL_GATHER with its group, its source at `va`: its own part is written, and sent to every other member. -/
def Block.gatherRun (c : Cmd) (p : CollParams) (gs : GroupSt) (va : Nat) (b : Block) : Block :=
  let tag := tagOf p.group p.epoch p.bucket
  let b := b.beginColl { newColl c tag gs (c.digest gs [p.fmt, p.size]) 1 b.clk.t with outs := [(p.outVa, gs.ranks.length * p.size)] }
  let b := (b.setRunning c.id).collAct tag c.opcode (do
    let bs ← readVa (c.req 0 0) va p.size
    writeVa (c.req p.hint p.useCount) (p.outVa + gs.self * p.size) bs
    collSet tag (fun x => x.others.foldl (fun x i => x.post i 0 bs) { x with own := bs }))
  match b.coll tag with
  | some x => if b.collRuns x then (b.openColl tag x.others).gatherAdvance tag c p else b
  | none => b

/-- ALL_GATHER with its group. -/
def Block.gatherGo (c : Cmd) (p : CollParams) (gs : GroupSt) (b : Block) : Block :=
  match b.gatherSrc c p with
  | .error e => b.finish c.id e.1 e.2 0
  | .ok va => b.gatherRun c p gs va

/-- ALL_GATHER starts. -/
def Block.startGather (c : Cmd) (p : CollParams) (b : Block) : Block :=
  if badGather p then (b.unhold c.id).finish c.id 0x0100 0 0
  else b.collStart c p.group p.epoch p.bucket false (fun gs b => b.gatherGo c p gs)

/-- ALL_GATHER (R382). -/
def execAllGather (id : Nat) (p : CollParams) (s : State) : Host.Outcome State Fault Refusal :=
  s.run (fun b => b.runCmd id (.allGather p) collReady (fun c b => b.startGather c p))

/-- BROADCAST goes as far as it can. -/
def Block.bcastAdvance (b : Block) (tag : Nat) (c : Cmd) (p : CollParams) : Block :=
  match b.coll tag with
  | some x =>
    if b.collRuns x then
      let b := (b.collAct tag c.opcode (bcastStep tag c p)).pump tag
      match b.coll tag with
      | some y =>
        if b.collRuns y && decide (y.outq = []) && y.bcastOver p then b.endColl tag y.okStatus 0 (halves (p.size / 1024) 0)
        else b
      | none => b
    else b
  | none => b

/-- BROADCAST of a root in the group: the root reads, writes and sends on; a member waits for its predecessor. -/
def Block.bcastRun (c : Cmd) (p : CollParams) (gs : GroupSt) (b : Block) : Block :=
  let tag := tagOf p.group p.epoch p.bucket
  let n := gs.ranks.length
  let b := b.beginColl { newColl c tag gs (c.digest gs [p.fmt, p.size]) 1 b.clk.t with outs := [(p.outVa, p.size)] }
  let b := b.setRunning c.id
  if gs.self = p.root then
    let b := b.collAct tag c.opcode (do
      let bs ← readVa (c.req 0 0) (p.srcVa % 2 ^ 56) p.size
      writeVa (c.req p.hint p.useCount) p.outVa bs
      if n ≠ 1 then collSet tag (fun x => x.post ((gs.self + 1) % n) 0 bs))
    (b.takePending tag).bcastAdvance tag c p
  else (b.openColl tag [(gs.self + n - 1) % n]).bcastAdvance tag c p

/-- BROADCAST with its group. -/
def Block.bcastGo (c : Cmd) (p : CollParams) (gs : GroupSt) (b : Block) : Block :=
  if gs.ranks.length ≤ p.root then b.finish c.id 0x0100 0 0 else b.bcastRun c p gs

/-- BROADCAST starts. -/
def Block.startBcast (c : Cmd) (p : CollParams) (b : Block) : Block :=
  if badGather p then (b.unhold c.id).finish c.id 0x0100 0 0
  else b.collStart c p.group p.epoch p.bucket false (fun gs b => b.bcastGo c p gs)

/-- BROADCAST (R383). -/
def execBroadcast (id : Nat) (p : CollParams) (s : State) : Host.Outcome State Fault Refusal :=
  s.run (fun b => b.runCmd id (.broadcast p) collReady (fun c b => b.startBcast c p))

/-! ### ALL_TO_ALL_V (R384) -/

/-- ALL_TO_ALL_V goes as far as it can. -/
def Block.a2aAdvance (b : Block) (tag : Nat) (c : Cmd) (p : A2aParams) : Block :=
  match b.coll tag with
  | some x =>
    if b.collRuns x then
      let b := (b.collAct tag c.opcode (a2aStep tag c p)).pump tag
      match b.coll tag with
      | some y =>
        if b.collRuns y && decide (y.outq = []) && y.a2aOver then
          if y.small then b.endColl tag 0x4005 0 y.rx
          else
            match y.refused.min? with
            | some i => b.endColl tag 0x4005 i y.rx
            | none => b.endColl tag y.okStatus 0 (halves (y.recvCounts.foldl (· + ·) 0) (y.sendCounts.foldl (· + ·) 0))
        else b
      | none => b
    else b
  | none => b

/-- The send counts of an ALL_TO_ALL_V among `n` members. -/
def a2aCounts (n : Nat) (bs : List Byte) : List Nat := (List.range n).map (fun i => field bs (8 * i) 8)

/-- ALL_TO_ALL_V with its group, its send counts read: each other member is told its count. -/
def Block.a2aRun (c : Cmd) (p : A2aParams) (gs : GroupSt) (bs : List Byte) (b : Block) : Block :=
  let tag := tagOf p.group p.epoch p.bucket
  let counts := a2aCounts gs.ranks.length bs
  let x := { newColl c tag gs (c.digest gs []) 1 b.clk.t with outs := [(p.recvVa, p.recvBytes), (p.recvCountsVa, 8 * gs.ranks.length)] }
  let x := x.others.foldl (fun x i => x.post i 0 (bytesOf 8 (counts.getD i 0))) { x with own := bs }
  let b := (b.beginColl x).setRunning c.id
  (b.openColl tag x.others).a2aAdvance tag c p

/-- ALL_TO_ALL_V with its group. -/
def Block.a2aGo (c : Cmd) (p : A2aParams) (gs : GroupSt) (b : Block) : Block :=
  let n := gs.ranks.length
  b.withAct c.id 0x4008 (readVa (c.req 0 0) p.sendCountsVa (8 * n)) (fun bs b =>
    if (a2aCounts n bs).any (fun k => decide (67108864 < k)) then b.finish c.id 0x0100 0 0 else b.a2aRun c p gs bs)

/-- ALL_TO_ALL_V starts. -/
def Block.startA2a (c : Cmd) (p : A2aParams) (b : Block) : Block :=
  b.collStart c p.group p.epoch p.bucket false (fun gs b => b.a2aGo c p gs)

/-- ALL_TO_ALL_V (R384). -/
def execAllToAllV (id : Nat) (p : A2aParams) (s : State) : Host.Outcome State Fault Refusal :=
  s.run (fun b => b.runCmd id (.allToAllV p) collReady (fun c b => b.startA2a c p))

/-! ### PERMUTE (R386 to R388) -/

/-- PERMUTE with its group, its move list read: what DRAINED messages came early counts, and the group's moves begin (R386). -/
def Block.permuteRun (c : Cmd) (p : PermuteParams) (gs : GroupSt) (bs : List Byte) (b : Block) : Block :=
  let tag := tagOf p.group p.epoch 0xFFFF
  let mine := b.relay.early.filter (fun x => decide (x.2.1 = p.group) && decide (x.2.2.1 = p.epoch))
  let told := mine.filterMap (fun x => gs.ranks.findIdx? (fun r => decide (r = x.1)))
  let x := newColl c tag gs (c.digest gs (bs.map (·.toNat))) 1 b.clk.t
  let b := b.beginColl { x with own := bs, drained := told
                                small := decide (p.workBytes < stageBytes gs.self (movesOf bs)) || mine.any (fun x => x.2.2.2) }
  let b := { b with relay := { b.relay with early := b.relay.early.filter (fun x => !mine.contains x) } }
  let b := match b.groupSlot p.group with
    | some i => b.rset .RELAY_GROUP_STATE i 1
    | none => b
  (b.setRunning c.id).permuteAdvance tag c p

/-- PERMUTE with its group (R386, R535). -/
def Block.permuteGo (c : Cmd) (p : PermuteParams) (gs : GroupSt) (b : Block) : Block :=
  if p.epoch ≠ (gs.epoch + 1) % 256 then b.finish c.id 0x0100 0 0
  else if b.sbWhere (fun e => e.ofGroup p.group) ≠ [] then b.finish c.id 0x4006 0 0
  else b.withAct c.id 0x4008 (readVa (c.req 0 0) p.movesVa (32 * p.moves)) (fun bs b =>
    if (movesOf bs).any (fun m => m.bad gs.ranks.length) then b.finish c.id 0x0100 0 0 else b.permuteRun c p gs bs)

/-- PERMUTE starts. -/
def Block.startPermute (c : Cmd) (p : PermuteParams) (b : Block) : Block :=
  if p.moves = 0 ∨ 1048576 < p.moves then (b.unhold c.id).finish c.id 0x0100 0 0
  else b.collStart c p.group p.epoch 0xFFFF false (fun gs b => b.permuteGo c p gs)

/-- PERMUTE (R386 to R388). -/
def execPermute (id : Nat) (p : PermuteParams) (s : State) : Host.Outcome State Fault Refusal :=
  s.run (fun b => b.runCmd id (.permute p) collReady (fun c b => b.startPermute c p))

/-! ### BUCKET_CANCEL (R389) -/

/-- A cancel acts on this module (R389): collectives in flight stop, later ones are remembered; how many were stopped. -/
def Block.cancelHere (b : Block) (g e : Nat) (k : Option Nat) : Nat × Block :=
  let hit := b.relay.colls.filter (fun x => decide (tagGroup x.tag = g) && decide (tagEpoch x.tag = e) &&
    (decide (k = none) || decide (k = some (tagBucket x.tag))))
  let live := hit.filter (fun x => b.collRuns x)
  let idle := hit.filter (fun x => decide (x.cmd = none))
  let b := live.foldl (fun b x => b.endColl x.tag 0x4004 0 0) b
  let b := idle.foldl (fun b x => (b.spoil x 0x4004).dropColl x.tag) b
  let passed := match b.group? g with
    | some gs => decide (epochState e gs.epoch = 2)
    | none => false
  let keep := (decide (k = none) || decide (live = [])) && !passed && decide (b.relay.cancels.length < 1024) &&
    !b.relay.cancels.contains (g, e, k)
  let b := if keep then { b with relay := { b.relay with cancels := b.relay.cancels ++ [(g, e, k)] } } else b
  (live.length + idle.length, b.fenceUpdates (fun t => decide (tagGroup t = g) && decide (tagEpoch t = e) &&
    (decide (k = none) || decide (k = some (tagBucket t)))))

/-- A BUCKET_CANCEL acts here, its result stands, and the other members of its group are told (R389, R390): how many collectives
were stopped, and whether every other member is reachable. -/
def Block.cancelTold (b : Block) (c : Cmd) (p : CancelParams) (gs : GroupSt) : Nat × Block × Bool :=
  let r := b.cancelHere p.group p.epoch (if p.allEpoch then none else some p.bucket)
  let others := gs.ranks.filter (fun x => !decide (x = b.rank))
  let b := (r.2.setRunning c.id).updCmd c.id (fun x => { x with result := some ⟨0, 0, halves r.1 0⟩ })
  (r.1, b.tellAll others 1 c.ctx (.cancel p.group p.epoch p.bucket p.allEpoch) (some c.id))

/-- BUCKET_CANCEL at its start: it completes when every other member has acknowledged it. -/
def Block.doCancel (c : Cmd) (p : CancelParams) (b : Block) : Block :=
  match b.groupErr c.ctx p.group, b.group? p.group with
  | some e, _ => b.finish c.id e.1 e.2 0
  | none, none => b
  | none, some gs =>
    if 1024 ≤ b.relay.cancels.length then b.finish c.id 0x4006 0 0
    else
      let others := gs.ranks.filter (fun x => !decide (x = b.rank))
      let r := b.cancelTold c p gs
      if !r.2.2 then r.2.1.finish c.id 0x4003 ((others.find? (fun x => !b.reachable x)).bind (fun x => gs.ranks.findIdx? (fun y => decide (y = x))) |>.getD 0) 0
      else if others = [] then r.2.1.finish c.id 0 0 (halves r.1 0)
      else r.2.1

/-- BUCKET_CANCEL (R389). -/
def execBucketCancel (id : Nat) (p : CancelParams) (s : State) : Host.Outcome State Fault Refusal :=
  s.run (fun b => b.runCmd id (.bucketCancel p) always2 (fun c b => b.doCancel c p))

end Sys2Proof.Machine
end

