-- ==== Sys2Proof/Machine/Farrier.lean ====
section
/-! DEFINITION. The Farrier (chapter 12): shards, UPDATE with its commit and its lagged check, REVERT, FETCH, NORM_REDUCE, the
monitor. -/

namespace Sys2Proof.Machine

/-! ### SHARD_DEFINE (R323, R329, R330) -/

/-- Whether a range is wholly mapped and writable in a context. -/
def Block.mappedFor (b : Block) (ctx va n : Nat) : Bool :=
  decide (va + n ≤ 2 ^ 56) && (List.range ((va + n + 65535) / 65536 - va / 65536)).all (fun i =>
    match b.leafAt ctx ((va / 65536 + i) * 65536) with
    | some (_, lf) => lf.write
    | none => false)

/-- Whether an UPDATE, REVERT or FETCH of a shard is in progress or waits (R329). -/
def Block.shardBusy (b : Block) (c : Cmd) (n : Nat) : Bool :=
  let names := fun (l : List UpdEntry) => l.any (fun e => decide (e.shard = n))
  b.farrier.held.any (fun h => decide (h.ctx = c.ctx) && names h.entries) ||
    b.writingNext c.ctx n ||
    b.farrier.fetches.any (fun f => decide (f.ctx = c.ctx) && decide (f.shard = n)) ||
    (b.cmds.takeWhile (fun (x : Cmd) => !decide (x.id = c.id))).any (fun (x : Cmd) => decide (x.ctx = c.ctx) && decide (x.phase = .waiting) &&
      (match x.params with
       | .revert p => decide (p.shard = n)
       | .fetch p => decide (p.shard = n)
       | _ => false))

end Sys2Proof.Machine

namespace Sys2Proof

open Machine

/-- Whether the fields of an owned shard are out of range (R325, R329). -/
def ShardParams.badOwned (p : ShardParams) : Bool :=
  decide (p.depth = 0 ∨ 4 < p.depth) || decide (p.baseVa % 64 ≠ 0) || decide (1023 < p.tgroup ∧ p.tgroup ≠ 0xFFFF)

/-- Whether the fields that every descriptor uses are out of range. -/
def ShardParams.bad (p : ShardParams) : Bool :=
  decide (16383 < p.shard) || !p.modeOk || decide (1 < p.stateFmt) || decide (p.rule = 0 ∨ p.rule = 6 ∨ 7 < p.rule) ||
    decide (p.elems = 0 ∨ 2 ^ 31 < p.elems)

/-- G of SEED_G (R330). -/
def ShardParams.seedGroup (p : ShardParams) : Nat := if p.seedG = 0 then 128 else if p.seedG = 1 then 64 else 32

end Sys2Proof

namespace Sys2Proof.Machine

/-- The group scales that seed version 0 (R330), from the source's values. -/
def seedsOf (p : ShardParams) (xs : List Nat) : List Nat :=
  (runsOf p.seedGroup (ceilDiv xs.length p.seedGroup) xs).map (fun g => (seedScale (g.map fp32.decode) p.seedFmt p.wfmt).1)

/-- The seeding of a fresh shard. -/
def seedShard (c : Cmd) (s src : Shard) : Act Unit := do
  let k := src.p.valuePart
  let l ← readPart c src src.version k
  let seeds := seedsOf s.p (l.map (toF32 (src.p.part k).1))
  if s.p.mode = 1 then writePart c s 0 1 (seeds.map (toF32 s.p.wfmt))
  writePart c s 0 0 seeds

/-- Whether SEED names a source that does not fit (R330): the status and detail. -/
def Block.seedErr (b : Block) (ctx : Nat) (p : ShardParams) : Option (Nat × Nat) :=
  match b.shard? ctx p.seedSrc with
  | none => some (0x3001, p.seedSrc)
  | some s =>
    if !s.owned then some (0x3002, p.seedSrc)
    else if p.seedG = 3 ∨ p.seedFmt < 3 ∨ 6 < p.seedFmt ∨ p.elems ≠ ceilDiv s.p.elems p.seedGroup then some (0x0100, 0)
    else none

/-- A shard is defined as owned: version 0 in slot 0. -/
def Block.defineOwned (b : Block) (c : Cmd) (p : ShardParams) : Block :=
  let s : Shard := ⟨p, true, 0, 0⟩
  if p.badOwned || !b.mappedFor c.ctx p.baseVa ((p.depth + 1) * p.slotBytes) then b.finish c.id 0x0100 0 0
  else
    match if p.seed then b.seedErr c.ctx p else none with
    | some e => b.finish c.id e.1 e.2 0
    | none =>
      let now := b.now
      b.withAct c.id 0x3008 (do
        match p.seed, b.shard? c.ctx p.seedSrc with
        | true, some src => seedShard c s src
        | _, _ => pure ()
        writeVa (c.req 0 0) (s.slotVa 0) (slotHeader 0 0 now 0 0)) (fun _ b =>
          (b.setShard c.ctx p.shard (some s)).finish c.id 0 0 (p.slotBytes % 2 ^ 64))

/-- SHARD_DEFINE at its start. -/
def Block.doShardDefine (c : Cmd) (p : ShardParams) (b : Block) : Block :=
  if 16383 < p.shard then b.finish c.id 0x0100 0 0
  else if b.shardBusy c p.shard then b.finish c.id 0x3005 0 0
  else if p.undefine then
    match b.shard? c.ctx p.shard with
    | some _ => (b.setShard c.ctx p.shard none).finish c.id 0 0 0
    | none => b.finish c.id 0x3001 p.shard 0
  else if p.bad then b.finish c.id 0x0100 0 0
  else if p.isLocal then b.defineOwned c p
  else
    match b.groupErr c.ctx p.group, b.group? p.group with
    | some e, _ => b.finish c.id e.1 e.2 0
    | none, none => b
    | none, some gs =>
      if gs.ranks.length ≤ p.owner then b.finish c.id 0x0100 0 0
      else if gs.self = p.owner then b.defineOwned c p
      else (b.setShard c.ctx p.shard (some ⟨p, false, 0, 0⟩)).finish c.id 0 0 (p.slotBytes % 2 ^ 64)

/-- SHARD_DEFINE (R323, R325, R326, R329, R330). -/
def execShardDefine (id : Nat) (p : ShardParams) (s : State) : Host.Outcome State Fault Refusal :=
  s.run (fun b => b.runCmd id (.shardDefine p) always2 (fun c b => b.doShardDefine c p))

/-! ### The list of an UPDATE or NORM_REDUCE -/

/-- The entries of a list. -/
def updEntries (bs : List Byte) : List UpdEntry :=
  (List.range (bs.length / 16)).map (fun i => ⟨field bs (16 * i) 2, field bs (16 * i + 2) 1, field bs (16 * i + 8) 8 % 2 ^ 56⟩)

/-- Why a list does not do: the status and detail. `owned` demands ownership (R324). -/
def Block.listErr (b : Block) (ctx : Nat) (owned : Bool) (l : List UpdEntry) : Option (Nat × Nat) :=
  if l.any (fun e => decide (1 < e.fmt)) || (owned && !(l.map (·.shard)).Nodup) then some (0x0100, 0)
  else
    l.findSome? (fun e =>
      match b.shard? ctx e.shard with
      | none => some (0x3001, e.shard)
      | some s => if owned && !s.owned then some (0x3002, e.shard) else none)

/-- The gradient of an entry, as codes of its format. -/
def readGrad (c : Cmd) (s : Shard) (e : UpdEntry) : Act (List Nat) := do
  let bs ← readVa (c.req 0 0) e.va (s.p.elems * (if e.fmt = 1 then 2 else 4))
  return elems e.fmt bs s.p.elems

/-- The shard of an entry, in an action. -/
def shardOf (ctx : Nat) (e : UpdEntry) : Act Shard := do
  match (← get).shard? ctx e.shard with
  | some s => return s
  | none => throw (.fin 0x3001 e.shard)

/-! ### UPDATE (R338 to R343, R348 to R352) -/

/-- The tag that an UPDATE names. -/
def updTag (p : UpdateParams) : Nat := tagOf p.group p.epoch p.bucket

/-- Whether the tag of an UPDATE belongs to a fenced epoch or is cancelled, and has not been delivered (R343). -/
def Block.updFenced (b : Block) (p : UpdateParams) : Bool :=
  p.waitTag && !b.relay.delivered.contains (updTag p) &&
    (b.cancelled (updTag p) || (match b.group? p.group with
      | some gs => decide (epochState p.epoch gs.epoch = 2)
      | none => false))

/-- UPDATE at its dispatch: checked, and held (R342). -/
def Block.doUpdate (c : Cmd) (p : UpdateParams) (b : Block) : Block :=
  if p.count = 0 ∨ 256 < p.count ∨ 2 < p.clip then b.finish c.id 0x0100 0 0
  else
    match if p.waitTag then b.groupErr c.ctx p.group else none with
    | some e => b.finish c.id e.1 e.2 0
    | none =>
      b.withAct c.id 0x3008 (readVa (c.req 0 0) p.listVa (16 * p.count)) (fun bs b =>
        let l := updEntries bs
        match b.listErr c.ctx true l with
        | some e => b.finish c.id e.1 e.2 0
        | none =>
          if b.updFenced p then b.finish c.id 0x0400 0 0
          else
            let b := b.setRunning c.id
            Block.farrierRegs { b with farrier := { b.farrier with held := b.farrier.held ++ [⟨c.id, c.ctx, l, b.clk.t⟩] } })

/-- Whether the Farrier has room to hold a further UPDATE (R342). -/
def Block.holdRoom (_ : Cmd) (b : Block) : Bool := decide (b.farrier.held.length < b.rget .FARRIER_CFG_MAX_WAITING)

/-- UPDATE (R342). -/
def execUpdate (id : Nat) (p : UpdateParams) (s : State) : Host.Outcome State Fault Refusal :=
  s.run (fun b => b.runCmd id (.update p) Block.holdRoom (fun c b => b.doUpdate c p))

/-- The norm of a step that a clip slot holds for a context (R347, R349). -/
def Block.normOf (b : Block) (ctx k step : Nat) : Option Nat :=
  if b.flag .FARRIER_CLIP_CFG_ENABLE k && b.flag .FARRIER_CLIP_CFG_VALID k && decide (b.rget .FARRIER_CLIP_CFG_CTX k = ctx) then
    if b.rget .FARRIER_CLIP_STEP k = step then some (b.rget .FARRIER_CLIP_NORM k)
    else if b.flag .FARRIER_CLIP_CFG_PREV_VALID k && decide (b.rget .FARRIER_CLIP_PREV_STEP k = step) then
      some (b.rget .FARRIER_CLIP_PREV_NORM k)
    else none
  else none

/-- Whether an UPDATE's clip condition holds (R349): the norm, if the mode needs one, and whether it is that of step t − 1. -/
def Block.clipNorm (b : Block) (ctx : Nat) (p : UpdateParams) : Option (Option Nat × Bool) :=
  if p.clip = 0 then some (none, false)
  else
    match b.normOf ctx p.clipSlot p.cstep with
    | some n => some (some n, false)
    | none =>
      if p.clip = 2 then (b.normOf ctx p.clipSlot ((p.cstep + 2 ^ 32 - 1) % 2 ^ 32)).map (fun n => (some n, true)) else none

/-- Whether FP32 code `x` is at most `y`. -/
def leF32 (x y : Nat) : Bool := FVal.lt (fp32.decode x) (fp32.decode y) || FVal.eq (fp32.decode x) (fp32.decode y)

/-- The clip factor of a norm (R348). -/
def Block.clipFactor (b : Block) (k n : Nat) : Nat :=
  let th := b.rget .FARRIER_CLIP_CFG_THRESH k
  if leF32 n th then oneF32 else divF32 th n

/-- Whether FP32 code `x` is a NaN or an infinity. -/
def specialF32 (x : Nat) : Bool := (fp32.decode x).isSpecial

/-- Whether a slot that a shard's next version takes is held (R341, R346). -/
def Block.slotHeld (b : Block) (ctx n : Nat) (s : Shard) : Bool :=
  b.farrier.holds.any (fun h => decide (h.ctx = ctx) && decide (h.shard = n) &&
    decide (h.version % 2 ^ 32 = (s.version + 2 ^ 32 - s.p.depth) % 2 ^ 32))

/-- Whether an earlier UPDATE or REVERT that names one of the shards has neither committed nor completed (R341). -/
def Block.earlierUses (b : Block) (id ctx : Nat) (l : List Nat) : Bool :=
  (b.cmds.takeWhile (fun (x : Cmd) => !decide (x.id = id))).any (fun (x : Cmd) => decide (x.ctx = ctx) && decide (x.phase ≠ .done) &&
    (match x.params with
     | .update _ =>
       decide (x.phase = .waiting) ||
         (b.farrier.held.any (fun h => decide (h.cmd = x.id) && h.entries.any (fun e => l.contains e.shard)) ||
          b.farrier.lagged.any (fun h => decide (h.cmd = x.id) && h.entries.any (fun e => l.contains e.shard)))
     | .revert p => l.contains p.shard
     | _ => false))

/-- Whether fewer than 16 UPDATE and REVERT commands run (R341). -/
def Block.farrierRoom (b : Block) : Bool := decide ((b.farrierRegs).rget .FARRIER_STATUS_RUNNING < 16)

/-- Whether a held UPDATE may start (R341). -/
def Block.updReady (b : Block) (h : HeldUpdate) : Bool :=
  match b.findCmd h.cmd with
  | some c =>
    match c.params with
    | .update p =>
      (!p.waitTag || b.relay.delivered.contains (updTag p)) &&
        !b.earlierUses h.cmd h.ctx (h.entries.map (·.shard)) &&
        h.entries.all (fun e => match b.shard? h.ctx e.shard with
          | some s => !b.slotHeld h.ctx e.shard s
          | none => true) &&
        (b.clipNorm h.ctx p).isSome && b.farrierRoom
    | _ => false
  | none => false

/-- The held UPDATE that starts now: the earliest whose conditions hold (R342). -/
def Block.nextUpdate (b : Block) : Option HeldUpdate := b.farrier.held.find? (fun h => b.updReady h)

/-- One shard of an UPDATE: its next slot is written, all but its header (R335 to R338, R352). It answers the
conversions counted and the sums of the monitor (R353). -/
def updShard (c : Cmd) (p : UpdateParams) (factor : Nat) (hypers : List (Nat × List Byte)) (e : UpdEntry) : Act Written := do
  let s ← shardOf c.ctx e
  let q := s.p
  let v := s.version
  let kw := q.valuePart
  let hb ← match hypers.find? (fun x => decide (x.1 = e.shard)) with
    | some x => pure x.2
    | none => readVa (c.req 0 0) q.hyperVa 64
  let graw ← readGrad c s e
  let wraw ← readPart c s v kw
  let n := ruleStates q.rule
  let m ← if 1 ≤ n then readPart c s v 2 else pure []
  let u ← if 2 ≤ n then readPart c s v 3 else pure []
  let h := hyperOf hb
  let w := wraw.map (toF32 (q.part kw).1)
  let g := graw.map (toF32 e.fmt)
  let o := applyRule q.rule h (ruleConsts h factor (s.step + 1)) q.stateFmt (if q.trustElems = 0 then q.elems else q.trustElems) w g
    (m.map (stVal q.stateFmt)) (u.map (stVal q.stateFmt)) 0
  if p.forbidSpecial && (g.any specialF32 || (decide (q.mode ≠ 2) && o.w.any specialF32)) then throw (.fin 0x0600 0)
  let b ← get
  let work : List Cvt := match q.mode with
    | 0 => o.w.map (fun x => { code := x })
    | 1 => o.w.map (cvtCode 0 q.wfmt .rne true)
    | _ => o.w.mapIdx (fun i x => cvtCode 0 1 (.sr (Config.srBits (b.free.draws + i)).toNat) true x)
  if q.mode = 2 then act (fun b => { b with free := { b.free with draws := b.free.draws + o.w.length } })
  let nx := s.next
  if 1 ≤ n then writePart c s nx 2 (o.s1.map (·.code))
  if 2 ≤ n then writePart c s nx 3 (o.s2.map (·.code))
  if q.mode = 1 then writePart c s nx 1 o.w
  writePart c s nx 0 (work.map (·.code))
  let new := if q.mode = 2 then work.map (fun x => toF32 1 x.code) else o.w
  let k := cvtCounts (o.s1 ++ o.s2 ++ work)
  return ⟨k.1, k.2, [(e.shard, sumsq (List.zipWith subF32 new w), sumsq w)], [(e.shard, hb)]⟩

/-- Every shard of an UPDATE, in list order; a re-run has the hyperparameter blocks of the first run. -/
def updAll (c : Cmd) (p : UpdateParams) (factor : Nat) (hypers : List (Nat × List Byte)) (l : List UpdEntry) : Act Written :=
  l.foldlM (fun (a : Written) e => do
    let r ← updShard c p factor hypers e
    return ⟨a.sat + r.sat, a.ufl + r.ufl, a.mon ++ r.mon, a.hypers ++ r.hypers⟩) ⟨0, 0, [], []⟩

/-! ### The monitor (R353, R354) -/

/-- A commit of a shard of a monitor group; `part` its sums if its UPDATE monitors. -/
def Block.monCommit (b : Block) (ctx n : Nat) (s : Shard) (part : Option (Nat × Nat)) : Block :=
  if s.p.tgroup = 0xFFFF then b
  else
    let same := fun (a : MonAcc) => decide (a.ctx = ctx) && decide (a.tgroup = s.p.tgroup)
    let old := b.farrier.mon.find? same
    let lost := match old with
      | some a => decide (a.step ≠ s.step)
      | none => false
    let b := b.count .FARRIER_MON_LOST_COUNT 0 (b2n lost)
    let rest := b.farrier.mon.filter (fun a => !same a)
    let acc : Option MonAcc := match part, (if lost then none else old) with
      | some d, some a => some { a with parts := a.parts ++ [(n, d.1, d.2)] }
      | some d, none => some ⟨ctx, s.p.tgroup, s.step, [(n, d.1, d.2)]⟩
      | none, a => a
    { b with farrier := { b.farrier with mon := rest ++ acc.toList } }

/-- The parts of an accumulation in ascending shard number. -/
def insertPart (x : Nat × Nat × Nat) : List (Nat × Nat × Nat) → List (Nat × Nat × Nat)
  | [] => [x]
  | y :: ys => if x.1 ≤ y.1 then x :: y :: ys else y :: insertPart x ys

/-- A number placed before the first that is not smaller. -/
def insertNat (x : Nat) : List Nat → List Nat
  | [] => [x]
  | y :: ys => if x ≤ y then x :: y :: ys else y :: insertNat x ys

/-- The ratio of a closed group (R353), in FP32. -/
def MonAcc.ratio (a : MonAcc) : Nat :=
  let l := a.parts.foldr insertPart []
  let d := l.foldl (fun s x => addF32 s x.2.1) 0
  let w := l.foldl (fun s x => addF32 s x.2.2) 0
  if (fp32.decode w).isZero then (if (fp32.decode d).isZero then 0 else 0x7F800000) else divF32 (sqrtF32 d) (sqrtF32 w)

/-- Whether every owned shard of a group has committed the accumulation's step. -/
def Block.monClosed (b : Block) (a : MonAcc) : Bool :=
  (b.shardsOf a.ctx).all (fun s => !s.2.owned || decide (s.2.p.tgroup ≠ a.tgroup) || decide (s.2.step = a.step))

/-- A closed group leaves, with its event if the ratio is outside the band (R354). -/
def Block.monClose (b : Block) (a : MonAcc) : Block × Option (Nat × Nat) :=
  let b := { b with farrier := { b.farrier with mon := b.farrier.mon.filter (fun x => !decide (x = a)) } }
  let r := a.ratio
  let lo := b.rget .FARRIER_MON_BAND_LO a.ctx
  let hi := b.rget .FARRIER_MON_BAND_HI a.ctx
  let v := fp32.decode r
  if v.isNan || FVal.lt v (fp32.decode lo) || FVal.lt (fp32.decode hi) v then
    let i := b.farrier.monNext % 64
    let b := ((b.rset .FARRIER_MON_LOG_TGROUP i a.tgroup).rset .FARRIER_MON_LOG_CTX i a.ctx).rset .FARRIER_MON_LOG_VALID i 1
    let b := (b.rset .FARRIER_MON_LOG_STEP i a.step).rset .FARRIER_MON_LOG_RATIO i r
    let b := (b.rset .FARRIER_MON_LOG_TIME_MS i (b.now / 1000000)).count .FARRIER_MON_EVENTS_COUNT 0 1
    ({ b with farrier := { b.farrier with monNext := (i + 1) % 64 } }, some (a.tgroup, r))
  else (b, none)

/-- The monitor after a commit of the listed shards; the event of the lowest group. -/
def Block.monAfter (b : Block) (ctx : Nat) (ns : List Nat) (parts : List (Nat × Nat × Nat)) : Block × Option (Nat × Nat) :=
  let b := ns.foldl (fun b n =>
    match b.shard? ctx n with
    | some s => b.monCommit ctx n s ((parts.find? (fun x => decide (x.1 = n))).map (fun x => x.2))
    | none => b) b
  let groups := (List.range 1024).filter (fun t => b.farrier.mon.any (fun a => decide (a.ctx = ctx) && decide (a.tgroup = t)))
  groups.foldl (fun r t =>
    match r.1.farrier.mon.find? (fun a => decide (a.ctx = ctx) && decide (a.tgroup = t)) with
    | some a =>
      if r.1.monClosed a then
        let z := r.1.monClose a
        (z.1, match r.2 with
          | some e => some e
          | none => z.2)
      else r
    | none => r) (b, none)

/-! ### Commits (R338) -/

/-- The listed shards advance: version and STEP. -/
def Block.advanceShards (b : Block) (ctx : Nat) (ns : List Nat) : Block :=
  ns.foldl (fun b n =>
    match b.shard? ctx n with
    | some s => b.setShard ctx n (some { s with version := s.next, step := (s.step + 1) % 2 ^ 32 })
    | none => b) b

/-- Parts of a version as FETCH copies them: working copy, master, S1, S2, each padded (R344). -/
def fetchBytes (q : Req) (s : Shard) (v parts : Nat) : Act (List Byte) := do
  let l ← (setPositions 4 parts).mapM (fun k => readVa q (s.slotVa v + s.p.partAt k) (s.p.part k).2)
  return l.flatten

/-- A FETCH of this module copies a version it owns (R344, R345). -/
def Block.fetchHere (b : Block) (c : Cmd) (p : FetchParams) (s : Shard) (v : Nat) : Block :=
  b.concludeVa c.id 0x3008 (do
    let bs ← fetchBytes (c.req 0 0) s v p.parts
    writeVa (c.req p.hint p.useCount) p.destVa bs
    act (fun b => b.count .FARRIER_FETCHES_COUNT 0 1)
    return (0, 0, halves v (bs.length / 64)))

/-- The answer to another rank's FETCH: status, version and parts, as a stream of leg 0 that leaves as credit allows. -/
def Block.fetchSend (b : Block) (rank tag ctx status version : Nat) (bs : List Byte) : Block :=
  let x := Coll.init tag ctx 0x0303 none [b.rank, rank] 0 0 0 b.clk.t
  let b := (b.beginColl (x.post 1 0 (bytesOf 2 status ++ bytesOf 4 version ++ bs))).takePending tag
  let b := b.pump tag
  match b.coll tag with
  | some y => if y.outq = [] then b.dropColl tag else b
  | none => b

/-- A version of this module's shard is served to another rank. -/
def Block.fetchServe (b : Block) (rank tag ctx parts : Nat) (s : Shard) (v : Nat) : Block :=
  let q : Req := ⟨⟨0x053, ctx, none, none⟩, 0, 0, 10⟩
  match (fetchBytes q s v parts) b with
  | (.ok bs, b) => (b.count .FARRIER_FETCHES_COUNT 0 1).fetchSend rank tag ctx 0 v bs
  | (.error x, b) => b.fetchSend rank tag ctx (x.status (0x3008, 0)).1 v []

/-- The FETCHes that wait for a version now committed start in the tick of the commit (R345, R358). -/
def Block.serveFetches (b : Block) (ctx : Nat) (ns : List Nat) : Block :=
  b.farrier.fetches.foldl (fun b f =>
    match b.shard? ctx f.shard with
    | some s =>
      if f.ctx = ctx ∧ ns.contains f.shard ∧ b.retained ctx f.shard s f.version then
        let b := { b with farrier := { b.farrier with fetches := b.farrier.fetches.filter (fun x => !decide (x = f)) } }
        match f.cmd.bind b.findCmd with
        | some c =>
          match c.params with
          | .fetch p => b.fetchHere c p s f.version
          | _ => b
        | none => b.fetchServe f.rank f.tag ctx f.parts s f.version
      else b
    | none => b) b

/-- A re-run of a chunk (R356). -/
def Block.chunkRerun (b : Block) (c : Cmd) : Block :=
  let b := (b.count .FARRIER_DETECT_COUNT 0 1).count .FARRIER_CHUNK_RERUNS_COUNT 0 1
  (b.absorbed { source := 0x053, cls := 0x04, outcome := 0, status := 0x0002, ctx := c.ctx, cmd := some (c.ring, c.seq) }).updCmd
    c.id (fun x => { x with det := true })

/-- A second detection in a chunk (R357). -/
def Block.chunkFails (b : Block) (c : Cmd) : Block :=
  let b := (b.count .FARRIER_DETECT_COUNT 0 2).count .FARRIER_CHUNK_RERUNS_COUNT 0 1
  (b.errLog { source := 0x053, cls := 0x04, outcome := 1, status := 0x3007, ctx := c.ctx, cmd := some (c.ring, c.seq) }).finish
    c.id 0x3007 0 0

/-- An UPDATE commits (R338, R327, R353, R354): headers, versions, counts, its record. -/
def Block.updCommit (b : Block) (c : Cmd) (p : UpdateParams) (l : List UpdEntry) (factor : Nat) (done : Written) (rerun : Bool) : Block :=
  let ns := l.map (·.shard)
  let parts := if p.monitor then done.mon else []
  let ev := ((b.advanceShards c.ctx ns).monAfter c.ctx (ns.foldr insertNat []) parts).2
  let flags := b2n rerun + 2 * b2n ev.isSome
  let now := b.now
  b.withAct c.id 0x3008 (l.forM (fun e => do
      let s ← shardOf c.ctx e
      writeVa (c.req 0 0) (s.slotVa s.next) (slotHeader s.next ((s.step + 1) % 2 ^ 32) now factor flags))) (fun _ b =>
    let b := ((b.advanceShards c.ctx ns).monAfter c.ctx (ns.foldr insertNat []) parts).1
    let n := l.foldl (fun k e => k + (match b.shard? c.ctx e.shard with
      | some s => s.p.elems
      | none => 0)) 0
    let b := (b.count .FARRIER_COMMITS_COUNT 0 1).count .FARRIER_ELEMENTS_COUNT 0 n
    let b := (b.addEffect c.id (.count .FARRIER_CVT_SAT_COUNT 0 done.sat)).addEffect c.id (.count .FARRIER_CVT_UFL_COUNT 0 done.ufl)
    let d := flags + 16 * (ev.getD (0, 0)).1
    (b.finish c.id 0 d (halves factor (ev.getD (0, 0)).2)).serveFetches c.ctx ns)

/-- An UPDATE computes with a factor (R335 to R339, R356, R357): `det` is 0 without a detection, 1 with one in a chunk, 2 with a
second in the same chunk. `k` goes on when every slot is written; `hypers` are the blocks that a first run has read. -/
def Block.updRun (b : Block) (c : Cmd) (p : UpdateParams) (l : List UpdEntry) (factor det : Nat) (k : Written → Block → Block)
    (hypers : List (Nat × List Byte) := []) : Block :=
  b.withAct c.id 0x3008 (updAll c p factor hypers l) (fun w b =>
    if det = 0 then k w b
    else if det = 1 then k w (b.chunkRerun c)
    else b.chunkFails c)

/-- A held UPDATE starts (R341, R342, R349, R352). -/
def Block.startUpdate (b : Block) (h : HeldUpdate) (det : Nat) : Block :=
  match b.findCmd h.cmd with
  | some c =>
    match c.params with
    | .update p =>
      let f := b.farrier
      let b := Block.farrierRegs { b with farrier := { f with held := f.held.filter (fun x => !decide (x.cmd = h.cmd)) } }
      let b := b.updCmd c.id (fun x => { x with startT := b.clk.t })
      match b.clipNorm c.ctx p with
      | some (some n, lag) =>
        if specialF32 n then b.finish c.id 0x0600 0 0
        else
          let factor := b.clipFactor p.clipSlot n
          b.updRun c p h.entries factor det (fun w b =>
            if lag then { b with farrier := { b.farrier with lagged := b.farrier.lagged ++ [⟨c.id, c.ctx, h.entries, factor, w, b.clk.t⟩] } }
            else b.updCommit c p h.entries factor w false)
      | some (none, _) => b.updRun c p h.entries oneF32 det (fun w b => b.updCommit c p h.entries oneF32 w false)
      | none => b
    | _ => b
  | none => b

/-- The Farrier starts a held UPDATE (R341, R342). -/
def execUpdateStart (id : Nat) (det : Fin 3) (s : State) : Host.Outcome State Fault Refusal :=
  s.run (fun b =>
    match b.nextUpdate with
    | some h => if h.cmd = id && b.mayStart then b.startUpdate h det else b
    | none => b)

/-- The clip slot's limit for a lagged commit (R350). -/
def Block.lagLimit (b : Block) (k : Nat) : Nat :=
  mulF32 (b.rget .FARRIER_CLIP_CFG_THRESH k) (addF32 oneF32 (b.rget .FARRIER_CLIP_CFG_TOL k))

/-- A lagged commit's check (R350, R352). -/
def Block.lagCheck (b : Block) (g : Lagged) (det : Nat) : Block :=
  match b.findCmd g.cmd with
  | some c =>
    match c.params with
    | .update p =>
      match b.normOf c.ctx p.clipSlot p.cstep with
      | some n =>
        let b := { b with farrier := { b.farrier with lagged := b.farrier.lagged.filter (fun x => !decide (x.cmd = g.cmd)) } }
        if leF32 n (b.lagLimit p.clipSlot) then b.updCommit c p g.entries g.factor g.done false
        else if specialF32 n then b.finish c.id 0x0600 0 0
        else
          let factor := b.clipFactor p.clipSlot n
          (b.count .FARRIER_LAGGED_RERUNS_COUNT 0 1).updRun c p g.entries factor det (fun w b =>
            b.updCommit c p g.entries factor { w with sat := w.sat + g.done.sat, ufl := w.ufl + g.done.ufl } true) g.done.hypers
      | none => b
    | _ => b
  | none => b

/-- A lagged commit compares the new norm with its limit (R350). -/
def execLaggedPostcheck (id : Nat) (det : Fin 3) (s : State) : Host.Outcome State Fault Refusal :=
  s.run (fun b =>
    match b.farrier.lagged.find? (fun g => decide (g.cmd = id)) with
    | some g => if b.mayStart then b.lagCheck g det else b
    | none => b)

/-- Whether an UPDATE waits on its clip slot, and since when (R352). -/
def Block.clipWait (b : Block) (id : Nat) : Option Nat :=
  match b.findCmd id with
  | some c =>
    match c.params with
    | .update p =>
      match b.farrier.held.find? (fun h => decide (h.cmd = id)), b.farrier.lagged.find? (fun h => decide (h.cmd = id)) with
      | some h, _ => if (b.clipNorm c.ctx p).isNone then some h.since else none
      | none, some g => if (b.normOf c.ctx p.clipSlot p.cstep).isNone then some g.since else none
      | none, none => none
    | _ => none
  | none => none

/-- An UPDATE has waited on its clip slot for CLIP_TIMEOUT_MS (R352). -/
def execClipTimeout (id : Nat) (s : State) : Host.Outcome State Fault Refusal :=
  s.run (fun b =>
    match b.clipWait id with
    | some t =>
      let b := b.advanceTo (t + b.rget .FARRIER_CFG_CLIP_TIMEOUT_MS * msec)
      let f := b.farrier
      let b := { b with farrier := { f with held := f.held.filter (fun h => !decide (h.cmd = id))
                                            lagged := f.lagged.filter (fun h => !decide (h.cmd = id)) } }
      b.farrierRegs.finish id 0x3006 0 0
    | none => b)

/-! ### REVERT (R340) -/

/-- Whether a REVERT may start (R341). -/
def Block.revertReady (p : RevertParams) (c : Cmd) (b : Block) : Bool :=
  !b.earlierUses c.id c.ctx [p.shard] && b.farrierRoom &&
    (match b.shard? c.ctx p.shard with
     | some s => !b.slotHeld c.ctx p.shard s
     | none => true)

/-- REVERT's copy: the parts of version `v`, then the header with the new version (R340). -/
def revertCopy (c : Cmd) (s : Shard) (v now : Nat) : Act Nat := do
  let q := c.req 0 0
  let body ← readVa q (s.slotVa v + 64) (s.p.slotBytes - 64)
  let h ← readVa q (s.slotVa v) 64
  writeVa q (s.slotVa s.next + 64) body
  let step := field h 4 4
  writeVa q (s.slotVa s.next) (bytesOf 4 s.next ++ bytesOf 4 step ++ bytesOf 8 now ++ h.drop 16)
  return step

/-- REVERT at its start. -/
def Block.doRevert (c : Cmd) (p : RevertParams) (det : Nat) (b : Block) : Block :=
  match b.shard? c.ctx p.shard with
  | none => b.finish c.id 0x3001 p.shard 0
  | some s =>
    if !s.owned then b.finish c.id 0x3002 p.shard 0
    else if s.p.depth ≤ (s.version + 2 ^ 32 - p.version % 2 ^ 32) % 2 ^ 32 then b.finish c.id 0x3003 0 0
    else
      let now := b.now
      b.withAct c.id 0x3008 (revertCopy c s p.version now) (fun step b =>
        if det = 2 then b.chunkFails c
        else
          let b := if det = 1 then b.chunkRerun c else b
          let b := b.setShard c.ctx p.shard (some { s with version := s.next, step := step })
          let b := ((b.monAfter c.ctx [p.shard] []).1).count .FARRIER_COMMITS_COUNT 0 1
          (b.finish c.id 0 0 (halves s.next p.version)).serveFetches c.ctx [p.shard])

/-- REVERT (R340). -/
def execRevert (id : Nat) (p : RevertParams) (det : Fin 3) (s : State) : Host.Outcome State Fault Refusal :=
  s.run (fun b => b.runCmd id (.revert p) (Block.revertReady p) (fun c b => b.doRevert c p det))

/-! ### FETCH (R344, R345) -/

/-- Whether PARTS names a part that the shard lacks (R535), or none. -/
def Shard.badParts (s : Shard) (parts : Nat) : Bool :=
  decide (parts % 16 = 0) || (setPositions 4 parts).any (fun k => decide ((s.p.part k).2 = 0))

/-- A FETCH of a shard that this module owns. -/
def Block.fetchLocal (c : Cmd) (p : FetchParams) (s : Shard) (b : Block) : Block :=
  let v := s.named p.version
  if b.retained c.ctx p.shard s v then b.fetchHere c p s v
  else if p.wait && precedes 32 s.version v then
    let w : FetchWait := ⟨some c.id, 0, 0, c.ctx, p.shard, p.parts, v⟩
    { (b.setRunning c.id) with farrier := { b.farrier with fetches := b.farrier.fetches ++ [w] } }
  else b.finish c.id 0x3003 0 0

/-- The stream of a FETCH that has arrived from the owner ends the command. -/
def Block.fetchAdvance (b : Block) (tag : Nat) (c : Cmd) (p : FetchParams) (owner : Nat) : Block :=
  match b.coll tag with
  | some x =>
    if b.collRuns x && x.got 0 owner then
      let bs := x.stream 0 owner
      let st := field bs 0 2
      if st ≠ 0 then b.endColl tag st (if st = 0x3001 ∨ st = 0x3002 then p.shard else 0) 0
      else
        let b := b.collAct tag c.opcode (writeVa (c.req p.hint p.useCount) p.destVa (bs.drop 6))
        b.endColl tag x.okStatus 0 (halves (field bs 2 4) ((bs.length - 6) / 64))
    else b
  | none => b

/-- A FETCH of a shard that another member owns: a request through the Relay. -/
def Block.fetchRemote (c : Cmd) (p : FetchParams) (s : Shard) (b : Block) : Block :=
  match b.groupErr c.ctx s.p.group, b.group? s.p.group with
  | some e, _ => (b.unhold c.id).finish c.id e.1 e.2 0
  | none, none => b
  | none, some gs =>
    if !b.collRoom c.ctx || (!b.isHeld c.id && b.roomHeld c.ctx c.id) then b.holdColl c.id false
    else
      let tag := fetchTag b.rank c.id
      let b := b.unhold c.id
      let n := ((setPositions 4 p.parts).map (fun k => (s.p.part k).2)).foldl (· + ·) 0
      let x := { newColl c tag gs (c.digest gs [p.shard, p.parts, p.version]) 1 b.clk.t with outs := [(p.destVa, n)] }
      let b := (b.beginColl x).setRunning c.id
      let r := b.sendMsg (gs.ranks.getD s.p.owner 0) 4 c.ctx (.fetchRequest tag p.shard p.parts p.version p.wait) none
      if r.2 then r.1.openColl tag [s.p.owner] else r.1.endColl tag 0x4003 s.p.owner 0

/-- FETCH at its start. -/
def Block.startFetch (c : Cmd) (p : FetchParams) (b : Block) : Block :=
  match b.shard? c.ctx p.shard with
  | none => (b.unhold c.id).finish c.id 0x3001 p.shard 0
  | some s =>
    if s.badParts p.parts || (decide (p.hint = 3) && decide (p.useCount = 0)) then (b.unhold c.id).finish c.id 0x0100 0 0
    else if s.owned then b.fetchLocal c p s
    else b.fetchRemote c p s

/-- Whether a FETCH may start: one from an owner takes its turn among the collectives (R366). -/
def Block.fetchReady (p : FetchParams) (c : Cmd) (b : Block) : Bool :=
  match b.shard? c.ctx p.shard with
  | some s => s.owned || collReady c b
  | none => true

/-- FETCH (R344, R345). -/
def execFetch (id : Nat) (p : FetchParams) (s : State) : Host.Outcome State Fault Refusal :=
  s.run (fun b => b.runCmd id (.fetch p) (Block.fetchReady p) (fun c b => b.startFetch c p))

/-- A FETCH that waits reaches TIMEOUT_US (R345). -/
def execFetchTimeout (id : Nat) (s : State) : Host.Outcome State Fault Refusal :=
  s.run (fun b =>
    match b.findCmd id with
    | some c =>
      match c.params with
      | .fetch p =>
        if c.phase = .running ∧ p.wait then
          let b := b.advanceTo (c.startT + p.timeoutUs * usec)
          let f := b.farrier
          let b := { b with farrier := { f with fetches := f.fetches.filter (fun x => !decide (x.cmd = some id)) } }
          b.finish id 0x3004 0 0
        else b
      | _ => b
    | none => b)

/-- A FETCH's request reaches the owner (R344, R345): the rank that asks, and what it asks. -/
def Block.fetchAsked (b : Block) (src ctx tag shard parts version : Nat) (wait : Bool) : Block :=
  match b.shard? ctx shard with
  | none => b.fetchSend src tag ctx 0x3001 0 []
  | some s =>
    if !s.owned then b.fetchSend src tag ctx 0x3002 0 []
    else if s.badParts parts then b.fetchSend src tag ctx 0x0100 0 []
    else
      let v := s.named version
      if b.retained ctx shard s v then b.fetchServe src tag ctx parts s v
      else if wait && precedes 32 s.version v then
        { b with farrier := { b.farrier with fetches := b.farrier.fetches ++ [⟨none, src, tag, ctx, shard, parts, v⟩] } }
      else b.fetchSend src tag ctx 0x3003 0 []

/-- A non-owner's FETCH request arrives (R344). -/
def execFetchRequest (src ctx tag shard parts version : Nat) (wait : Bool) (s : State) : Host.Outcome State Fault Refusal :=
  s.run (fun b => if b.net.silent then b else b.fetchAsked src ctx tag shard parts version wait)

/-! ### NORM_REDUCE (R347) -/

/-- This member's local sum (R347). -/
def normLocal (c : Cmd) (l : List UpdEntry) : Act Nat :=
  l.foldlM (fun (a : Nat) e => do
    let s ← shardOf c.ctx e
    let g ← readGrad c s e
    return addF32 a (sumsq (g.map (toF32 e.fmt)))) 0

/-- NORM_REDUCE goes as far as it can: member 0 adds the sums and answers with the norm. -/
def Block.normAdvance (b : Block) (tag : Nat) : Block :=
  match b.coll tag with
  | some x =>
    if !b.collRuns x then b
    else
      let mine := field x.own 0 4
      let part := fun (i : Nat) => if i = x.self then mine else field (x.stream 0 i) 0 4
      let b :=
        if x.phase = 0 ∧ x.self = 0 ∧ x.gotAll 0 then
          let n := sqrtF32 ((List.range x.ranks.length).foldl (fun s i => addF32 s (part i)) 0)
          (b.setColl (x.others.foldl (fun y i => y.post i 1 (bytesOf 4 n)) { x with phase := 1, own := bytesOf 4 mine ++ bytesOf 4 n })).pump tag
        else if x.phase = 0 ∧ x.self ≠ 0 ∧ x.got 1 0 then
          b.setColl { x with phase := 1, own := bytesOf 4 mine ++ bytesOf 4 (field (x.stream 1 0) 0 4) }
        else b
      match b.coll tag with
      | some y =>
        if y.phase = 1 ∧ y.outq = [] then b.endColl tag y.okStatus 0 (halves (field y.own 4 4) mine) else b
      | none => b
  | none => b

/-- NORM_REDUCE with its group and list. -/
def Block.normGo (c : Cmd) (p : UpdateParams) (gs : GroupSt) (b : Block) : Block :=
  let tag := updTag p
  b.withAct c.id 0x3008 (readVa (c.req 0 0) p.listVa (16 * p.count)) (fun bs b =>
    let l := updEntries bs
    match b.listErr c.ctx false l with
    | some e => b.finish c.id e.1 e.2 0
    | none =>
      b.withAct c.id 0x3008 (normLocal c l) (fun sum b =>
        let x := newColl c tag gs (c.digest gs [p.cstep]) 1 b.clk.t
        let x := { x with own := bytesOf 4 sum }
        let x := if gs.self = 0 then x else x.post 0 0 (bytesOf 4 sum)
        let b := (b.beginColl x).setRunning c.id
        (b.openColl tag (if gs.self = 0 then x.others else [0])).normAdvance tag))

/-- NORM_REDUCE starts: its clip slot must be one that its context may use. -/
def Block.startNorm (c : Cmd) (p : UpdateParams) (b : Block) : Block :=
  if p.count = 0 ∨ 256 < p.count ∨ !b.flag .FARRIER_CLIP_CFG_ENABLE p.clipSlot ∨ b.rget .FARRIER_CLIP_CFG_CTX p.clipSlot ≠ c.ctx then
    (b.unhold c.id).finish c.id 0x0100 0 0
  else b.collStart c p.group p.epoch p.bucket false (fun gs b => b.normGo c p gs)

/-- NORM_REDUCE (R347). -/
def execNormReduce (id : Nat) (p : UpdateParams) (s : State) : Host.Outcome State Fault Refusal :=
  s.run (fun b => b.runCmd id (.normReduce p) collReady (fun c b => b.startNorm c p))

end Sys2Proof.Machine
end

