-- ==== Sys2Proof/Machine/BeaterBase.lean ====
section
/-! DEFINITION. The Beater's shared part (chapter 10): tables and records (R271 to R274), lists and keys (R275, R276, R285), where
a key is read (R277, R308), the order of the class 0x02 commands (R293, R313). -/

namespace Sys2Proof

open Machine

/-- The bytes of the weights and the INT8 scale: A (R272). -/
def TableParams.wBytes (p : TableParams) : Nat := ceilDiv (p.width * (fmtBits p.fmt / 8)) 4 * 4

/-- A (R272). -/
def TableParams.look (p : TableParams) : Nat := up64 (p.wBytes + (if p.fmt = 5 then 4 else 0))

/-- The bytes of a state element. -/
def TableParams.eS (p : TableParams) : Nat := if p.stateFmt = 1 then 2 else 4

/-- Where the FP32 master begins. -/
def TableParams.masterAt (p : TableParams) : Nat := p.look + (if ruleWords p.rule then 8 else 0)

/-- Where S1 begins. -/
def TableParams.s1At (p : TableParams) : Nat := p.masterAt + (if p.master then 4 * p.width else 0)

/-- RB (R272). -/
def TableParams.recBytes (p : TableParams) : Nat :=
  p.look + up64 ((p.s1At - p.look) + ruleStates p.rule * p.width * p.eS)

/-- The owner and local index of a row among `n` members; this module is member `self` (R271). -/
def TableParams.owner_ (p : TableParams) (n self r : Nat) : Nat × Nat :=
  match p.shard with
  | 0 => (self, r)
  | 1 => (r % n, r / n)
  | 2 => let b := ceilDiv p.rows n; (r / b, r - r / b * b)
  | _ => (p.owner, r)

/-- How many rows R271 assigns to member `self` of `n`. -/
def TableParams.ownRows (p : TableParams) (n self : Nat) : Nat :=
  match p.shard with
  | 0 => p.rows
  | 1 => (p.rows + n - 1 - self) / n
  | 2 => let b := ceilDiv p.rows n; min p.rows ((self + 1) * b) - min p.rows (self * b)
  | _ => if self = p.owner then p.rows else 0

/-- Whether the fields are out of range (R274). -/
def TableParams.bad (p : TableParams) : Bool :=
  decide (5 < p.fmt) || decide (1 < p.stateFmt) || decide (p.width < 4 ∨ 1024 < p.width) || decide (7 < p.rule) ||
    decide (p.rows = 0 ∨ 2 ^ 40 < p.rows) || decide (3 < p.shard) || (p.master && decide (p.fmt = 0)) || decide (p.baseVa % 64 ≠ 0)

end Sys2Proof

namespace Sys2Proof.Machine

/-- An action that is tried: its error is an answer. -/
def attempt {α : Type} (m : Act α) : Act (Except AccErr α) := fun b => let r := m b; (.ok r.1, r.2)

/-- Table `n` of a context, if it is defined. -/
def Block.table? (b : Block) (ctx n : Nat) : Option TableParams := Sparse.get (always none) b.beater.tables (ctx * 4096 + n)

/-- A table's descriptor set or removed, with BEATER_TABLES. -/
def Block.setTable (b : Block) (ctx n : Nat) (x : Option TableParams) : Block :=
  let m := Sparse.set (always none) b.beater.tables (ctx * 4096 + n) x
  let b := { b with beater := { b.beater with tables := m } }
  b.rset .BEATER_TABLES_DEFINED ctx (m.filter (fun p => decide (p.1 / 4096 = ctx))).length

/-- The members of a table's group and this module's index; a LOCAL table has one member. -/
def Block.tableGroup (b : Block) (d : TableParams) : Option (Nat × Nat) :=
  if d.shard = 0 then some (1, 0) else (b.group? d.group).map (fun g => (g.ranks.length, g.self))

/-- The owner and local index of a row of a table on this module. -/
def Block.rowOwner (b : Block) (d : TableParams) (r : Nat) : Option (Nat × Nat × Bool) :=
  (b.tableGroup d).map (fun g => let o := d.owner_ g.1 g.2 r; (o.1, o.2, decide (o.1 = g.2)))

/-- The row of a key. -/
def keyRow (k : Nat) : Nat := k % 2 ^ 40
/-- The table of a key. -/
def keyTable (k : Nat) : Nat := k / 2 ^ 40 % 4096

/-! ### Order (R293, R313) -/

/-- The tables that a command's list names, as memory holds it now. -/
def Block.listTables (b : Block) (c : Cmd) : List Nat :=
  let at_ := fun (va n : Nat) => match (readVa (c.req 0 0) va (64 * n)) b with
    | (.ok bs, _) => (List.range n).map (fun i => field bs (64 * i) 2 % 4096)
    | (.error _, _) => []
  match c.params with
  | .lookupPool p => at_ p.listVa p.count
  | .sortDedup p => at_ p.listVa p.count
  | _ => []

/-- The tables that a PROMOTE's keys name. -/
def Block.promoteTables (b : Block) (c : Cmd) : List Nat :=
  match c.params with
  | .promote p =>
    if p.explicit then
      match (readVa (c.req 0 0) p.keyVa (8 * p.keys)) b with
      | (.ok bs, _) => (List.range p.keys).map (fun i => keyTable (field bs (8 * i) 8))
      | (.error _, _) => []
    else (b.beater.book.filter (fun e => decide (e.2.ctx = c.ctx))).map (fun e => e.2.table)
  | _ => []

/-- Whether command `c` waits for the earlier command `x` that is in progress (R293, R313). -/
def Block.beaterConflict (b : Block) (c x : Cmd) : Bool :=
  match x.params with
  | .demote _ => true
  | .refresh _ => true
  | _ =>
    match c.params, x.params with
    | .demote _, _ => true
    | .refresh _, _ => true
    | .lookupPool p, .scatterUpdate _ => !p.relaxed
    | .lookupPool _, .tableDefine q => (b.listTables c).contains q.table
    | .sortDedup _, .tableDefine q => (b.listTables c).contains q.table
    | .scatterUpdate _, .lookupPool _ => true
    | .scatterUpdate _, .sortDedup _ => true
    | .scatterUpdate _, .scatterUpdate _ => true
    | .scatterUpdate _, .tableDefine _ => true
    | .tableDefine q, .lookupPool _ => (b.listTables x).contains q.table
    | .tableDefine q, .sortDedup _ => (b.listTables x).contains q.table
    | .tableDefine _, .scatterUpdate _ => true
    | .tableDefine q, .tableDefine r => decide (q.table = r.table)
    | .tableDefine q, .promote _ => (b.promoteTables x).contains q.table
    | .promote _, .tableDefine q => (b.promoteTables c).contains q.table
    | _, _ => false

/-- Whether the Beater may start a command now (R293, R313): the earlier class 0x02 commands of its context have started, none of
those in progress conflicts, and fewer than MAX_INFLIGHT are in progress. -/
def Block.beaterTurn (c : Cmd) (b : Block) : Bool :=
  let earlier := (b.cmds.takeWhile (fun (x : Cmd) => !decide (x.id = c.id))).filter (fun (x : Cmd) =>
    decide (x.opcode / 256 = 2) && decide (x.ctx = c.ctx) && decide (x.phase ≠ .queued))
  earlier.all (fun (x : Cmd) =>
    if x.phase = .waiting then b.relay.held.any (fun h => h.epoch && decide (h.cmd = x.id)) else !b.beaterConflict c x) &&
    decide ((b.beaterRegs).rget .BEATER_STATUS_INFLIGHT < b.rget .BEATER_CFG_MAX_INFLIGHT)

/-- Whether the row of a Beater collective may start it. -/
def beaterCollReady (c : Cmd) (b : Block) : Bool := Block.beaterTurn c b && collReady c b

/-! ### Lists and keys (R275, R276) -/

/-- The most keys or entries of one command. -/
def keyLimit : Nat := 8388608

/-- A signed 32-bit number. -/
def int32 (x : Nat) : Int := toSigned 32 x

/-- One list entry: offsets, indices and weights are read; `room` bounds the keys. -/
def readEntry (c : Cmd) (e : List Byte) (room : Nat) : Act LookEntry := do
  let t := field e 0 2 % 4096
  let d ← match (← get).table? c.ctx t with
    | some d => pure d
    | none => throw (.fin 0x2002 t)
  let fl := field e 2 1
  let n := field e 4 4
  let stride := field e 40 4
  if n = 0 ∨ 1048576 < n ∨ stride % 4 ≠ 0 ∨ stride < d.width * (if bitAt fl 3 then 2 else 4) then throw (.fin 0x0100 0)
  let ob ← readVa (c.req 0 0) (fva e 16) (4 * (n + 1))
  let offs := (List.range (n + 1)).map (fun i => field ob (4 * i) 4)
  if (List.range n).any (fun i => decide (int32 (offs.getD (i + 1) 0) < int32 (offs.getD i 0))) ∨ int32 (offs.getD 0 0) < 0 then
    throw (.fin 0x0100 0)
  let first := offs.getD 0 0
  let k := offs.getD n 0 - first
  if room < k then throw (.fin 0x2003 0)
  let w := if bitAt fl 2 then 8 else 4
  let ib ← readVa (c.req 0 0) (fva e 8 + w * first) (w * k)
  let gb ← if bitAt fl 1 then readVa (c.req 0 0) (fva e 24 + 4 * first) (4 * k) else pure []
  let item := fun (j : Nat) =>
    let i := toSigned (8 * w) (field ib (w * j) w)
    (if 0 ≤ i ∧ i < d.rows then some (keyOf t i.toNat) else none, if bitAt fl 1 then field gb (4 * j) 4 else oneF32)
  let bags := (List.range n).map (fun i =>
    (List.range (offs.getD (i + 1) 0 - offs.getD i 0)).map (fun j => item (offs.getD i 0 - first + j)))
  return ⟨t, bitAt fl 0, bitAt fl 1, bitAt fl 3, fva e 32, stride, first, bags⟩

/-- The list of a LOOKUP_POOL or SORT_DEDUP. -/
def readList (c : Cmd) (va n : Nat) : Act (List LookEntry) := do
  let bs ← readVa (c.req 0 0) va (64 * n)
  let r ← (List.range n).foldlM (fun (a : List LookEntry × Nat) i => do
    let e ← readEntry c ((bs.drop (64 * i)).take 64) a.2
    return (a.1 ++ [e], a.2 - (e.bags.map List.length).foldl (· + ·) 0)) ([], keyLimit)
  return r.1

/-- The keys of an entry in position order. -/
def LookEntry.items (e : LookEntry) : List (Option Nat × Nat) := e.bags.flatten

/-- The number of keys of a list, skipped ones included. -/
def keyCount (l : List LookEntry) : Nat := (l.map (fun e => e.items.length)).foldl (· + ·) 0

/-- The first bad index (R275): its list entry and its position. -/
def firstBadIndex : Nat → List LookEntry → Option (Nat × Nat)
  | _, [] => none
  | i, e :: l =>
    match e.items.findIdx? (fun x => decide (x.1 = none)) with
    | some j => some (i, e.first + j)
    | none => firstBadIndex (i + 1) l

/-- A key counted among distinct keys in ascending order. -/
def tallyKey (k : Nat) : List (Nat × Nat) → List (Nat × Nat)
  | [] => [(k, 1)]
  | (k', n) :: l => if k = k' then (k', n + 1) :: l else if k < k' then (k, 1) :: (k', n) :: l else (k', n) :: tallyKey k l

/-- The distinct kept keys in ascending order, with their occurrences. -/
def distinctKeys (l : List LookEntry) : List (Nat × Nat) :=
  (l.flatMap (fun e => e.items.filterMap (fun x => x.1))).foldl (fun a k => tallyKey k a) []

/-- How many indices were skipped. -/
def skippedKeys (l : List LookEntry) : Nat :=
  (l.map (fun e => (e.items.filter (fun x => decide (x.1 = none))).length)).foldl (· + ·) 0

/-! ### Heat (R304, R305) -/

/-- The tracked entry of a set that a new one may replace: that of lowest HEAT, with the lowest way on a tie; not one that a
PROMOTE in flight has accepted. -/
def Block.coldest (b : Block) (set : Nat) : Option Nat :=
  ((List.range 16).map (fun w => set * 16 + w)).foldl (fun a i =>
    let e := b.sb i
    if e.valid && decide (e.state = sbAbsent) && !(b.sbAccepted e.ctx).any (fun k => decide (k.1 = e.key)) then
      match a with
      | some j => if e.heat < (b.sb j).heat then some i else a
      | none => some i
    else a) none

/-- The lowest free way of a set. -/
def Block.freeWay (b : Block) (set : Nat) : Option Nat :=
  ((List.range 16).map (fun w => set * 16 + w)).find? (fun i => !(b.sb i).valid)

/-- A tracked entry of a key. -/
def trackedEntry (ctx k group heat : Nat) : SbEntry :=
  { SbEntry.free with valid := true, row := keyRow k, table := keyTable k, ctx := ctx, group := group, slot := sbNoSlot, heat := min 0xFFFF heat }

/-- Heat of one distinct key (R304, R305). -/
def Block.heatKey (b : Block) (ctx k n group : Nat) : Block :=
  match b.sbFind ctx k with
  | some i => let e := b.sb i; b.setSb i { e with heat := min 0xFFFF (e.heat + n) }
  | none =>
    let r := b.draw
    if r.1 < 2 ^ (16 - b.rget .BEATER_SB_CFG_SAMPLE_LOG2) then
      let b := r.2
      let set := sbSet ctx k
      let put := fun (i : Nat) => (b.setSb i (trackedEntry ctx k group n)).count .BEATER_SB_INSERTS_COUNT 0 1
      match b.freeWay set, b.coldest set with
      | some i, _ => put i
      | none, some i => if (b.sb i).heat < min 0xFFFF n then put i else b.count .BEATER_SB_TRACK_MISS_COUNT 0 1
      | none, none => b.count .BEATER_SB_TRACK_MISS_COUNT 0 1
    else r.2

/-- Heat of a LOOKUP_POOL's distinct keys (R304). -/
def Block.heatKeys (b : Block) (ctx : Nat) (l : List (Nat × Nat)) : Block :=
  if b.flag .BEATER_SB_CTX_TRACK ctx then
    l.foldl (fun b x =>
      match b.table? ctx (keyTable x.1) with
      | some d => if d.shard = 0 then b else b.heatKey ctx x.1 x.2 d.group
      | none => b) b
  else b

/-! ### Where a key is read (R277, R308, R319) -/

/-- Whether the local replica of an entry may be read. -/
def Block.replicaReads (b : Block) (i : Nat) : Bool :=
  let e := b.sb i
  decide (e.state = sbReplicated) && !e.stale && !e.owner && !b.beater.failed.contains (e.group, i / 16)

/-- The source of a key: 0 the local record, 1 the replica, 2 + o owner o. -/
def Block.keySource (b : Block) (ctx k : Nat) : Nat :=
  match b.table? ctx (keyTable k) with
  | none => 0
  | some d =>
    match b.rowOwner d (keyRow k) with
    | none => 0
    | some (o, _, own) =>
      if own then 0
      else
        match b.sbFind ctx k with
        | some i => if b.replicaReads i then 1 else 2 + o
        | none => 2 + o

/-- The address of a key's record on this module: its replica's slot, or the local record. -/
def Block.recordVa (b : Block) (ctx k : Nat) (replica : Bool) : Nat :=
  match b.table? ctx (keyTable k) with
  | none => 0
  | some d =>
    if replica then
      match b.sbFind ctx k with
      | some i => b.sbSlotVa ctx (b.sb i).slot
      | none => 0
    else
      match b.rowOwner d (keyRow k) with
      | some (_, l, _) => d.baseVa + l * d.recBytes
      | none => 0

/-- The entry of a key becomes STALE (R321). -/
def Block.staleKey (b : Block) (ctx k : Nat) : Block :=
  match b.sbFind ctx k with
  | some i => let e := b.sb i; b.setSb i { e with stale := true }
  | none => b

/-! ### Gradient lists (R285) -/

/-- An entry of a gradient list: key, gradient in FP32 codes. -/
structure GradEntry where
  key : Nat
  grad : List Nat
  deriving DecidableEq, Repr

/-- A length rounded up to 8 bytes. -/
def up8 (n : Nat) : Nat := ceilDiv n 8 * 8

/-- The bytes of an entry of width `w` in format `gf` (0 FP32, 1 BF16). -/
def gradBytes (w gf : Nat) : Nat := 8 + up8 (w * (if gf = 1 then 2 else 4))

/-- The entries from address `va` on. -/
def readGrads (c : Cmd) (gf : Nat) : Nat → Nat → Act (List GradEntry)
  | 0, _ => return []
  | n + 1, va => do
    let kb ← readVa (c.req 0 0) va 8
    let k := field kb 0 8
    let b ← get
    match (if 2 ^ 52 ≤ k then none else b.table? c.ctx (keyTable k)) with
    | none => throw (.fin 0x0100 0)
    | some d =>
      let gb ← readVa (c.req 0 0) (va + 8) (d.width * (if gf = 1 then 2 else 4))
      let rest ← readGrads c gf n (va + gradBytes d.width gf)
      return ⟨k, (elems gf gb d.width).map (toF32 gf)⟩ :: rest

/-- A gradient list. -/
def readGradList (c : Cmd) (va : Nat) : Act (List GradEntry) := do
  let h ← readVa (c.req 0 0) va 16
  if 1 < field h 4 1 then throw (.fin 0x0100 0)
  if keyLimit < field h 0 4 then throw (.fin 0x2003 0)
  readGrads c (field h 4 1) (field h 0 4) (va + 16)

/-- An entry's bytes, with the conversions counted. -/
def gradEntryBytes (gf : Nat) (e : GradEntry) : List Byte × Nat × Nat :=
  let l := convList gf true e.grad
  let k := cvtCounts l
  let bs := packElems gf (l.map (·.code))
  (bytesOf 8 e.key ++ bs ++ List.replicate (up8 bs.length - bs.length) 0, if gf = 1 then k.1 else 0, if gf = 1 then k.2 else 0)

/-- The bytes of a gradient list's entries, with their conversions. -/
def gradBody (gf : Nat) (l : List GradEntry) : List Byte × Nat × Nat :=
  let r := l.map (gradEntryBytes gf)
  (r.flatMap (fun x => x.1), (r.map (fun x => x.2.1)).foldl (· + ·) 0, (r.map (fun x => x.2.2)).foldl (· + ·) 0)

/-- A gradient list's header. -/
def gradHeader (n gf bytes : Nat) : List Byte := bytesOf 4 n ++ bytesOf 4 gf ++ bytesOf 8 bytes

end Sys2Proof.Machine
end

