-- ==== Sys2Proof/Machine/Beater.lean ====
section
/-! DEFINITION. The Beater's commands (chapter 10): TABLE_DEFINE, LOOKUP_POOL, SORT_DEDUP, EXCHANGE, SCATTER_UPDATE. -/

namespace Sys2Proof.Machine

/-! ### TABLE_DEFINE (R274) -/

/-- TABLE_DEFINE at its start. -/
def Block.doTableDefine (c : Cmd) (p : TableParams) (b : Block) : Block :=
  let ofTable := fun (e : SbEntry) => e.valid && decide (e.ctx = c.ctx) && decide (e.table = p.table)
  if b.sbWhere (fun e => ofTable e && e.inGroup) ≠ [] then b.finish c.id 0x200A 0 0
  else if p.undefine then
    match b.table? c.ctx p.table with
    | some _ => ((b.setTable c.ctx p.table none).sbFreeWhere ofTable).finish c.id 0 0 0
    | none => b.finish c.id 0x2002 p.table 0
  else
    let fits := match b.tableGroup p with
      | some (n, self) => decide (p.ownRows n self ≤ p.localRows) && (decide (p.shard ≠ 3) || decide (p.owner < n))
      | none => false
    if p.bad || !fits || !b.mappedFor c.ctx p.baseVa (p.localRows * p.recBytes) then b.finish c.id 0x0100 0 0
    else ((b.setTable c.ctx p.table (some p)).sbFreeWhere ofTable).finish c.id 0 0 (halves p.recBytes p.look)

/-- TABLE_DEFINE (R274). -/
def execTableDefine (id : Nat) (p : TableParams) (s : State) : Host.Outcome State Fault Refusal :=
  s.run (fun b => b.runCmd id (.tableDefine p) Block.beaterTurn (fun c b => (b.doTableDefine c p).beaterRegs))

/-! ### The sorter's detections (R296) -/

/-- A sorter block is re-run, or fails again (R296). -/
def Block.sorterDet (b : Block) (c : Cmd) (det : Nat) : Block :=
  if det = 0 then b
  else
    let b := (b.count .BEATER_DETECT_COUNT 0 det).count .BEATER_RERUNS_COUNT 0 1
    let e : ErrIn := { source := 0x051, cls := 0x05, outcome := 1, status := 0x0FFF, ctx := c.ctx, cmd := some (c.ring, c.seq) }
    if det = 1 then (b.absorbed { e with status := 0x0002 }).updCmd c.id (fun x => { x with det := true }) else b.errLog e

/-- OK, or OK_RECOMPUTED after a repeated block or cycle. -/
def Block.okOr (b : Block) (id other : Nat) : Nat :=
  match b.findCmd id with
  | some c => if c.det then 0x0002 else other
  | none => other

/-! ### LOOKUP_POOL (R277 to R282) -/

/-- A row as the pools use it: its elements in FP32, its scale. -/
def rowValues (d : TableParams) (bs : List Byte) : List Nat × Nat :=
  ((elems d.fmt bs d.width).map (toF32 d.fmt), field bs d.wBytes 4)

/-- One bag (R279), from its rows with their scales and weights. -/
def poolBag (d : TableParams) (mean weighted : Bool) (rows : List (List Nat × Nat × Nat)) : List Nat :=
  let s := rows.foldl (fun s r =>
    let c := if d.fmt = 5 then (if weighted then mulF32 r.2.2 r.2.1 else r.2.1) else if weighted then r.2.2 else oneF32
    List.zipWith (fun se xe => fmaF32 c xe se) s r.1) (List.replicate d.width 0)
  if mean && decide (rows.length ≠ 0) then
    let rn := divF32 oneF32 (natF32 rows.length)
    s.map (fun v => fmaF32 v rn 0)
  else s

/-- The row of a key among those read: its bytes, or why it is missing. -/
def rowOf (rows : List (Nat × Except AccErr (List Byte))) (k : Nat) : Except AccErr (List Byte) :=
  match rows.find? (fun r => decide (r.1 = k)) with
  | some r => r.2
  | none => .error .internal

/-- What the bags of a LOOKUP_POOL come to: empty bags, bags that a lower tier spoils, bags that an unmapped record spoils,
the first such address, bags that a missing member spoils, conversions. -/
structure Pooled where
  empty : Nat := 0
  tier : Nat := 0
  unm : Nat := 0
  addr : Option Nat := none
  peer : Nat := 0
  sat : Nat := 0
  ufl : Nat := 0
  deriving DecidableEq, Repr

/-- How an error spoils a bag (R294, R295). -/
def Pooled.spoil (r : Pooled) : AccErr → Pooled
  | .tier _ => { r with tier := r.tier + 1 }
  | .unmapped a => { r with unm := r.unm + 1, addr := some (r.addr.getD a) }
  | _ => { r with peer := r.peer + 1 }

/-- One bag is pooled and written. -/
def lookBag (c : Cmd) (d : TableParams) (e : LookEntry) (rows : List (Nat × Except AccErr (List Byte))) (i : Nat)
    (bag : List (Option Nat × Nat)) (r : Pooled) : Act Pooled := do
  let kept := bag.filterMap (fun x => x.1.map (fun k => (rowOf rows k, x.2)))
  let of := if e.bf16 then 1 else 0
  let bad := kept.findSome? (fun x => match x.1 with
    | .error a => some a
    | .ok _ => none)
  let vals := kept.filterMap (fun x => match x.1 with
    | .ok bs => let v := rowValues d bs; some (v.1, v.2, x.2)
    | .error _ => none)
  let out : List Cvt := match bad with
    | some _ => List.replicate d.width { code := 0 }
    | none => convList of true (poolBag d e.mean e.weighted vals)
  writeVa (c.req 0 0) (e.outVa + i * e.stride) (packElems of (out.map (·.code)))
  let k := cvtCounts out
  let r := { r with empty := r.empty + b2n (decide (kept = [])), sat := r.sat + k.1, ufl := r.ufl + k.2 }
  return match bad with
    | some a => r.spoil a
    | none => r

/-- Every bag of a list. -/
def lookBags (c : Cmd) (l : List LookEntry) (rows : List (Nat × Except AccErr (List Byte))) : Act Pooled :=
  l.foldlM (fun (r : Pooled) e => do
    match (← get).table? c.ctx e.table with
    | some d => (List.range e.bags.length).foldlM (fun r i => lookBag c d e rows i (e.bags.getD i []) r) r
    | none => throw (.fin 0x2002 e.table)) {}

/-- The rows that this module reads for itself (R277): its own and replicas. -/
def lookRead (c : Cmd) (p : LookupParams) (ks : Nat × Nat) : Act (Nat × Except AccErr (List Byte)) := do
  let b ← get
  let d := b.table? c.ctx (keyTable ks.1)
  let n := (d.map TableParams.look).getD 0
  let r ← attempt (readVa (c.req p.hint 0) (b.recordVa c.ctx ks.1 (decide (ks.2 = 1))) n)
  match r with
  | .error (.lost x) =>
    if ks.2 = 1 then act (fun b => b.staleKey c.ctx ks.1)
    throw (.lost x)
  | .error (.tier x) => return (ks.1, .error (.tier x))
  | .error (.unmapped a) => return (ks.1, .error (.unmapped a))
  | .error x => throw x
  | .ok bs =>
    act (fun b =>
      let b := (b.count .BEATER_SECTORS_RD_COUNT 0 (n / 64)).count .BEATER_SECTORS_WR_COUNT 0 (n / 64)
      b.count .BEATER_REPLICA_ROWS_COUNT 0 ks.2)
    return (ks.1, .ok bs)

/-- The statistics block (chapter 10): eight 64-bit counts. -/
def statsBytes (l : List Nat) : List Byte := l.flatMap (bytesOf 8)

/-- A LOOKUP_POOL ends: pools, statistics, status (R280, R294, R295, R298). `remote` are the owners' rows, `served` the rows
served to peers, `miss` the lowest missing member. -/
def lookFinish (c : Cmd) (p : LookupParams) (l : List LookEntry) (keys : List (Nat × Nat))
    (remote : List (Nat × Except AccErr (List Byte))) (served : Nat) (miss : Option Nat) : Act (Pooled × Nat × Nat × Nat) := do
  let here ← (keys.filter (fun k => decide (k.2 < 2))).mapM (lookRead c p)
  act (fun b => b.count .BEATER_REMOTE_ROWS_COUNT 0 (remote.filter (fun r => match r.2 with
    | .ok _ => true
    | .error _ => false)).length)
  act (fun b => b.freeWork c.ctx p.workVa p.workBytes)
  let r ← lookBags c l (here ++ remote)
  act (fun b => b.count .BEATER_EMPTY_BAGS_COUNT 0 r.empty)
  if p.stats then
    writeVa (c.req 0 0) p.statsVa (statsBytes [keyCount l, keys.length, (keys.filter (fun k => decide (k.2 = 0))).length,
      (keys.filter (fun k => decide (k.2 = 1))).length, remote.length, served, skippedKeys l, r.ufl])
  let e := halves r.empty r.sat
  let b ← get
  return (r,
    match miss with
    | some i => (0x2008, i, e)
    | none =>
      if r.tier ≠ 0 then (0x0200, min 0xFFFF r.tier, e)
      else if r.unm ≠ 0 then (0x2006, min 0xFFFF r.unm, r.addr.getD 0 % 2 ^ 56)
      else (b.okOr c.id (if r.empty ≠ 0 then 0x0003 else 0), 0, e))

/-- The conversions of a Beater command count at its completion event (R120). -/
def Block.cvtEffects (b : Block) (id sat ufl : Nat) : Block :=
  (b.addEffect id (.count .BEATER_CVT_SAT_COUNT 0 sat)).addEffect id (.count .BEATER_CVT_UFL_COUNT 0 ufl)

/-- The reply to a request for a key's record: a status byte, the address of a fault, the record's first A bytes (R278). -/
def lookServe (c : Cmd) (p : LookupParams) (k : Nat) : Act (List Byte) := do
  let b ← get
  match b.table? c.ctx (keyTable k) with
  | none => return bytesOf 1 2 ++ bytesOf 8 0
  | some d =>
    let r ← attempt (readVa (c.req p.hint 0) (b.recordVa c.ctx k false) d.look)
    match r with
    | .ok bs =>
      act (fun b => (b.count .BEATER_SECTORS_RD_COUNT 0 (d.look / 64)).count .BEATER_SERVED_ROWS_COUNT 0 1)
      return bytesOf 1 0 ++ bytesOf 8 0 ++ bs
    | .error (.tier _) => return bytesOf 1 1 ++ bytesOf 8 0
    | .error (.unmapped a) => return bytesOf 1 2 ++ bytesOf 8 a
    | .error x => throw x

/-- The rows in an owner's reply, in the order of the request. -/
def replyRows (b : Block) (ctx : Nat) : List Nat → List Byte → List (Nat × Except AccErr (List Byte))
  | [], _ => []
  | k :: ks, bs =>
    let n := ((b.table? ctx (keyTable k)).map TableParams.look).getD 0
    match field bs 0 1 with
    | 0 => (k, .ok ((bs.drop 9).take n)) :: replyRows b ctx ks (bs.drop (9 + n))
    | 1 => (k, .error (.tier 1)) :: replyRows b ctx ks (bs.drop 9)
    | _ => (k, .error (.unmapped (field bs 1 8))) :: replyRows b ctx ks (bs.drop 9)

/-- The keys that this member asks member `o` for. -/
def Coll.keysOf (x : Coll) (o : Nat) : List Nat := (x.keys.filter (fun k => decide (k.2 = 2 + o))).map (fun k => k.1)

/-- LOOKUP_POOL goes on: requests that have arrived are served. Legs: 0 key counts, 1 keys, 2 replies. -/
def lookStep (tag : Nat) (c : Cmd) (p : LookupParams) : Act Unit := do
  let x ← theColl tag
  x.others.forM (fun i => do
    let x ← theColl tag
    if x.fresh 1 i then
      collActed tag 1 i
      let bs := x.stream 1 i
      let l ← (List.range (bs.length / 8)).mapM (fun j => lookServe c p (field bs (8 * j) 8))
      collSet tag (fun x => { (x.post i 2 l.flatten) with rx := x.rx + l.length }))

/-- Whether member `i` has sent all that this one awaits of it. -/
def Coll.lookGot (x : Coll) (i : Nat) : Bool :=
  x.got 0 i && (decide (field (x.stream 0 i) 0 8 = 0) || x.acted.contains (streamKey 1 i)) &&
    (decide (x.keysOf i = []) || x.got 2 i)

/-- A collective LOOKUP_POOL ends, with the members that have not answered by then (R295). -/
def Block.lookClose (b : Block) (tag : Nat) (c : Cmd) (p : LookupParams) (timeout : Bool) : Block :=
  match b.coll tag with
  | none => b
  | some x =>
    let remote := x.others.flatMap (fun o =>
      if x.got 2 o then replyRows b c.ctx (x.keysOf o) (x.stream 2 o)
      else (x.keysOf o).map (fun k => (k, .error (.fin 0x2008 0))))
    let miss := if timeout then x.others.find? (fun i => !x.lookGot i) else none
    match (lookFinish c p x.look x.keys remote x.rx miss) b with
    | (.ok r, b) => (b.onColl tag (fun x => { x with sat := r.1.sat, ufl := r.1.ufl })).endColl tag r.2.1 r.2.2.1 r.2.2.2
    | (.error (.unmapped a), b) => b.endColl tag 0x2006 0 (a % 2 ^ 56)
    | (.error e, b) => let r := e.status (0, 0); b.endColl tag r.1 r.2 0

/-- A collective LOOKUP_POOL goes as far as it can. -/
def Block.lookAdvance (b : Block) (tag : Nat) (c : Cmd) (p : LookupParams) : Block :=
  match b.coll tag with
  | some x =>
    if b.collRuns x then
      let b := (b.collAct tag c.opcode (lookStep tag c p)).pump tag
      match b.coll tag with
      | some y => if b.collRuns y && decide (y.outq = []) && y.others.all (fun i => y.lookGot i) then b.lookClose tag c p false else b
      | none => b
    else b
  | none => b

/-- The workspace that a LOOKUP_POOL needs (R282). -/
def Block.lookWork (b : Block) (ctx : Nat) (l : List LookEntry) (keys : List (Nat × Nat)) : Nat :=
  16 * keyCount l + (keys.map (fun k => ((b.table? ctx (keyTable k.1)).map TableParams.look).getD 0)).foldl (· + ·) 0 + 65536

/-- The sort is over: keys counted, bad indices refused (R275, R276). `k` goes on with the distinct keys. -/
def Block.afterSort (b : Block) (c : Cmd) (l : List LookEntry) (badSkip : Bool) (det : Nat) (k : List (Nat × Nat) → Block → Block) : Block :=
  let b := (b.count .BEATER_KEYS_COUNT 0 (keyCount l)).sorterDet c det
  if det = 2 then b.finish c.id 0x0FFF 0 0
  else
    match if badSkip then none else firstBadIndex 0 l with
    | some (i, j) => b.finish c.id 0x2001 i j
    | none =>
      let ds := distinctKeys l
      k ds ((b.count .BEATER_DISTINCT_COUNT 0 ds.length).count .BEATER_SKIPPED_COUNT 0 (skippedKeys l))

/-- The ranges that a LOOKUP_POOL writes: its bags' outputs and its statistics. -/
def Block.lookOuts (b : Block) (ctx : Nat) (p : LookupParams) (l : List LookEntry) : List (Nat × Nat) :=
  (l.flatMap (fun e => (List.range e.bags.length).map (fun i =>
    (e.outVa + i * e.stride, ((b.table? ctx e.table).map (·.width)).getD 0 * (if e.bf16 then 2 else 4))))) ++
    (if p.stats then [(p.statsVa, 64)] else [])

/-- LOOKUP_POOL after its sort: the workspace, heat, the sources (R277, R282, R304). -/
def Block.lookSorted (c : Cmd) (p : LookupParams) (l : List LookEntry) (gs : Option GroupSt) (ds : List (Nat × Nat)) (b : Block) : Block :=
  let need := b.lookWork c.ctx l ds
  if p.workBytes < need then b.finish c.id 0x2004 0 need
  else
    let b := b.heatKeys c.ctx ds
    let keys := ds.map (fun k => (k.1, b.keySource c.ctx k.1))
    match gs with
    | none =>
      match (lookFinish c p l keys [] 0 none) b with
      | (.ok r, b) => (b.cvtEffects c.id r.1.sat r.1.ufl).finish c.id r.2.1 r.2.2.1 r.2.2.2
      | (.error (.unmapped a), b) => b.finish c.id 0x2006 0 (a % 2 ^ 56)
      | (.error e, b) => let r := e.status (0, 0); b.finish c.id r.1 r.2 0
    | some g =>
      let tag := tagOf p.group p.epoch p.bucket
      let x := { newColl c tag g (c.digest g []) 1 b.clk.t with keys := keys, look := l, outs := b.lookOuts c.ctx p l }
      let x := x.others.foldl (fun x i =>
        let ks := x.keysOf i
        let y := x.post i 0 (bytesOf 8 ks.length)
        if ks = [] then y else y.post i 1 (ks.flatMap (bytesOf 8))) x
      let b := (b.beginColl x).setRunning c.id
      (b.openColl tag x.others).lookAdvance tag c p

/-- LOOKUP_POOL at its start: `det` as for the sorter, `bad` the directory entries that fail as it reads them. -/
def Block.startLookup (c : Cmd) (p : LookupParams) (det : Nat) (bad : List Nat) (b0 : Block) : Block :=
  if p.count = 0 ∨ 4096 < p.count ∨ p.hint = 3 ∨ p.workVa % 64 ≠ 0 then (b0.unhold c.id).finish c.id 0x0100 0 0
  else b0.withAct c.id 0x2006 (readList c p.listVa p.count) (fun l b =>
    let sharded := l.filterMap (fun e => (b.table? c.ctx e.table).bind (fun d => if d.shard = 0 then none else some d))
    if sharded = [] then
      (b.sbFails bad).afterSort c l p.badSkip det (fun ds b => b.lookSorted c p l none ds)
    else if sharded.any (fun d => decide (d.group ≠ p.group)) then (b.unhold c.id).finish c.id 0x0100 0 0
    else if !b.isHeld c.id && !b.collTurn c then b0
    else b.collStart c p.group p.epoch p.bucket false (fun gs b =>
      (b.sbFails bad).afterSort c l p.badSkip det (fun ds b => b.lookSorted c p l (some gs) ds)))

/-- LOOKUP_POOL (R277 to R282). -/
def execLookupPool (id : Nat) (p : LookupParams) (det : Fin 3) (bad : List Nat) (s : State) : Host.Outcome State Fault Refusal :=
  s.run (fun b => b.runCmd id (.lookupPool p) (fun c b => !b.isHeld c.id && Block.beaterTurn c b)
    (fun c b => (b.startLookup c p det bad).beaterRegs))

/-! ### SORT_DEDUP (R283, R284) -/

/-- KEYS mode: distinct keys, and for each key the index of its distinct key. -/
def sortKeys (c : Cmd) (p : SortParams) (l : List LookEntry) (ds : List (Nat × Nat)) : Act Unit := do
  writeVa (c.req 0 0) p.outVa (ds.flatMap (fun k => bytesOf 8 k.1))
  let inv := l.flatMap (fun e => e.items.map (fun x => match x.1 with
    | some k => (ds.findIdx? (fun d => decide (d.1 = k))).getD 0
    | none => 2 ^ 32 - 1))
  writeVa (c.req 0 0) p.invVa (inv.flatMap (bytesOf 4))

/-- The gradients of an entry's bags in FP32. -/
def bagGrads (c : Cmd) (d : TableParams) (e : LookEntry) : Act (List (List Nat)) :=
  (List.range e.bags.length).mapM (fun i => do
    let f := if e.bf16 then 1 else 0
    let bs ← readVa (c.req 0 0) (e.outVa + i * e.stride) (d.width * (if e.bf16 then 2 else 4))
    return (elems f bs d.width).map (toF32 f))

/-- The contributions of an entry's occurrences in position order: key, factor, bag gradient (R284). -/
def gradTerms (e : LookEntry) (gb : List (List Nat)) : List (Nat × Nat × List Nat) :=
  (List.range e.bags.length).flatMap (fun i =>
    let bag := e.bags.getD i []
    let n := (bag.filter (fun x => x.1.isSome)).length
    bag.filterMap (fun x => x.1.map (fun k =>
      let c := if e.weighted then x.2 else oneF32
      (k, if e.mean then mulF32 c (divF32 oneF32 (natF32 n)) else c, gb.getD i []))))

/-- The summed gradient of each distinct key. -/
def sumTerms (w : Nat → Nat) (ds : List (Nat × Nat)) (ts : List (Nat × Nat × List Nat)) : List GradEntry :=
  ds.map (fun k => ⟨k.1, (ts.filter (fun t => decide (t.1 = k.1))).foldl
    (fun g t => List.zipWith (fun ge x => fmaF32 t.2.1 x ge) g t.2.2) (List.replicate (w k.1) 0)⟩)

/-- SORT_DEDUP after its sort. -/
def Block.sortSorted (c : Cmd) (p : SortParams) (l : List LookEntry) (ds : List (Nat × Nat)) (b : Block) : Block :=
  let work := 16 * keyCount l + 65536
  let width := fun (k : Nat) => ((b.table? c.ctx (keyTable k)).map (·.width)).getD 0
  let gf := b2n p.gradBf16
  let need := if p.mode = 0 then 8 * ds.length else 16 + (ds.map (fun k => gradBytes (width k.1) gf)).foldl (· + ·) 0
  if p.workBytes < work then b.finish c.id 0x2004 0 work
  else if p.outBytes < need then b.finish c.id 0x2004 0 need
  else b.withAct c.id 0x2006 (do
      let r ← if p.mode = 0 then do
          sortKeys c p l ds
          pure ((0, 0) : Nat × Nat)
        else do
          let ts ← l.mapM (fun e => do
            match (← get).table? c.ctx e.table with
            | some d => let gb ← bagGrads c d e; return gradTerms e gb
            | none => throw (.fin 0x2002 e.table))
          let body := gradBody gf (sumTerms width ds ts.flatten)
          writeVa (c.req 0 0) p.outVa (gradHeader ds.length gf need ++ body.1)
          pure body.2
      act (fun b => b.freeWork c.ctx p.workVa p.workBytes)
      if p.stats then
        writeVa (c.req 0 0) p.statsVa (statsBytes [keyCount l, ds.length, 0, 0, 0, 0, skippedKeys l, r.2])
      return r) (fun r b => (b.cvtEffects c.id r.1 r.2).finish c.id (b.okOr c.id 0) 0 (halves ds.length r.1))

/-- SORT_DEDUP at its start. -/
def Block.startSort (c : Cmd) (p : SortParams) (det : Nat) (b : Block) : Block :=
  if p.count = 0 ∨ 4096 < p.count ∨ 1 < p.mode then b.finish c.id 0x0100 0 0
  else b.withAct c.id 0x2006 (readList c p.listVa p.count) (fun l b =>
    b.afterSort c l p.badSkip det (fun ds b => b.sortSorted c p l ds))

/-- SORT_DEDUP (R283, R284). -/
def execSortDedup (id : Nat) (p : SortParams) (det : Fin 3) (s : State) : Host.Outcome State Fault Refusal :=
  s.run (fun b => b.runCmd id (.sortDedup p) Block.beaterTurn (fun c b => (b.startSort c p det).beaterRegs))

/-! ### EXCHANGE (R286, R287, R309, R311) -/

/-- The members that an entry goes to (R286, R309); none where its table or row does not belong. -/
def Block.exDests (b : Block) (ctx g n self : Nat) (e : GradEntry) : Option (List Nat) :=
  match b.table? ctx (keyTable e.key) with
  | none => none
  | some d =>
    if d.rows ≤ keyRow e.key then none
    else if d.shard = 0 then some [self]
    else if d.group ≠ g then none
    else
      let spread := match b.sbFind ctx e.key with
        | some i => decide ((b.sb i).state = sbReplicated) && !b.sbDegraded g
        | none => false
      some (if spread then List.range n else [(d.owner_ n self (keyRow e.key)).1])

/-- The bytes of entries in a format. -/
def Block.segBytes (b : Block) (ctx gf : Nat) (l : List GradEntry) : Nat :=
  (l.map (fun e => gradBytes (((b.table? ctx (keyTable e.key)).map (·.width)).getD 0) gf)).foldl (· + ·) 0

/-- What a member tells another in the size phase (R287, R311): entries, their bytes in FP32 and in BF16, its generation. -/
def Block.exInfo (b : Block) (ctx g : Nat) (l : List GradEntry) : List Byte :=
  bytesOf 8 l.length ++ bytesOf 8 (b.segBytes ctx 0 l) ++ bytesOf 8 (b.segBytes ctx 1 l) ++ bytesOf 4 (b.sbGen g)

/-- The key under which a collective keeps the segment that it sends to member `i`. -/
def outKey (i : Nat) : Nat := streamKey 3 i

/-- EXCHANGE with its group. -/
def Block.exGo (c : Cmd) (p : ExchangeParams) (l0 : List GradEntry) (gs : GroupSt) (b : Block) : Block :=
  let n := gs.ranks.length
  let dests := l0.map (fun e => b.exDests c.ctx p.group n gs.self e)
  if dests.any (fun d => decide (d = none)) then b.finish c.id 0x0100 0 0
  else
    let tag := tagOf p.group p.epoch p.bucket
    let gf := b2n p.outBf16
    let cv := l0.map (fun e => convList 1 true e.grad)
    let l := if p.outBf16 then List.zipWith (fun (e : GradEntry) v => (⟨e.key, v.map (fun k => toF32 1 k.code)⟩ : GradEntry)) l0 cv else l0
    let k := if p.outBf16 then cvtCounts cv.flatten else (0, 0)
    let seg := fun (i : Nat) => ((l.zip dests).filter (fun e => (e.2.getD []).contains i)).map (fun e => e.1)
    let x := { newColl c tag gs (c.digest gs []) 1 b.clk.t with sat := k.1, ufl := k.2, outs := [(p.outVa, p.outBytes)] }
    let x := (List.range n).foldl (fun x i =>
      { x with streams := Sparse.set (always []) x.streams (outKey i) (bytesOf 1 gf ++ (gradBody gf (seg i)).1) }) x
    let x := { x with streams := Sparse.set (always []) x.streams (streamKey 0 gs.self) (b.exInfo c.ctx p.group (seg gs.self)) }
    let x := x.others.foldl (fun x i => x.post i 0 (b.exInfo c.ctx p.group (seg i))) x
    let b := (b.beginColl x).setRunning c.id
    b.openColl tag x.others

/-- The bytes that this member's output needs, of what has arrived. -/
def Coll.exNeed (x : Coll) (gf : Nat) : Nat :=
  16 + ((List.range x.ranks.length).map (fun i => field (x.stream 0 i) (8 + 8 * gf) 8)).foldl (· + ·) 0

/-- EXCHANGE goes on. Legs: 0 sizes and generation, 1 verdicts, 2 segments. -/
def exStep (tag : Nat) (p : ExchangeParams) : Act Unit := do
  let x ← theColl tag
  if x.phase = 0 ∧ x.gotAll 0 then
    let gen := field (x.stream 0 x.self) 24 4
    if x.others.any (fun i => decide (field (x.stream 0 i) 24 4 ≠ gen)) then throw (.fin 0x2009 0)
    let need := x.exNeed (b2n p.outBf16)
    let ok := decide (need ≤ p.outBytes)
    collSet tag (fun x =>
      let y := { x with phase := 1, small := !ok, rx := need }
      y.others.foldl (fun y i => y.post i 1 [BitVec.ofNat 8 (b2n ok)]) y)
  x.others.forM (fun i => do
    let x ← theColl tag
    if x.fresh 1 i ∧ x.phase = 1 then
      collActed tag 1 i
      let seg := Sparse.get (always []) x.streams (outKey i)
      if seg.length ≠ 1 then
        if field (x.stream 1 i) 0 1 = 1 then collSet tag (fun x => x.post i 2 seg)
        else collSet tag (fun x => { x with refused := x.refused ++ [i] }))

/-- Whether member `i` has sent all that this one awaits of it. -/
def Coll.exGot (x : Coll) (i : Nat) : Bool :=
  x.got 0 i && x.acted.contains (streamKey 1 i) && (x.small || decide (field (x.stream 0 i) 0 8 = 0) || x.got 2 i)

/-- The entries of a segment as it arrived. -/
def Block.segEntries (b : Block) (ctx gf : Nat) : Nat → List Byte → List GradEntry
  | 0, _ => []
  | fuel + 1, bs =>
    if bs = [] then []
    else
      let k := field bs 0 8
      let w := ((b.table? ctx (keyTable k)).map (·.width)).getD 0
      ⟨k, (elems gf (bs.drop 8) w).map (toF32 gf)⟩ :: b.segEntries ctx gf fuel (bs.drop (gradBytes w gf))

/-- An EXCHANGE ends: its output list (R286), refusals (R287), members that did not answer (R295). -/
def Block.exClose (b : Block) (tag : Nat) (c : Cmd) (p : ExchangeParams) (timeout : Bool) : Block :=
  match b.coll tag with
  | none => b
  | some x =>
    if x.small then b.endColl tag 0x2004 0 x.rx
    else
      let gf := b2n p.outBf16
      let l := (List.range x.ranks.length).flatMap (fun i =>
        let bs := if i = x.self then Sparse.get (always []) x.streams (outKey i) else if x.got 2 i then x.stream 2 i else []
        b.segEntries c.ctx (field bs 0 1) bs.length (bs.drop 1))
      let body := gradBody gf l
      let b := b.onColl tag (fun x => { x with sat := x.sat + body.2.1, ufl := x.ufl + body.2.2 })
      let sat := x.sat + body.2.1
      let b := b.collAct tag c.opcode (writeVa (c.req 0 0) p.outVa (gradHeader l.length gf (16 + body.1.length) ++ body.1))
      let e := halves l.length sat
      match (if timeout then x.others.find? (fun i => !x.exGot i) else none), x.refused.min? with
      | some i, _ => b.endColl tag 0x2008 i e
      | none, some i => b.endColl tag 0x2007 i e
      | none, none => b.endColl tag x.okStatus 0 e

/-- An EXCHANGE goes as far as it can. -/
def Block.exAdvance (b : Block) (tag : Nat) (c : Cmd) (p : ExchangeParams) : Block :=
  match b.coll tag with
  | some x =>
    if b.collRuns x then
      let b := (b.collAct tag c.opcode (exStep tag p)).pump tag
      match b.coll tag with
      | some y =>
        if b.collRuns y && decide (y.outq = []) && decide (y.phase = 1) && y.others.all (fun i => y.exGot i) then b.exClose tag c p false
        else b
      | none => b
    else b
  | none => b

/-- EXCHANGE at its start. -/
def Block.startExchange (c : Cmd) (p : ExchangeParams) (bad : List Nat) (b : Block) : Block :=
  b.withAct c.id 0x2006 (readGradList c p.inVa) (fun l b =>
    b.collStart c p.group p.epoch p.bucket false (fun gs b =>
      ((b.sbFails bad).exGo c p l gs).exAdvance (tagOf p.group p.epoch p.bucket) c p))

/-- EXCHANGE (R286, R287). -/
def execExchange (id : Nat) (p : ExchangeParams) (bad : List Nat) (s : State) : Host.Outcome State Fault Refusal :=
  s.run (fun b => b.runCmd id (.exchange p) beaterCollReady (fun c b => (b.startExchange c p bad).beaterRegs))

/-! ### SCATTER_UPDATE (R288 to R292) -/

/-- Bytes of `l` from `i` on replaced by `bs`. -/
def putBytes (l : List Byte) (i : Nat) (bs : List Byte) : List Byte := l.take i ++ bs ++ l.drop (i + bs.length)

/-- The weights of a record written from the new values (R290): bytes, conversions, draws used. -/
def recordWeights (d : TableParams) (w : List Nat) (draws : Nat) : List Byte × List Cvt × Nat :=
  let r : Rnd := if d.writeRna then .rna else .rne
  match d.fmt with
  | 0 => (packElems 0 w, [], 0)
  | 5 =>
    let s := (seedScale (w.map fp32.decode) 5 0).1
    let q := w.map (fun x => cvtCode 0 5 r true (divF32 x s))
    let bs := packElems 5 (q.map (·.code))
    (bs ++ List.replicate (d.wBytes - bs.length) 0 ++ bytesOf 4 s, q, 0)
  | 1 =>
    let l := if d.master then w.map (cvtCode 0 1 .rne true)
      else w.mapIdx (fun i x => cvtCode 0 1 (.sr (Config.srBits (draws + i)).toNat) true x)
    (packElems 1 (l.map (·.code)), l, if d.master then 0 else w.length)
  | f =>
    let l := w.map (cvtCode 0 f (if d.master then .rne else r) true)
    (packElems f (l.map (·.code)), l, 0)

/-- The values that a rule updates in a record (R290). -/
def recordValues (d : TableParams) (bs : List Byte) : List Nat :=
  if d.master then elems 0 (bs.drop d.masterAt) d.width
  else
    let v := rowValues d bs
    if d.fmt = 5 then v.1.map (fun q => mulF32 q v.2) else v.1

/-- A whole new record under the table's rule (R289, R290): bytes, conversions, draws used. -/
def newRecord (d : TableParams) (h : Hyper) (bs : List Byte) (g : List Nat) (draws : Nat) : List Byte × List Cvt × Nat :=
  let n := ruleStates d.rule
  let cnt := if ruleWords d.rule then field bs d.look 4 else 0
  let state := fun (k : Nat) => (elems d.stateFmt (bs.drop (d.s1At + k * d.width * d.eS)) d.width).map (stVal d.stateFmt)
  let o := applyRule d.rule h (ruleConsts h oneF32 (cnt + 1)) d.stateFmt d.width (recordValues d bs) g
    (if 1 ≤ n then state 0 else []) (if 2 ≤ n then state 1 else []) (field bs (d.look + 4) 4)
  let wr := recordWeights d o.w draws
  let r := putBytes bs 0 wr.1
  let r := if ruleWords d.rule then putBytes r d.look (bytesOf 4 (cnt + 1)) else r
  let r := if d.rule = 6 then putBytes r (d.look + 4) (bytesOf 4 o.acc) else r
  let r := if d.master then putBytes r d.masterAt (packElems 0 o.w) else r
  let r := if 1 ≤ n then putBytes r d.s1At (packElems d.stateFmt (o.s1.map (·.code))) else r
  let r := if 2 ≤ n then putBytes r (d.s1At + d.width * d.eS) (packElems d.stateFmt (o.s2.map (·.code))) else r
  (r, o.s1 ++ o.s2 ++ wr.2.1, wr.2.2)

/-- Gradients summed by key in ascending key order (R288). -/
def sumGrad (e : GradEntry) : List GradEntry → List GradEntry
  | [] => [⟨e.key, addLists (e.grad.map (fun _ => 0)) e.grad⟩]
  | x :: l =>
    if e.key = x.key then ⟨x.key, addLists x.grad e.grad⟩ :: l
    else if e.key < x.key then ⟨e.key, addLists (e.grad.map (fun _ => 0)) e.grad⟩ :: x :: l
    else x :: sumGrad e l

/-- Where the gradient of a key is applied (R292, R310): the address of the record and whether it is a replica; dropped; or
foreign. -/
inductive GradPlace where
  | at_ (va : Nat) (replica : Bool)
  | dropped
  | foreign
  deriving DecidableEq, Repr

/-- Where the gradient of a key is applied on this module. -/
def Block.gradPlace (b : Block) (ctx k : Nat) (d : TableParams) : GradPlace :=
  match b.rowOwner d (keyRow k) with
  | none => .foreign
  | some (_, l, own) =>
    if d.rows ≤ keyRow k then .foreign
    else if own then .at_ (d.baseVa + l * d.recBytes) false
    else
      match b.sbFind ctx k with
      | none => if b.sbDegraded d.group then .dropped else .foreign
      | some i =>
        let e := b.sb i
        if b.sbDegraded d.group || (decide (e.state = sbReplicated) && e.stale) then .dropped
        else if e.state = sbReplicated then .at_ (b.sbSlotVa ctx e.slot) true
        else .foreign

/-- What a SCATTER_UPDATE comes to. -/
structure Scattered where
  rows : Nat := 0
  own : Nat := 0
  replica : Nat := 0
  foreign : Nat := 0
  special : Nat := 0
  tier : Nat := 0
  unm : Nat := 0
  addr : Option Nat := none
  lost : Option Nat := none
  sat : Nat := 0
  ufl : Nat := 0
  hypers : List (Nat × Hyper) := []
  deriving DecidableEq, Repr

/-- The hyperparameters of a table, read once per command (R274). -/
def tableHyper (c : Cmd) (d : TableParams) (r : Scattered) : Act (Hyper × Scattered) :=
  match r.hypers.find? (fun x => decide (x.1 = d.table)) with
  | some x => return (x.2, r)
  | none => do
    let h := hyperOf (← readVa (c.req 0 0) d.hyperVa 64)
    return (h, { r with hypers := r.hypers ++ [(d.table, h)] })

/-- The version of a key's entry advances with its record (R307). -/
def Block.bumpVersion (b : Block) (ctx k : Nat) : Block :=
  match b.sbFind ctx k with
  | some i => let e := b.sb i; b.setSb i { e with version := (e.version + 1) % 2 ^ 16 }
  | none => b

/-- One record cycle (R289, R290, R294, R321). -/
def recordCycle (c : Cmd) (p : ScatterParams) (d : TableParams) (e : GradEntry) (va : Nat) (replica : Bool) (r : Scattered) : Act Scattered := do
  let (h, r) ← tableHyper c d r
  let got ← attempt (readVa (c.req p.hint 0) va d.recBytes)
  match got with
  | .error (.tier _) => return { r with tier := r.tier + 1 }
  | .error (.unmapped a) => return { r with unm := r.unm + 1, addr := some (r.addr.getD a) }
  | .error (.lost x) =>
    if replica then act (fun b => b.staleKey c.ctx e.key)
    return { r with lost := some (r.lost.getD x) }
  | .error x => throw x
  | .ok bs =>
    let b ← get
    let nr := newRecord d h bs e.grad b.free.draws
    act (fun b => { b with free := { b.free with draws := b.free.draws + nr.2.2 } })
    let put ← attempt (writeVa (c.req p.hint 0) va nr.1)
    match put with
    | .error (.tier _) => return { r with tier := r.tier + 1 }
    | .error (.unmapped a) => return { r with unm := r.unm + 1, addr := some (r.addr.getD a) }
    | .error (.lost x) =>
      if replica then act (fun b => b.staleKey c.ctx e.key)
      return { r with lost := some (r.lost.getD x) }
    | .error x => throw x
    | .ok _ =>
      act (fun b =>
        let n := d.recBytes / 64
        let b := (b.count .BEATER_SECTORS_RD_COUNT 0 n).count .BEATER_SECTORS_WR_COUNT 0 n
        ((b.count .BEATER_ROWS_UPDATED_COUNT 0 1).count .FARRIER_RECORDS_COUNT 0 1).bumpVersion c.ctx e.key)
      let k := cvtCounts nr.2.1
      return { r with rows := r.rows + 1, own := r.own + b2n (!replica), replica := r.replica + b2n replica, sat := r.sat + k.1, ufl := r.ufl + k.2 }

/-- One distinct key of a SCATTER_UPDATE. -/
def scatterKey (c : Cmd) (p : ScatterParams) (r : Scattered) (e : GradEntry) : Act Scattered := do
  let b ← get
  match b.table? c.ctx (keyTable e.key) with
  | none => throw (.fin 0x0100 0)
  | some d =>
    match b.gradPlace c.ctx e.key d with
    | .foreign => return { r with foreign := r.foreign + 1 }
    | .dropped =>
      act (fun b => b.count .BEATER_SB_DROPPED_COUNT 0 1)
      return r
    | .at_ va replica =>
      if p.forbidSpecial && e.grad.any specialF32 then return { r with special := r.special + 1 }
      else recordCycle c p d e va replica r

/-- The status of a SCATTER_UPDATE (R291 to R294, R298). -/
def Scattered.status (r : Scattered) (ok : Nat) : Nat × Nat × Nat :=
  let e := halves r.rows r.sat
  match r.lost with
  | some x => (0x0300, x, e)
  | none =>
    if r.tier ≠ 0 then (0x0200, min 0xFFFF r.tier, e)
    else if r.unm ≠ 0 then (0x2006, min 0xFFFF r.unm, r.addr.getD 0 % 2 ^ 56)
    else if r.special ≠ 0 then (0x0600, 0, e)
    else if r.foreign ≠ 0 then (0x2005, 0, e)
    else (ok, 0, e)

/-- A record cycle is repeated, or fails again (R289, R296). -/
def Block.cycleDet (b : Block) (c : Cmd) (det : Nat) : Block :=
  if det = 0 then b
  else
    let b := ((b.count .BEATER_DETECT_COUNT 0 det).count .FARRIER_DETECT_COUNT 0 det).count .BEATER_RERUNS_COUNT 0 1
    let e : ErrIn := { source := 0x053, cls := 0x04, outcome := 1, status := 0x0FFF, ctx := c.ctx, cmd := some (c.ring, c.seq) }
    if det = 1 then (b.absorbed { e with status := 0x0002 }).updCmd c.id (fun x => { x with det := true }) else b.errLog e

/-- Every record cycle of a SCATTER_UPDATE, its work space and its statistics. -/
def scatterAct (c : Cmd) (p : ScatterParams) (n : Nat) (ds : List GradEntry) : Act Scattered := do
  let r ← ds.foldlM (scatterKey c p) ({} : Scattered)
  act (fun b => b.freeWork c.ctx p.workVa p.workBytes)
  if p.stats then
    writeVa (c.req 0 0) p.statsVa (statsBytes [n, ds.length, r.own, r.replica, 0, 0, 0, r.ufl])
  return r

/-- SCATTER_UPDATE at its start: `det` for its first record cycle, `bad` the directory entries that fail as it reads them. -/
def Block.startScatter (c : Cmd) (p : ScatterParams) (det : Nat) (bad : List Nat) (b : Block) : Block :=
  if p.hint = 3 then b.finish c.id 0x0100 0 0
  else b.withAct c.id 0x2006 (readGradList c p.inVa) (fun l b =>
    let ro := l.any (fun e => match b.table? c.ctx (keyTable e.key) with
      | some d => decide (d.rule = 0)
      | none => false)
    let need := 16 * l.length + 65536
    if ro then b.finish c.id 0x0100 0 0
    else if p.workBytes < need then b.finish c.id 0x2004 0 need
    else
      let ds := l.foldl (fun a e => sumGrad e a) []
      let b := ((b.sbFails bad).count .BEATER_KEYS_COUNT 0 l.length).count .BEATER_DISTINCT_COUNT 0 ds.length
      let b := b.cycleDet c det
      if det = 2 then b.finish c.id 0x0FFF 0 0
      else b.withAct c.id 0x2006 (scatterAct c p l.length ds) (fun r b =>
        let s := r.status (b.okOr c.id 0)
        (b.cvtEffects c.id r.sat r.ufl).finish c.id s.1 s.2.1 s.2.2))

/-- SCATTER_UPDATE (R288 to R292). -/
def execScatterUpdate (id : Nat) (p : ScatterParams) (det : Fin 3) (bad : List Nat) (s : State) : Host.Outcome State Fault Refusal :=
  s.run (fun b => b.runCmd id (.scatterUpdate p) Block.beaterTurn (fun c b => (b.startScatter c p det bad).beaterRegs))

end Sys2Proof.Machine
end

