-- ==== Sys2Proof/Machine/BlinkMath.lean ====
section
/-! DEFINITION. The arithmetic of attention (R409 to R416) on one row and one page: rotary codes, scores, the online softmax, the
gradients. Values are FP32 codes unless a name says otherwise. -/

namespace Sys2Proof

open Machine

/-- Whether the pages hold FP8. -/
def AttendParams.fp8 (p : AttendParams) : Bool := decide (p.kvFmt = 3 ∨ p.kvFmt = 4)

/-- The bytes of a key or value element. -/
def AttendParams.eKv (p : AttendParams) : Nat := if p.fp8 then 1 else 2

/-- The bytes of an output element. -/
def AttendParams.eO (p : AttendParams) : Nat := if p.outFmt = 0 then 4 else 2

/-- H_qc: the query heads of the command (R407). -/
def AttendParams.heads (p : AttendParams) : Nat := p.hCmd * p.gqa

end Sys2Proof

namespace Sys2Proof.Machine

/-- Counts of conversions: saturations and underflows (R119). -/
abbrev Counts := Nat × Nat

/-- The counts of a list of conversions, added to others. -/
def noteCvts (k : Counts) (l : List Cvt) : Counts := (k.1 + (l.filter (·.sat)).length, k.2 + (l.filter (·.ufl)).length)

/-- convert(QF, x, RNE) of FP32 codes. -/
def toQf (qf : Nat) (l : List Nat) : List Cvt := l.map (cvtCode 0 qf .rne false)

/-- The exact values of codes of a format. -/
def valsOf (fmt : Nat) (l : List Nat) : List FVal := l.map (codeVal fmt)

/-- rope(x, pos, σ) (R409), with σ = −1 where `inverse`. -/
def rope (inv : List Nat) (rDim : Nat) (split : Bool) (pos : Nat) (inverse : Bool) (x : List Nat) : List Nat :=
  (List.range (rDim / 2)).foldl (fun x k =>
    let a := if split then k else 2 * k
    let b := if split then k + rDim / 2 else 2 * k + 1
    let th := fp32.rne (FVal.mul (FVal.ofNat pos) (fp32.decode (inv.getD k 0)))
    let c := fp32.decode (transCos true th)
    let s0 := fp32.decode (transCos false th)
    let s := if inverse then FVal.neg s0 else s0
    let xa := fp32.decode (x.getD a 0)
    let xb := fp32.decode (x.getD b 0)
    (x.set a (fp32.rne (FVal.sub (FVal.mul xa c) (FVal.mul xb s)))).set b (fp32.rne (FVal.add (FVal.mul xa s) (FVal.mul xb c)))) x

/-- A chunk sum of R111 in FP32. -/
def chunkF32 (l : List (FVal × FVal)) : FVal :=
  l.foldl (fun s x => fp32.round (FVal.add s (FVal.mul x.1 x.2))) (.fin false 0 0)

/-- An R111 product added to an FP32 entry, with G = 128 and no scales. -/
def dotInto : Nat → List (FVal × FVal) → Nat → Nat
  | 0, _, acc => acc
  | n + 1, l, acc =>
    if l.isEmpty then acc else dotInto n (l.drop 128) (fp32.rne (FVal.add (fp32.decode acc) (chunkF32 (l.take 128))))

/-- The R111 dot product of two vectors of exact values. -/
def dotQ (x y : List FVal) : Nat := dotInto x.length (x.zip y) 0

/-- A page as a unit reads it: for each token below KV_LEN its key after rotation in QF, its value, and its scales. -/
structure KvPage where
  first : Nat
  k : List (List FVal)
  v : List (List FVal)
  ks : List Nat
  vs : List Nat
  deriving DecidableEq, Repr

/-- The score of token `t` (R412). -/
def scoreOf (p : AttendParams) (g : KvPage) (q : List FVal) (t : Nat) : Nat :=
  let z := dotQ q (g.k.getD t [])
  mulF32 (if p.fp8 then mulF32 z (g.ks.getD t 0) else z) p.scale

/-- A row's online softmax: m, l, o. -/
structure RowAcc where
  m : Nat
  l : Nat
  o : List Nat
  deriving DecidableEq, Repr

/-- The FP32 code of −∞. -/
def negInf : Nat := 0xFF800000

/-- One page of one row, forward (R412). A key that is not visible takes no part (R411). -/
def forwardPage (p : AttendParams) (g : KvPage) (q : List FVal) (vis : Nat → Bool) (r : RowAcc) (k : Counts) : RowAcc × Counts :=
  let ts := (List.range g.k.length).filter vis
  let z := ts.map (fun t => (t, scoreOf p g q t))
  let mb := z.foldl (fun a x => fp32.rne (FVal.greatest (fp32.decode a) (fp32.decode x.2))) negInf
  let mn := fp32.rne (FVal.greatest (fp32.decode r.m) (fp32.decode mb))
  if mn = negInf then (r, k)
  else
    let a := transExp2 0 (subF32 r.m mn)
    let pt := z.map (fun x => (x.1, transExp2 0 (subF32 x.2 mn)))
    let all := (List.range 128).map (fun t => ((pt.find? (fun x => decide (x.1 = t))).map (fun x => x.2)).getD 0)
    let pq := pt.map (fun x => (x.1, cvtCode 0 p.qFmt .rne false (if p.fp8 then mulF32 x.2 (g.vs.getD x.1 0) else x.2)))
    let w := valsOf p.qFmt (pq.map (fun x => x.2.code))
    let o := r.o.mapIdx (fun d od =>
      fmaF32 od a (dotQ w (pq.map (fun x => (g.v.getD x.1 []).getD d (.fin false 0 0)))))
    (⟨mn, fmaF32 r.l a (treeOf addF32 all), o⟩, noteCvts k (pq.map (fun x => x.2)))

/-- What a row writes at the end of a forward unit: its output codes and its LSE (R412, R413). -/
def forwardEnd (p : AttendParams) (r : RowAcc) : List Cvt × Nat :=
  if (fp32.decode r.l).isZero then (List.replicate p.d { code := 0 }, negInf)
  else
    let rl := transRcp 0 r.l
    (r.o.map (fun o => cvtCode 0 p.outFmt .rne true (mulF32 o rl)), addF32 r.m (transLog2 0 r.l))

/-- A row of a backward unit: its query row and head, q and dO in QF, Di, its LSE, dq so far. -/
structure RowGrad where
  q : List FVal
  dO : List FVal
  di : Nat
  lse : Nat
  dq : List Nat
  deriving DecidableEq, Repr

/-- Token `t` of one row, backward (R416): p and ds. -/
def backToken (p : AttendParams) (g : KvPage) (r : RowGrad) (t : Nat) : Nat × Nat :=
  let pv := transExp2 0 (subF32 (scoreOf p g r.q t) r.lse)
  let dp0 := dotQ r.dO (g.v.getD t [])
  let dp := if p.fp8 then mulF32 dp0 (g.vs.getD t 0) else dp0
  (pv, mulF32 (mulF32 pv (subF32 dp r.di)) p.scale)

/-- One page of one row, backward: the row with its dq, and for each visible token convert(QF, p) and convert(QF, ds). -/
def backwardPage (p : AttendParams) (g : KvPage) (vis : Nat → Bool) (r : RowGrad) (k : Counts) :
    RowGrad × List (Nat × FVal × FVal) × Counts :=
  let ts := ((List.range g.k.length).filter vis).map (fun t => (t, backToken p g r t))
  let sc := ts.map (fun x => cvtCode 0 p.qFmt .rne false (if p.fp8 then mulF32 x.2.2 (g.ks.getD x.1 0) else x.2.2))
  let w := valsOf p.qFmt (sc.map (·.code))
  let dq := r.dq.mapIdx (fun d a => dotInto 1 (w.zip (ts.map (fun x => (g.k.getD x.1 []).getD d (.fin false 0 0)))) a)
  let pc := toQf p.qFmt (ts.map (fun x => x.2.1))
  let dc := toQf p.qFmt (ts.map (fun x => x.2.2))
  let l := (ts.map (fun x => x.1)).zip ((valsOf p.qFmt (pc.map (·.code))).zip (valsOf p.qFmt (dc.map (·.code))))
  ({ r with dq := dq }, l, noteCvts k (sc ++ pc ++ dc))

/-- Di of a row: dO·O in ascending order, exact FP32 inputs (R416). -/
def rowDi (dO o : List Nat) : Nat := (dO.zip o).foldl (fun s x => fmaF32 x.1 x.2 s) 0

end Sys2Proof.Machine
end

