-- ==== Sys2Proof/Machine/StudBook.lean ====
section
/-! DEFINITION. The Stud Book's commands (chapter 11): PROMOTE, DEMOTE, REFRESH, and the fills between them. -/

namespace Sys2Proof

/-- Whether the fields of a PROMOTE or DEMOTE are out of range (chapter 11). -/
def PromoteParams.bad (p : PromoteParams) (demote : Bool) : Bool :=
  decide (p.maxNew = 0 ∨ 131072 < p.maxNew) ||
    (if p.explicit then decide (p.keys = 0 ∨ 4096 < p.keys) else !demote && decide (p.cand = 0 ∨ 4096 < p.cand))

end Sys2Proof

namespace Sys2Proof.Machine

/-! ### Gather and select (R314, R317) -/

/-- Highest heat first, ties in ascending key. -/
def hotFirst (a b : Nat × Nat) : Bool := decide (b.2 < a.2) || (decide (a.2 = b.2) && decide (a.1 ≤ b.1))

/-- Lowest heat first, ties in ascending key. -/
def coldFirst (a b : Nat × Nat) : Bool := decide (a.2 < b.2) || (decide (a.2 = b.2) && decide (a.1 ≤ b.1))

/-- Whether a table of a context is one of group `g`. -/
def Block.tableOf (b : Block) (ctx t g : Nat) : Bool :=
  match b.table? ctx t with
  | some d => decide (d.shard ≠ 0) && decide (d.group = g)
  | none => false

/-- What this member contributes in AUTO mode: keys with their heat. -/
def Block.sbOwn (b : Block) (ctx : Nat) (p : PromoteParams) (demote : Bool) : List (Nat × Nat) :=
  let es := b.beater.book.map (fun x => x.2)
  if demote then
    orderBy (fun x y => decide (x.1 ≤ y.1)) ((es.filter (fun e => e.ofGroup p.group && decide (e.state = sbReplicated))).map (fun e => (e.key, e.heat)))
  else
    (orderBy hotFirst ((es.filter (fun e => e.valid && decide (e.state = sbAbsent) && decide (e.ctx = ctx) && b.tableOf ctx e.table p.group)).map
      (fun e => (e.key, e.heat)))).take p.cand

/-- A member's contribution: mode, HEAT, MAX_NEW, and its keys with their heat. -/
def sbOffer (p : PromoteParams) (l : List (Nat × Nat)) : List Byte :=
  bytesOf 1 (b2n p.explicit) ++ bytesOf 4 p.heat ++ bytesOf 4 p.maxNew ++ l.flatMap (fun k => bytesOf 8 k.1 ++ bytesOf 4 k.2)

/-- The keys of a contribution with their heat. -/
def offered (bs : List Byte) : List (Nat × Nat) :=
  (List.range ((bs.length - 9) / 12)).map (fun i => (field bs (9 + 12 * i) 8, field bs (17 + 12 * i) 4))

/-- A key's heat added to those of the keys before it, in ascending key order. -/
def addHeat (k : Nat × Nat) : List (Nat × Nat) → List (Nat × Nat)
  | [] => [k]
  | y :: l => if k.1 = y.1 then (y.1, y.2 + k.2) :: l else if k.1 < y.1 then k :: y :: l else y :: addHeat k l

/-- The state of a key's entry; ABSENT without one. -/
def Block.sbState (b : Block) (ctx k : Nat) : Nat :=
  match b.sbFind ctx k with
  | some i => (b.sb i).state
  | none => sbAbsent

/-- The contribution of member `i`. -/
def Coll.offer (x : Coll) (i : Nat) : List Byte := if i = x.self then x.own else x.stream 0 i

/-- The keys selected from what every member contributed, with the lowest-indexed member's mode, HEAT and MAX_NEW. -/
def Block.sbSelect (b : Block) (x : Coll) (demote : Bool) : List Nat :=
  let h := x.offer 0
  let explicit := decide (field h 0 1 = 1)
  let limit := field h 1 4
  let sum := ((List.range x.ranks.length).flatMap (fun i => offered (x.offer i))).foldl (fun a k => addHeat k a) []
  let st := fun (k : Nat × Nat) => b.sbState x.ctx k.1
  let l := if demote then
      if explicit then sum.filter (fun k => decide (st k = sbReplicated ∨ st k = sbFilling))
      else orderBy coldFirst (sum.filter (fun k => decide (k.2 < limit) && decide (st k = sbReplicated)))
    else
      let free := sum.filter (fun k => !decide (st k = sbReplicated ∨ st k = sbFilling))
      if explicit then free else orderBy hotFirst (free.filter (fun k => decide (limit ≤ k.2)))
  (l.take (field h 5 4)).map (fun k => k.1)

/-! ### Accept (R315) -/

/-- Whether this member takes a selected key: 0 refused, 1 taken, 2 + s taken with slot `s` reserved. A key without an entry
gets a tracked one. -/
def Block.sbTake (b : Block) (ctx g k : Nat) : Nat × Block :=
  match b.table? ctx (keyTable k) with
  | none => (0, b)
  | some d =>
    match b.rowOwner d (keyRow k) with
    | none => (0, b)
    | some (_, _, own) =>
      let found := b.sbFind ctx k
      let kept := decide (b.sbState ctx k = sbDraining)
      let way := match found with
        | some i => some i
        | none => (b.freeWay (sbSet ctx k)).orElse (fun _ => b.coldest (sbSet ctx k))
      if !b.tableOf ctx (keyTable k) g ∨ d.rows ≤ keyRow k ∨ b.rget .BEATER_SB_POOL_CFG_SLOT_UNITS ctx * 64 < d.recBytes then (0, b)
      else
        match way, (if own || kept then some 1 else (b.sbFreeSlot ctx).map (fun s => s + 2)) with
        | some i, some v => (v, if found.isSome then b else b.setSb i (trackedEntry ctx k g 0))
        | _, _ => (0, b)

/-- This member's decisions on the selected keys, kept in the collective. -/
def Block.sbDecide (b : Block) (tag g : Nat) (demote : Bool) (ks : List Nat) : Block :=
  ks.foldl (fun b k =>
    match b.coll tag with
    | some x =>
      let r := if demote then (1, b) else b.sbTake x.ctx g k
      let b := if r.1 = 0 then r.2.count .BEATER_SB_REFUSED_COUNT 0 1 else r.2
      (b.onColl tag (fun x => { x with keys := x.keys ++ [(k, r.1)] })).sbRegs
    | none => b) b

/-- A key enters FILLING here. -/
def Block.sbPromote (b : Block) (ctx g k v : Nat) : Block :=
  match b.sbFind ctx k with
  | none => b
  | some i =>
    let e := b.sb i
    let own := match (b.table? ctx (keyTable k)).bind (fun d => b.rowOwner d (keyRow k)) with
      | some o => o.2.2
      | none => false
    (b.setSb i { e with state := sbFilling, owner := own, group := g, filled := false, stale := false
                        slot := if own then sbNoSlot else if e.state = sbDraining then e.slot else v - 2 }).count .BEATER_SB_PROMOTED_COUNT 0 1

/-- A key enters DRAINING here. -/
def Block.sbDemote (b : Block) (ctx k : Nat) : Block :=
  match b.sbFind ctx k with
  | none => b
  | some i => let e := b.sb i; (b.setSb i { e with state := sbDraining }).count .BEATER_SB_DEMOTED_COUNT 0 1

/-- The generation of a group advances (R311). -/
def Block.sbGenUp (b : Block) (g : Nat) : Block :=
  match b.sbGroup g with
  | some i => b.rset .BEATER_SB_GROUP_GEN i ((b.rget .BEATER_SB_GROUP_GEN i + 1) % 2 ^ 32)
  | none => b

/-- The step counter of a group (R318). -/
def Block.sbStep (b : Block) (g : Nat) : Nat :=
  match b.sbGroup g with
  | some i => b.rget .BEATER_SB_GROUP_STEP i
  | none => 0

/-- The output of a PROMOTE or DEMOTE. -/
def sbOutput (c : Cmd) (p : PromoteParams) (own selected : Nat) (done : List Nat) : Act Unit := do
  if p.out then writeVa (c.req 0 0) p.outVa (done.flatMap (bytesOf 8))
  if p.stats then writeVa (c.req 0 0) p.statsVa ([own, selected, selected - done.length, done.length].flatMap (bytesOf 8))

/-- A PROMOTE or DEMOTE has every decision: it changes the entries, and ends. -/
def Block.sbClose (b : Block) (tag : Nat) (c : Cmd) (p : PromoteParams) (demote : Bool) : Block :=
  match b.coll tag with
  | none => b
  | some x =>
    let yes := fun (j : Nat) => x.others.all (fun i => decide (field (x.stream 1 i) j 1 = 1))
    let done := (x.keys.zipIdx.filter (fun k => decide (k.1.2 ≠ 0) && yes k.2)).map (fun k => k.1)
    let b := done.foldl (fun b k => if demote then b.sbDemote c.ctx k.1 else b.sbPromote c.ctx p.group k.1 k.2) b
    let b := ((b.onColl tag (fun x => { x with keys := [] })).sbGenUp p.group).sbRegs
    let b := b.collAct tag c.opcode (sbOutput c p (offered x.own).length x.keys.length (done.map (fun k => k.1)))
    b.endColl tag x.okStatus 0 (halves done.length (if demote then 0 else x.keys.length - done.length))

/-- A PROMOTE or DEMOTE goes as far as it can. Legs: 0 contributions, 1 decisions. -/
def Block.sbAdvance (b : Block) (tag : Nat) (c : Cmd) (p : PromoteParams) (demote : Bool) : Block :=
  match b.coll tag with
  | some x =>
    if b.collRuns x then
      let b := if x.phase = 0 ∧ x.gotAll 0 then
          let b := b.sbDecide tag p.group demote (b.sbSelect x demote)
          (b.onColl tag (fun y =>
            let bs := y.keys.flatMap (fun k => bytesOf 1 (b2n (decide (k.2 ≠ 0))))
            y.others.foldl (fun y i => y.post i 1 bs)
              { y with phase := 1, outs := y.outs ++ (if p.out then [(p.outVa, 8 * y.keys.length)] else []) })).pump tag
        else b
      match b.coll tag with
      | some y => if b.collRuns y && decide (y.phase = 1) && decide (y.outq = []) && y.gotAll 1 then b.sbClose tag c p demote else b
      | none => b
    else b
  | none => b

/-- What this member contributes. -/
def Block.sbKeys (b : Block) (c : Cmd) (p : PromoteParams) (demote : Bool) : Act (List (Nat × Nat)) :=
  if p.explicit then do
    let bs ← readVa (c.req 0 0) p.keyVa (8 * p.keys)
    let l := (List.range p.keys).map (fun i => (field bs (8 * i) 8, 0))
    if l.any (fun k => decide (2 ^ 52 ≤ k.1)) then throw (.fin 0x0100 0)
    return l
  else return b.sbOwn c.ctx p demote

/-- A collective of the Stud Book with its group: its entry of BEATER_SB_GROUP, or RANGE for a 65th group; `outs` are its outputs. -/
def Block.sbBegin (c : Cmd) (g e k : Nat) (bad : List Nat) (outs : List (Nat × Nat)) (own : Block → Act (List Byte)) (gs : GroupSt) (b : Block) : Block :=
  match b.sbGroupOr g with
  | none => b.finish c.id 0x0100 0 0
  | some (_, b) =>
    let tag := tagOf g e k
    let b := b.sbFails bad
    b.withAct c.id 0x2006 (own b) (fun bs b =>
      let x := { newColl c tag gs (c.digest gs []) 1 b.clk.t with own := bs, outs := outs }
      let b := (b.beginColl (x.others.foldl (fun x i => x.post i 0 bs) x)).setRunning c.id
      b.openColl tag x.others)

/-- Whether the replica pool of a context is mapped and writable (R303). -/
def Block.poolOk (b : Block) (ctx : Nat) : Bool :=
  b.mappedFor ctx (b.rget .BEATER_SB_POOL_VA_VA ctx * 64) (b.rget .BEATER_SB_POOL_CFG_SLOTS ctx * b.rget .BEATER_SB_POOL_CFG_SLOT_UNITS ctx * 64)

/-- PROMOTE or DEMOTE at its start. -/
def Block.startPromote (c : Cmd) (p : PromoteParams) (demote : Bool) (bad : List Nat) (b : Block) : Block :=
  if p.bad demote || (!demote && !b.poolOk c.ctx) then (b.unhold c.id).finish c.id 0x0100 0 0
  else b.collStart c p.group p.epoch p.bucket false (fun gs b =>
    (Block.sbBegin c p.group p.epoch p.bucket bad (if p.stats then [(p.statsVa, 32)] else []) (fun b => (fun l => sbOffer p l) <$> b.sbKeys c p demote) gs b).sbAdvance
      (tagOf p.group p.epoch p.bucket) c p demote)

/-- PROMOTE (R314, R315): `bad` the entries that fail their CRC check as it reads them. -/
def execPromote (id : Nat) (p : PromoteParams) (bad : List Nat) (s : State) : Host.Outcome State Fault Refusal :=
  s.run (fun b => b.runCmd id (.promote p) beaterCollReady (fun c b => (b.startPromote c p false bad).beaterRegs))

/-- DEMOTE (R317). -/
def execDemote (id : Nat) (p : PromoteParams) (bad : List Nat) (s : State) : Host.Outcome State Fault Refusal :=
  s.run (fun b => b.runCmd id (.demote p) beaterCollReady (fun c b => (b.startPromote c p true bad).beaterRegs))

/-! ### REFRESH (R318, R320) -/

/-- Whether this module can still read an entry: its set has not failed for the group (R319). -/
def Block.sbReadable (b : Block) (i : Nat) : Bool := !b.beater.failed.contains ((b.sb i).group, i / 16)

/-- What a member tells the others: its DEGRADED flag, and its readable group entries with key, state, owner flag, VERSION. -/
def Block.refreshOffer (b : Block) (g : Nat) : List Byte :=
  bytesOf 1 (b2n (b.sbDegraded g)) ++ ((b.sbWhere (fun e => e.ofGroup g)).filter b.sbReadable).flatMap (fun i =>
    let e := b.sb i
    bytesOf 8 e.key ++ bytesOf 1 (e.state + 4 * b2n e.owner) ++ bytesOf 2 e.version)

/-- An entry of such a list. -/
structure ToldEntry where
  key : Nat
  state : Nat
  owner : Bool
  version : Nat
  deriving DecidableEq, Repr

/-- The entries of a member's list. -/
def toldEntries (bs : List Byte) : List ToldEntry :=
  (List.range ((bs.length - 1) / 11)).map (fun i =>
    ⟨field bs (1 + 11 * i) 8, field bs (9 + 11 * i) 1 % 4, decide (4 ≤ field bs (9 + 11 * i) 1), field bs (10 + 11 * i) 2⟩)

/-- The lowest-indexed member without the DEGRADED flag (R320). -/
def Coll.soundMember (x : Coll) : Option Nat :=
  (List.range x.ranks.length).find? (fun i => decide (field (x.offer i) 0 1 = 0))

/-- Whether any member is DEGRADED. -/
def Coll.anyDegraded (x : Coll) : Bool := (List.range x.ranks.length).any (fun i => decide (field (x.offer i) 0 1 = 1))

/-- The owner's VERSION of a key: as the owner told it, else as the sound member's entry has it. -/
def Coll.versionOf (x : Coll) (k owner : Nat) : Option Nat :=
  let of := fun (i : Nat) => ((toldEntries (x.offer i)).find? (fun e => decide (e.key = k))).map (fun e => e.version)
  (of owner).orElse (fun _ => x.soundMember.bind of)

/-- One entry of a rebuilt directory: its state as told, a slot allocated anew. -/
def Block.rebuildEntry (b : Block) (x : Coll) (g : Nat) (old : List SbEntry) (t : ToldEntry) : Block :=
  let was := old.find? (fun e => decide (e.key = t.key))
  let way := (b.sbFind x.ctx t.key).orElse (fun _ => (b.freeWay (sbSet x.ctx t.key)).orElse (fun _ => b.coldest (sbSet x.ctx t.key)))
  match way, (b.table? x.ctx (keyTable t.key)).bind (fun d => b.rowOwner d (keyRow t.key)) with
  | some i, some (o, _, own) =>
    b.setSb i { SbEntry.free with
      valid := true, row := keyRow t.key, table := keyTable t.key, ctx := x.ctx, state := t.state, owner := own, group := g
      slot := if own then sbNoSlot else (b.sbFreeSlot x.ctx).getD sbNoSlot
      version := if own then (was.map (fun e => e.version)).getD ((x.versionOf t.key o).getD 0) else t.version
      heat := (was.map (fun e => e.heat)).getD 0 }
  | _, _ => b

/-- A degraded member rebuilds its group entries from the sound member's list (R320). -/
def Block.rebuild (b : Block) (x : Coll) (g : Nat) : Block :=
  match b.sbDegraded g, x.soundMember with
  | true, some i =>
    let old := ((b.sbWhere (fun e => e.ofGroup g)).filter b.sbReadable).map b.sb
    (toldEntries (x.offer i)).foldl (fun b t => b.rebuildEntry x g old t) (b.sbFreeWhere (fun e => e.ofGroup g))
  | _, _ => b

/-- What a REFRESH does with an entry on this member (R318): the owner's member number and VERSION, and whether the record is
copied. -/
def Block.refreshNeed (b : Block) (x : Coll) (g : Nat) (force : Bool) (i : Nat) : Option (Nat × Nat × Bool) :=
  let e := b.sb i
  if e.owner then none
  else
    match (b.table? x.ctx e.table).bind (fun d => b.rowOwner d e.row) with
    | none => none
    | some (o, _, _) =>
      let v := (x.versionOf e.key o).getD e.version
      if e.state = sbFilling then some (o, v, !e.filled || precedes 16 e.fillVer v)
      else if e.state = sbReplicated then
        if e.stale ∨ force ∨ (b.sbStep g + i / 16) % max 1 (b.rget .BEATER_SB_CFG_REFRESH_EVERY) = 0 then some (o, v, true) else none
      else none

/-- REFRESH with every member's list: the directory rebuilt where it must be, the records asked for. -/
def Block.refreshAsk (b : Block) (tag : Nat) (p : RefreshParams) : Block :=
  match b.coll tag with
  | none => b
  | some x =>
    let b := b.rebuild x p.group
    let force := p.forceAll || x.anyDegraded
    let ks := (b.sbWhere (fun e => e.ofGroup p.group)).filterMap (fun i =>
      match b.refreshNeed x p.group force i with
      | some (o, _, true) => some ((b.sb i).key, 2 + o)
      | _ => none)
    (b.onColl tag (fun y => y.others.foldl (fun y i => y.post i 1 ((y.keysOf i).flatMap (bytesOf 8))) { y with phase := 1, keys := ks })).pump tag

/-- A record of this module for a replica: a byte that says whether it could be read, and its bytes. -/
def refreshServe (c : Cmd) (k : Nat) : Act (List Byte) := do
  let b ← get
  match b.table? c.ctx (keyTable k) with
  | none => return [1]
  | some d =>
    match (← attempt (readVa (c.req 0 0) (b.recordVa c.ctx k false) d.recBytes)) with
    | .ok bs => return [0] ++ bs
    | .error _ => return [1]

/-- REFRESH goes on. Legs: 0 lists, 1 requests, 2 records. -/
def refreshStep (tag : Nat) (c : Cmd) : Act Unit := do
  let x ← theColl tag
  x.others.forM (fun i => do
    let x ← theColl tag
    if x.fresh 1 i then
      collActed tag 1 i
      let bs := x.stream 1 i
      let l ← (List.range (bs.length / 8)).mapM (fun j => refreshServe c (field bs (8 * j) 8))
      if bs ≠ [] then collSet tag (fun x => x.post i 2 l.flatten))

/-- The records of an owner's reply, in the order of the request. -/
def recordRows (b : Block) (ctx : Nat) : List Nat → List Byte → List (Nat × List Byte)
  | [], _ => []
  | k :: ks, bs =>
    let n := ((b.table? ctx (keyTable k)).map TableParams.recBytes).getD 0
    if field bs 0 1 = 0 then (k, (bs.drop 1).take n) :: recordRows b ctx ks (bs.drop (1 + n)) else recordRows b ctx ks (bs.drop 1)

/-- What a REFRESH has done: entries made REPLICATED, fills completed here, re-reads, re-copies, drained, and the first error of a
write. -/
structure Refreshed where
  made : Nat := 0
  fills : Nat := 0
  reread : Nat := 0
  copied : Nat := 0
  drained : Nat := 0
  err : Option AccErr := none

/-- A record into a replica's slot; whether it landed. -/
def Block.refreshWrite (b : Block) (c : Cmd) (ctx slot : Nat) (r : Option (Nat × List Byte)) : Option (Option AccErr) × Block :=
  match r with
  | none => (none, b)
  | some (_, bs) =>
    match (writeVa (c.req 0 0) (b.sbSlotVa ctx slot) bs) b with
    | (.ok _, b) => (some none, b)
    | (.error e, b) => (some (some e), b)

/-- One group entry under REFRESH (R318). -/
def Block.refreshEntry (c : Cmd) (x : Coll) (g : Nat) (force : Bool) (rows : List (Nat × List Byte)) (a : Refreshed × Block) (i : Nat) :
    Refreshed × Block :=
  let b := a.2
  let e := b.sb i
  let r := if e.state = sbFilling then { a.1 with made := a.1.made + 1, fills := a.1.fills + b2n (!e.owner) } else a.1
  if e.state = sbDraining then
    ({ r with drained := r.drained + 1 },
      b.setSb i { e with state := sbAbsent, owner := false, slot := sbNoSlot, filled := false, stale := false })
  else
    match b.refreshNeed x g force i with
    | none => (r, if e.state = sbFilling then b.setSb i { e with state := sbReplicated, stepAt := b.sbStep g } else b)
    | some (_, v, copy) =>
      let b := if e.state = sbReplicated ∧ e.version ≠ v then b.count .BEATER_SB_SKEW_COUNT 0 1 else b
      if copy then
        let w := b.refreshWrite c x.ctx e.slot (rows.find? (fun y => decide (y.1 = e.key)))
        let ok := decide (w.1 = some none)
        let r := { r with err := r.err.orElse (fun _ => w.1.bind (fun y => y)) }
        let r := if e.state = sbFilling then { r with reread := r.reread + b2n ok } else { r with copied := r.copied + b2n ok }
        let b := if ok then w.2.count .BEATER_SB_REREADS_COUNT 0 1 else w.2
        (r, b.setSb i { e with state := sbReplicated, version := v, fillVer := if e.state = sbFilling then v else e.fillVer
                               filled := false, stale := !ok, stepAt := b.sbStep g })
      else (r, b.setSb i { e with state := sbReplicated, version := v, filled := false, stepAt := b.sbStep g })

/-- The heat of every entry of a group decays (R306). -/
def Block.sbDecay (b : Block) (g : Nat) : Block :=
  let n := b.rget .BEATER_SB_CFG_DECAY
  (b.sbWhere (fun e => e.valid && decide (e.group = g))).foldl (fun b i => let e := b.sb i; b.setSb i { e with heat := e.heat / 2 ^ n }) b

/-- A REFRESH has every record: it changes the entries, and ends. -/
def Block.refreshClose (b : Block) (tag : Nat) (c : Cmd) (p : RefreshParams) : Block :=
  match b.coll tag with
  | none => b
  | some x =>
    let rows := x.others.flatMap (fun o => recordRows b c.ctx (x.keysOf o) (x.stream 2 o))
    let r := (b.sbWhere (fun e => e.ofGroup p.group)).foldl (Block.refreshEntry c x p.group (p.forceAll || x.anyDegraded) rows) ({}, b)
    let b := r.2.sbDecay p.group
    let b := { b with beater := { b.beater with failed := b.beater.failed.filter (fun f => !decide (f.1 = p.group)) } }
    let b := match b.sbGroup p.group with
      | some i => (b.rset .BEATER_SB_GROUP_STEP i ((b.rget .BEATER_SB_GROUP_STEP i + 1) % 2 ^ 32)).rset .BEATER_SB_GROUP_DEGRADED i 0
      | none => b
    let b := b.sbGenUp p.group
    let b := if p.stats then
        b.collAct tag c.opcode (writeVa (c.req 0 0) p.statsVa ([r.1.fills, r.1.reread, r.1.copied, r.1.drained].flatMap (bytesOf 8)))
      else b
    match r.1.err with
    | some e => b.collAct tag c.opcode (throw e)
    | none => b.endColl tag x.okStatus 0 (halves r.1.made r.1.copied)

/-- Whether member `i` has sent all that this one awaits of it. -/
def Coll.refreshGot (x : Coll) (i : Nat) : Bool :=
  x.got 0 i && x.acted.contains (streamKey 1 i) && (decide (x.keysOf i = []) || x.got 2 i)

/-- A REFRESH goes as far as it can. -/
def Block.refreshAdvance (b : Block) (tag : Nat) (c : Cmd) (p : RefreshParams) : Block :=
  match b.coll tag with
  | some x =>
    if b.collRuns x then
      let b := if x.phase = 0 ∧ x.gotAll 0 then b.refreshAsk tag p else b
      let b := (b.collAct tag c.opcode (refreshStep tag c)).pump tag
      match b.coll tag with
      | some y =>
        if b.collRuns y && decide (y.phase = 1) && decide (y.outq = []) && y.others.all (fun i => y.refreshGot i) then b.refreshClose tag c p
        else b
      | none => b
    else b
  | none => b

/-- REFRESH at its start. -/
def Block.startRefresh (c : Cmd) (p : RefreshParams) (bad : List Nat) (b : Block) : Block :=
  b.collStart c p.group p.epoch p.bucket false (fun gs b =>
    (Block.sbBegin c p.group p.epoch p.bucket bad (if p.stats then [(p.statsVa, 32)] else []) (fun b => return b.refreshOffer p.group) gs b).refreshAdvance
      (tagOf p.group p.epoch p.bucket) c p)

/-- REFRESH (R318). -/
def execRefresh (id : Nat) (p : RefreshParams) (bad : List Nat) (s : State) : Host.Outcome State Fault Refusal :=
  s.run (fun b => b.runCmd id (.refresh p) beaterCollReady (fun c b => (b.startRefresh c p bad).beaterRegs))

/-! ### Fills (R316) -/

/-- This module asks the owner for the record of a FILLING entry. -/
def Block.fillAsk (b : Block) (ctx g slot key : Nat) : Block :=
  match b.sbFind ctx key, b.group? g with
  | some i, some gs =>
    let e := b.sb i
    match (b.table? ctx e.table).bind (fun d => b.rowOwner d e.row) with
    | some (o, _, false) =>
      if e.state = sbFilling ∧ e.group = g ∧ e.slot = slot ∧ !e.filled then b.tell (gs.ranks.getD o 0) 3 ctx (.fillRequest g slot key) else b
    | _ => b
  | _, _ => b

/-- The owner answers a fill request: its entry's VERSION and the whole record. -/
def Block.fillServe (b : Block) (src ctx g slot key : Nat) : Block :=
  match b.table? ctx (keyTable key), b.sbFind ctx key with
  | some d, some i =>
    match b.rowOwner d (keyRow key) with
    | some (_, _, true) =>
      let q : Req := ⟨⟨0x052, ctx, none, none⟩, 0, 0, 10⟩
      match (readVa q (b.recordVa ctx key false) d.recBytes) b with
      | (.ok bs, b) => b.tell src 3 ctx (.fillReply g slot key (b.sb i).version bs)
      | (.error _, b) => b
    | _ => b
  | _, _ => b

/-- A fill read (R316): `src` none, this module sends it; else the request of rank `src` arrives and is served. -/
def execFillRequest (src : Option Nat) (ctx group slot key : Nat) (s : State) : Host.Outcome State Fault Refusal :=
  s.run (fun b =>
    if b.net.silent then b
    else match src with
      | none => b.fillAsk ctx group slot key
      | some r => b.fillServe r ctx group slot key)

/-- A fill reply lands (R316), or is discarded. -/
def Block.fillLand (b : Block) (ctx g slot key version : Nat) (bs : List Byte) : Block :=
  match b.sbFind ctx key with
  | some i =>
    let e := b.sb i
    if e.state = sbFilling ∧ e.group = g ∧ e.slot = slot ∧ !e.owner ∧ !e.filled then
      let q : Req := ⟨⟨0x052, ctx, none, none⟩, 0, 0, 10⟩
      match (writeVa q (b.sbSlotVa ctx slot) bs) b with
      | (.ok _, b) => b.setSb i { e with filled := true, fillVer := version % 2 ^ 16, stepAt := b.sbStep g }
      | (.error _, b) => b
    else b
  | none => b

/-- A fill reply (R316). -/
def execFillReply (ctx group slot key version : Nat) (record : List (BitVec 8)) (s : State) : Host.Outcome State Fault Refusal :=
  s.run (fun b => if b.net.silent then b else b.fillLand ctx group slot key version record)

/-! ### BEATER_SB_PEEK_IDX -/

/-- A write of BEATER_SB_PEEK_IDX (R301). -/
def execBeaterSbPeekIdx (value : BitVec 32) (s : State) : Host.Outcome State Fault Refusal :=
  s.run (fun b => b.barWrite 0xD81000 (fun b => b.sbPeek (value.toNat % 2 ^ 17)))

end Sys2Proof.Machine
end

