-- ==== Sys2Proof/Machine/RelayUnit.lean ====
section
/-! DEFINITION. What reaches the Relay from the other modules, and its timers (R364, R368 to R370, R386, R389, R391, R392), for the
collectives of every engine (R557). -/

namespace Sys2Proof.Machine

/-! ### What a collective awaits -/

/-- The legs of streams that a collective receives from member `i`. -/
def Block.legsFrom (b : Block) (x : Coll) (i : Nat) : List Nat :=
  let n := x.ranks.length
  let prev := (x.self + n - 1) % n
  match (x.cmd.bind b.findCmd).map (fun (c : Cmd) => c.params) with
  | some (.allReduce p) => red p false prev n
  | some (.reduceScatter p) => red p true prev n
  | some (.allGather _) => [0]
  | some (.broadcast p) => if x.self ≠ p.root ∧ i = prev then [0] else []
  | some (.allToAllV _) => [0, 1] ++ (if x.small then [] else if x.got 0 i ∧ field (x.stream 0 i) 0 8 = 0 then [] else [2])
  | some (.permute _) => if x.moveSources.contains i then [0] else []
  | some (.lookupPool _) =>
    [0] ++ (if x.got 0 i ∧ field (x.stream 0 i) 0 8 = 0 then [] else [1]) ++ (if x.keysOf i = [] then [] else [2])
  | some (.exchange _) => [0, 1] ++ (if x.small then [] else if x.got 0 i ∧ field (x.stream 0 i) 0 8 = 0 then [] else [2])
  | some (.promote _) => [0, 1]
  | some (.demote _) => [0, 1]
  | some (.refresh _) => [0, 1] ++ (if x.phase = 1 ∧ x.keysOf i = [] then [] else [2])
  | some (.fetch p) =>
    match b.shard? x.ctx p.shard with
    | some s => if i = s.p.owner then [0] else []
    | none => []
  | some (.normReduce _) => if x.self = 0 then [0] else if i = 0 then [1] else []
  | _ => []
where
  red (p : CollParams) (scatter : Bool) (prev n : Nat) : List Nat :=
    let cs := p.chunkList n
    match x.phase with
    | 1 => if i ≠ prev then [] else (cs.filter (fun j => !decide (j = prev))).map (fun j => 2 * j) ++
        (if scatter then [] else (cs.filter (fun j => !decide (j = x.self))).map (fun j => 2 * j + 1))
    | 2 => if i = 2 * x.self + 1 ∨ i = 2 * x.self + 2 then [0] else if x.self ≠ 0 ∧ i = (x.self - 1) / 2 then [1] else []
    | _ => (if (p.chunkAt n x.self).2 = 0 then [] else [2 * x.self]) ++ (if scatter ∨ !cs.contains i then [] else [2 * i + 1])

/-- The members from which a collective awaits data. -/
def Block.awaited (b : Block) (x : Coll) : List Nat :=
  x.others.filter (fun i => (b.legsFrom x i).any (fun l => !x.got l i))

/-! ### Going on -/

/-- A collective of any engine goes as far as it can. -/
def Block.advanceColl (b : Block) (tag : Nat) : Block :=
  match b.coll tag with
  | none => b
  | some x =>
    if x.passes = 0 then if x.outq = [] then b.dropColl tag else b
    else
      match x.cmd.bind b.findCmd with
      | none => b
      | some c =>
        match c.params with
        | .allReduce p => b.redAdvance tag c p false
        | .reduceScatter p => b.redAdvance tag c p true
        | .allGather p => b.gatherAdvance tag c p
        | .broadcast p => b.bcastAdvance tag c p
        | .allToAllV p => b.a2aAdvance tag c p
        | .permute p => b.permuteAdvance tag c p
        | .lookupPool p => b.lookAdvance tag c p
        | .exchange p => b.exAdvance tag c p
        | .promote p => b.sbAdvance tag c p false
        | .demote p => b.sbAdvance tag c p true
        | .refresh p => b.refreshAdvance tag c p
        | .fetch p =>
          match b.shard? c.ctx p.shard with
          | some s => b.fetchAdvance tag c p s.p.owner
          | none => b
        | .normReduce _ => b.normAdvance tag
        | _ => b

/-! ### Units (R368, R392) -/

/-- A detection in the Relay: its error-log entry, class 0x06. -/
def relayErr (x : Coll) (c : Option Cmd) (outcome status : Nat) : ErrIn :=
  { source := 0x054, cls := 0x06, outcome := outcome, status := status, ctx := x.ctx, cmd := c.map (fun c => (c.ring, c.seq)) }

/-- A detection in a unit (R392): the first discards it and asks for it again, a second ends the collective. -/
def Block.unitDetected (b : Block) (x : Coll) (i key index : Nat) (leg : Nat) : Block :=
  if x.dets.any (fun d => decide (d.1 = key) && decide (d.2.1 = index)) then
    (b.errLog (relayErr x (x.cmd.bind b.findCmd) 1 0x0FFF)).endColl x.tag 0x0FFF 0 0
  else (b.setColl { x with dets := x.dets ++ [(key, index, b.clk.t)] }).tell (x.ranks.getD i 0) x.cls x.ctx (.again x.tag leg index)

/-- A sound unit enters its stream. -/
def Block.unitTaken (b : Block) (x : Coll) (i key leg : Nat) (last : Bool) (body : List Byte) : Block :=
  let index := Sparse.get (always 0) x.units key
  let again := x.dets.any (fun d => decide (d.1 = key) && decide (d.2.1 = index))
  let y := { x with streams := Sparse.set (always []) x.streams key (x.stream leg i ++ body)
                    units := Sparse.set (always 0) x.units key (index + 1)
                    ended := if last then x.ended ++ [key] else x.ended
                    recovered := x.recovered || again }
  let b := (b.setColl y).count .RELAY_BYTES_RX_COUNT 0 body.length
  let b := if again then b.absorbed (relayErr x (x.cmd.bind b.findCmd) 0 0x0002) else b
  let b := b.advanceColl x.tag
  b.regrant x.tag i ((b.coll x.tag).map b.awaited |>.getD [])

/-- A unit of member rank `src` arrives: the next one of its stream, for which `src` holds credit. -/
def Block.unitArrives (b : Block) (src tag leg index : Nat) (last : Bool) (body : List Byte) (det : Bool) : Block :=
  match b.coll tag with
  | none => b
  | some x =>
    match x.ranks.findIdx? (fun r => decide (r = src)) with
    | none => b
    | some i =>
      let key := streamKey leg i
      if index ≠ Sparse.get (always 0) x.units key ∨ Sparse.get (always 0) x.grants i = 0 ∨ x.got leg i then b
      else if det then b.unitDetected x i key index leg
      else b.unitTaken x i key leg last body

/-- A unit of collective data arrives (R392): `det` with a detection in the receive buffer or the datapath. -/
def execRelayUnitArrival (src tag leg index : Nat) (last : Bool) (body : List (BitVec 8)) (det : Bool) (s : State) :
    Host.Outcome State Fault Refusal :=
  s.run (fun b => if b.net.silent then b else (b.unitArrives src tag leg index last body det).beaterRegs)

/-- A unit is asked for again by rank `src` (R392): it is sent as it was. -/
def Block.unitAgain (b : Block) (src tag leg index : Nat) : Block :=
  match b.net.sent.reverse.find? (fun o => decide (o.dst = src) && (match o.msg with
      | .unit t l k _ _ => decide (t = tag) && decide (l = leg) && decide (k = index)
      | _ => false)) with
  | some o => (b.tell src o.cls o.ctx o.msg).count .RELAY_RESENDS_COUNT 0 1
  | none => b

/-! ### Credits (R368 to R370) -/

/-- A credit of rank `src` arrives. -/
def Block.creditArrives (b : Block) (src tag digest units : Nat) : Block :=
  match b.coll tag with
  | some _ => (b.takeCredit tag src digest units).advanceColl tag
  | none =>
    if b.relay.pending.length < 4096 then
      { b with relay := { b.relay with pending := b.relay.pending ++ [(src, tag, digest, units)] } }
    else (b.count .RELAY_CREDIT_REFUSED_COUNT 0 1).tell src 1 0 (.refuse tag)

/-- A credit arrives (R368 to R370). -/
def execCreditGrant (src tag digest units : Nat) (s : State) : Host.Outcome State Fault Refusal :=
  s.run (fun b => if b.net.silent then b else (b.creditArrives src tag digest units).beaterRegs)

/-- Rank `src` refuses this module's credit for a tag (R370). -/
def Block.creditRefused (b : Block) (src tag : Nat) : Block :=
  { b with relay := { b.relay with refusals := b.relay.refusals ++ [(src, tag, b.clk.t)] } }

/-- A refused credit goes again, 10 µs after its refusal (R370), while its collective is in flight. -/
def execCreditRetry (dst tag : Nat) (s : State) : Host.Outcome State Fault Refusal :=
  s.run (fun b =>
    match b.relay.refusals.find? (fun r => decide (r.1 = dst) && decide (r.2.1 = tag)) with
    | none => b
    | some r =>
      let b := b.advanceTo (r.2.2 + 10 * usec)
      let b := { b with relay := { b.relay with refusals := b.relay.refusals.filter (fun y => !decide (y = r)) } }
      match b.coll tag with
      | some x =>
        match x.ranks.findIdx? (fun k => decide (k = dst)) with
        | some i => b.tell dst x.cls x.ctx (.credit tag x.digest (Sparse.get (always 0) x.grants i))
        | none => b
      | none => b)

/-! ### PERMUTE's messages (R386) -/

/-- The PERMUTE of a group and epoch, with the member index of a rank. -/
def Block.permuteOf (b : Block) (src g e : Nat) : Option (Coll × Nat) :=
  match b.coll (tagOf g e 0xFFFF) with
  | some x => if x.op = 0x0407 then (x.ranks.findIdx? (fun r => decide (r = src))).map (fun i => (x, i)) else none
  | none => none

/-- A DRAINED message arrives (R386). -/
def execDrained (src group epoch : Nat) (small : Bool) (s : State) : Host.Outcome State Fault Refusal :=
  s.run (fun b =>
    if b.net.silent then b
    else match b.permuteOf src group epoch with
      | some (x, i) =>
        (b.setColl { x with drained := if x.drained.contains i then x.drained else x.drained ++ [i]
                            small := x.small || small }).advanceColl x.tag
      | none => { b with relay := { b.relay with early := b.relay.early ++ [(src, group, epoch, small)] } })

/-- The report that a member's moves are complete arrives (R386). -/
def execMovesComplete (src group epoch : Nat) (s : State) : Host.Outcome State Fault Refusal :=
  s.run (fun b =>
    if b.net.silent then b
    else match b.permuteOf src group epoch with
      | some (x, i) => (b.setColl { x with moved := if x.moved.contains i then x.moved else x.moved ++ [i] }).advanceColl x.tag
      | none => b)

/-! ### Cancels (R389) -/

/-- A cancel from a peer arrives (R389, R390). -/
def execCancelArrival (group epoch bucket : Nat) (all : Bool) (s : State) : Host.Outcome State Fault Refusal :=
  s.run (fun b => if b.net.silent then b else (b.cancelHere group epoch (if all then none else some bucket)).2)

/-! ### Timeouts (R295, R391) -/

/-- The lowest member that has not done its part of a collective: it owes data, credit, or a PERMUTE's report. -/
def Block.silentMember (b : Block) (x : Coll) : Option Nat :=
  let owes := b.awaited x
  x.others.find? (fun i => owes.contains i || x.outq.any (fun u => decide (u.dst = i)) ||
    (decide (x.op = 0x0407) && (!x.drained.contains i || (decide (3 ≤ x.phase) && !x.moved.contains i))))

/-- A member has been silent for RELAY_CFG.PEER_TIMEOUT_MS (R391): the collective of a tag ends. -/
def execPeerTimeout (tag : Nat) (s : State) : Host.Outcome State Fault Refusal :=
  s.run (fun b =>
    match b.coll tag with
    | none => b
    | some x =>
      if !b.collRuns x || decide (x.op / 256 = 2) || decide (x.passDone + 1 < x.passes) then b
      else
        match b.silentMember x with
        | none => b
        | some i => (b.advanceTo (x.startT + b.rget .RELAY_CFG_PEER_TIMEOUT_MS * msec)).endColl tag 0x4003 i 0)

/-- A collective of the Beater or the Stud Book ends without the members that have not answered (R295; heat decays in a REFRESH
all the same). -/
def Block.beaterTimeout (b : Block) (x : Coll) (c : Cmd) : Block :=
  let i := (b.silentMember x).getD 0
  match c.params with
  | .lookupPool p => b.lookClose x.tag c p true
  | .exchange p => b.exClose x.tag c p true
  | .refresh p => (b.sbDecay p.group).endColl x.tag 0x2008 i 0
  | _ => b.endColl x.tag 0x2008 i 0

/-- A member of a Beater collective has not answered within BEATER_CFG.PEER_TIMEOUT_MS (R295). -/
def execBeaterPeerTimeout (tag : Nat) (s : State) : Host.Outcome State Fault Refusal :=
  s.run (fun b =>
    match b.coll tag with
    | none => b
    | some x =>
      match x.cmd.bind b.findCmd, b.silentMember x with
      | some c, some _ =>
        if b.collRuns x ∧ x.op / 256 = 2 then
          ((b.advanceTo (x.startT + b.rget .BEATER_CFG_PEER_TIMEOUT_MS * msec)).beaterTimeout x c).beaterRegs
        else b
      | _, _ => b)

/-! ### Held collectives (R364, R366, R385) -/

/-- A held command is run as its row would: the start function of its kind. -/
def Block.startHeld (c : Cmd) (b : Block) : Block :=
  match c.params with
  | .allReduce p => b.startRed c p false
  | .reduceScatter p => b.startRed c p true
  | .allGather p => b.startGather c p
  | .broadcast p => b.startBcast c p
  | .allToAllV p => b.startA2a c p
  | .permute p => b.startPermute c p
  | .lookupPool p => b.startLookup c p 0 []
  | .exchange p => b.startExchange c p []
  | .promote p => b.startPromote c p false []
  | .demote p => b.startPromote c p true []
  | .refresh p => b.startRefresh c p []
  | .fetch p => b.startFetch c p
  | .normReduce p => b.startNorm c p
  | _ => b

/-- The group and epoch of a collective's command. -/
def Cmd.groupEpoch (c : Cmd) : Option (Nat × Nat) :=
  match c.params with
  | .allReduce p => some (p.group, p.epoch)
  | .reduceScatter p => some (p.group, p.epoch)
  | .allGather p => some (p.group, p.epoch)
  | .broadcast p => some (p.group, p.epoch)
  | .allToAllV p => some (p.group, p.epoch)
  | .lookupPool p => some (p.group, p.epoch)
  | .exchange p => some (p.group, p.epoch)
  | .promote p => some (p.group, p.epoch)
  | .demote p => some (p.group, p.epoch)
  | .refresh p => some (p.group, p.epoch)
  | .normReduce p => some (p.group, p.epoch)
  | _ => none

/-- Whether a held command may start now: its epoch is no longer a future one; or it is the first of its context that waits for
room, and there is room. -/
def Block.heldReady (b : Block) (h : HeldColl) (c : Cmd) : Bool :=
  if h.epoch then
    match c.groupEpoch.bind (fun k => (b.group? k.1).map (fun gs => epochState k.2 gs.epoch)) with
    | some st => decide (st ≠ 1)
    | none => true
  else b.firstHeld c.ctx c.id && b.collRoom c.ctx

/-- A collective that the Relay holds starts when there is room, or in the tick after its epoch's commit (R364, R366, R385). -/
def execHeldCollectiveStart (id : Nat) (s : State) : Host.Outcome State Fault Refusal :=
  s.run (fun b =>
    match b.relay.held.find? (fun h => decide (h.cmd = id)), b.findCmd id with
    | some h, some c =>
      if c.phase = .waiting ∧ b.mayStart ∧ b.heldReady h c then
        (Block.startHeld c (if h.epoch then b.advanceTo (b.clk.t + 64) else b)).beaterRegs
      else b
    | _, _ => b)

end Sys2Proof.Machine
end

