-- ==== Sys2Proof/Machine/Blink.lean ====
section
/-! DEFINITION. Blinkers (chapter 14): PAGE_EDIT, ATTEND, its latch, the attention jobs on the tiles. -/

namespace Sys2Proof

open Machine

/-- Whether the fields of an ATTEND are out of range. -/
def AttendParams.bad (p : AttendParams) : Bool :=
  decide (1 < p.mode) || decide (p.qFmt ≠ 1 ∧ p.qFmt ≠ 2) || decide (p.kvFmt = 0 ∨ 4 < p.kvFmt) || decide (2 < p.outFmt) ||
    decide (p.d < 32 ∨ 256 < p.d ∨ p.d % 16 ≠ 0) || decide (p.d < p.rDim ∨ p.rDim % 2 ≠ 0) || decide (p.gqa = 0 ∨ 16 < p.gqa) ||
    decide (p.hPage = 0 ∨ 64 < p.hPage) || decide (p.hCmd = 0 ∨ p.hPage < p.head0 + p.hCmd) ||
    (p.win && decide (p.window = 0 ∨ 2 ^ 31 ≤ p.window)) || decide (p.nseq = 0 ∨ 256 < p.nseq) || decide (p.workVa % 64 ≠ 0) ||
    decide (p.tsLo % 4096 ≠ 0 ∨ 0x300000 < p.tsLo)

/-- The units of a sequence: heads times row tiles of 128 rows (R400). -/
def AttendParams.seqUnits (p : AttendParams) (s : SeqSt) : Nat := p.hCmd * ceilDiv (p.gqa * s.qLen) 128

/-- Unit `k` of a list of sequences from number `i` on: sequence, key-value head, row tile. -/
def AttendParams.unitAt (p : AttendParams) : Nat → List SeqSt → Nat → Option (Nat × Nat × Nat)
  | _, [], _ => none
  | i, s :: l, k =>
    let n := p.seqUnits s
    if k < n then
      let t := ceilDiv (p.gqa * s.qLen) 128
      some (i, p.head0 + k / t, k % t)
    else p.unitAt (i + 1) l (k - n)

end Sys2Proof

namespace Sys2Proof.Machine

/-! ### Order (R403) -/

/-- Whether every earlier class 0x05 command of `c`'s context has started, and none that satisfies `p` is in progress. -/
def Block.blinkTurn (b : Block) (c : Cmd) (p : Cmd → Bool) : Bool :=
  (b.cmds.takeWhile (fun (x : Cmd) => !decide (x.id = c.id))).all (fun (x : Cmd) =>
    !(decide (x.opcode / 256 = 5) && decide (x.ctx = c.ctx) && decide (x.phase ≠ .queued)) || (decide (x.phase ≠ .waiting) && !p x))

/-- Whether a PAGE_EDIT may start: no earlier ATTEND of its context latches. -/
def editReady (c : Cmd) (b : Block) : Bool :=
  b.blinkTurn c (fun x => b.attends.any (fun a => a.latching && decide (a.cmd = x.id)))

/-- Whether an ATTEND may start: no earlier PAGE_EDIT of its context is in progress, and fewer than MAX_ATTEND are. -/
def attendReady (c : Cmd) (b : Block) : Bool :=
  b.blinkTurn c (fun x => decide (x.opcode = 0x0502)) && decide (b.blinkRegs.rget .BLINK_STATUS_ACTIVE < b.rget .BLINK_CFG_MAX_ATTEND)

/-! ### PAGE_EDIT (R401, R402) -/

/-- The address of a slot of a context's page directory. -/
def Block.slotAt (b : Block) (ctx slot : Nat) : Nat := b.rget .BLINK_PTAB_VA ctx * 64 + 16448 * slot

/-- The header of a slot after an edit: GEN advanced, NPAGES. -/
def editHead (q : Req) (a gen n : Nat) : Act (Nat × Nat × Nat) := do
  let g := (gen + 1) % 2 ^ 16
  writeVa q a (bytesOf 2 g ++ bytesOf 2 0 ++ bytesOf 4 n ++ List.replicate 56 0)
  return (0, 0, g + n * 2 ^ 32)

/-- An edit of a slot: OP 0 SET, 1 TRUNCATE, 2 CLEAR. -/
def pageEdit (c : Cmd) (p : PageEditParams) (a : Nat) : Act (Nat × Nat × Nat) := do
  let q := c.req 0 0
  let h ← readVa q a 8
  let gen := field h 0 2
  let n := field h 4 4
  match p.op with
  | 0 =>
    if n < p.first ∨ p.count = 0 ∨ 2048 < p.count ∨ 2048 < p.first + p.count then rangeErr
    let bs ← readVa q p.srcVa (8 * p.count)
    let l := (List.range p.count).map (fun i => field bs (8 * i) 8)
    if l.any (fun x => decide (x % 128 ≠ 0)) then rangeErr
    writeVa q (a + 64 + 8 * p.first) (l.flatMap (fun x => bytesOf 8 (x % 2 ^ 56 + 1)))
    editHead q a gen (max n (p.first + p.count))
  | 1 =>
    if n < p.first then rangeErr
    let bs ← readVa q (a + 64 + 8 * p.first) (8 * (n - p.first))
    writeVa q (a + 64 + 8 * p.first) ((List.range (n - p.first)).flatMap (fun i => bytesOf 8 (field bs (8 * i) 8 / 2 * 2)))
    editHead q a gen p.first
  | 2 =>
    let bs ← readVa q (a + 64) (8 * n)
    writeVa q (a + 64) ((List.range n).flatMap (fun i => bytesOf 8 (field bs (8 * i) 8 / 2 * 2)))
    editHead q a gen 0
  | _ => rangeErr

/-- PAGE_EDIT at its start. -/
def Block.doEdit (c : Cmd) (p : PageEditParams) (b : Block) : Block :=
  if b.rget .BLINK_PTAB_SLOTS c.ctx ≤ p.slot then (b.finish c.id 0x0100 0 0).blinkRegs
  else ((b.setRunning c.id).concludeVa c.id 0x5003 (pageEdit c p (b.slotAt c.ctx p.slot))).blinkRegs

/-- PAGE_EDIT with OP 0, SET (R402); an OP that the table does not list is out of range. -/
def execPageEditSet (id : Nat) (p : PageEditParams) (s : State) : Host.Outcome State Fault Refusal :=
  s.run (fun b => if p.op = 1 ∨ p.op = 2 then b else b.runCmd id (.pageEdit p) editReady (fun c b => b.doEdit c p))

/-- PAGE_EDIT with OP 1, TRUNCATE (R402). -/
def execPageEditTruncate (id : Nat) (p : PageEditParams) (s : State) : Host.Outcome State Fault Refusal :=
  s.run (fun b => if p.op ≠ 1 then b else b.runCmd id (.pageEdit p) editReady (fun c b => b.doEdit c p))

/-- PAGE_EDIT with OP 2, CLEAR (R402). -/
def execPageEditClear (id : Nat) (p : PageEditParams) (s : State) : Host.Outcome State Fault Refusal :=
  s.run (fun b => if p.op ≠ 2 then b else b.runCmd id (.pageEdit p) editReady (fun c b => b.doEdit c p))

/-! ### ATTEND: the start and the latch (R397, R398, R404, R405) -/

/-- A sequence descriptor. -/
def seqOf (l : List Byte) : SeqSt :=
  ⟨field l 0 2, field l 2 2, field l 4 4, field l 8 4, field l 12 4, field l 16 4, field l 20 4, fva l 24, fva l 32, fva l 40,
   fva l 48, fva l 56, fva l 64, fva l 72, [], 0, 0⟩

/-- Whether a descriptor's fields are out of range. -/
def SeqSt.bad (s : SeqSt) (p : AttendParams) (slots : Nat) : Bool :=
  decide (slots ≤ s.slot) || decide (262144 < s.kvLen) || decide (262144 < s.qLen) || decide (2 ^ 31 < s.qPos0 + s.qLen) ||
    (p.block && decide (s.maskStride % 8 ≠ 0 ∨ s.maskStride < ceilDiv (ceilDiv s.kvLen 128) 8))

/-- The latch of one sequence (R404), with PAGE_GEN or PAGE_SHORT (R405). -/
def latchSeq (c : Cmd) (p : AttendParams) (i : Nat) (s : SeqSt) : Act SeqSt := do
  let a := (← get).slotAt c.ctx s.slot
  let h ← readVa (c.req 0 0) a 8
  if p.checkGen ∧ field h 0 2 ≠ s.expectGen then throw (.fin 0x5001 i)
  let n := ceilDiv s.kvLen 128
  if 128 * field h 4 4 < s.kvLen then throw (.fin 0x5002 i)
  let bs ← readVa (c.req 0 0) (a + 64) (8 * n)
  let l := (List.range n).map (fun k => field bs (8 * k) 8)
  if l.any (fun x => decide (x % 2 = 0)) then throw (.fin 0x5002 i)
  return { s with pages := l.map (fun x => x % 2 ^ 56 / 128 * 128) }

/-- The working tiles that an ATTEND names. -/
def Block.attendTiles (b : Block) (p : AttendParams) : List Nat := (setPositions 64 p.tiles).filter b.tileWorks

/-- A job joins the queue of a tile (R397). -/
def Block.placeJob (b : Block) (c : Cmd) (p : AttendParams) (n : Nat) : Block :=
  let behind := (b.cmds.filter (fun (x : Cmd) => x.joined && decide (x.tile = n))).map (fun (x : Cmd) => x.id)
  Block.tileJoin { b with jobs := b.jobs ++ [⟨c.id, n, behind, p.tsLo⟩] } n

/-- What an ATTEND reads before its jobs: its descriptors, checked against the directory's `slots`, and their page lists (R398,
R404, R405). -/
def attendLatch (c : Cmd) (p : AttendParams) (slots : Nat) : Act (List SeqSt) := do
  let bs ← readVa (c.req 0 0) p.seqVa (128 * p.nseq)
  let l := (List.range p.nseq).map (fun i => seqOf ((bs.drop (128 * i)).take 128))
  match l.findIdx? (fun s => s.bad p slots) with
  | some i => throw (.fin 0x0100 i)
  | none => pure ()
  if p.workBytes < 64 * p.nseq + 8 * (l.map (fun s => ceilDiv s.kvLen 128)).foldl (· + ·) 0 + 65536 then rangeErr
  l.zipIdx.mapM (fun x => latchSeq c p x.2 x.1)

/-- An ATTEND whose page lists are latched places its jobs. -/
def Block.attendBegin (b : Block) (c : Cmd) (p : AttendParams) (tiles : List Nat) (l : List SeqSt) : Block :=
  let b := (b.setRunning c.id).freeWork c.ctx p.workVa p.workBytes
  let a : Attend := ⟨c.id, true, l, 0, 0, false, 0, 0⟩
  let b := { b with attends := b.attends ++ [a] }
  tiles.foldl (fun b n => b.placeJob c p n) b

/-- ATTEND at its start. -/
def Block.startAttend (c : Cmd) (p : AttendParams) (b : Block) : Block :=
  let tiles := b.attendTiles p
  if p.bad ∨ tiles = [] ∨ tiles.any (fun n => decide (b.rget .TILE_CFG_CTX n ≠ c.ctx)) then b.finish c.id 0x0100 0 0
  else b.withAct c.id 0x5003 (attendLatch c p (b.rget .BLINK_PTAB_SLOTS c.ctx)) (fun l b => b.attendBegin c p tiles l)

/-- ATTEND (R397 to R405): it latches the page lists and places its jobs. -/
def execAttend (id : Nat) (p : AttendParams) (s : State) : Host.Outcome State Fault Refusal :=
  s.run (fun b => b.runCmd id (.attend p) attendReady (fun c b => (b.startAttend c p).blinkRegs))

/-- The ATTEND with a number, changed by `f`. -/
def Block.onAttend (b : Block) (id : Nat) (f : Attend → Attend) : Block :=
  { b with attends := b.attends.map (fun a => if a.cmd = id then f a else a) }

/-- The latch of an ATTEND ends (R403, R404). -/
def execLatchEnd (id : Nat) (s : State) : Host.Outcome State Fault Refusal :=
  s.run (fun b => (b.onAttend id (fun a => { a with latching := false })).blinkRegs)

/-! ### Units (R399, R400, R407 to R416) -/

/-- The rows of a unit: query row and local query head of each (chapter 14, "Work on the tiles"). -/
def unitRows (p : AttendParams) (s : SeqSt) (hk t : Nat) : List (Nat × Nat) :=
  (List.range (min 128 (p.gqa * s.qLen - 128 * t))).map (fun j =>
    let r := 128 * t + j
    (r / p.gqa, (hk - p.head0) * p.gqa + r % p.gqa))

/-- The element offset of row (i, h) in the row arrays (R407). -/
def rowAt (p : AttendParams) (i h : Nat) : Nat := (i * p.heads + h) * p.d

/-- The block-mask rows that a unit needs (R411), by i ÷ 128. -/
def readMasks (q : Req) (p : AttendParams) (s : SeqSt) (rows : List (Nat × Nat)) : Act (List (Nat × List Byte)) :=
  if p.block then
    ((rows.map (fun r => r.1 / 128)).foldl (fun (l : List Nat) k => if l.contains k then l else l ++ [k]) []).mapM (fun k => do
      let bs ← readVa q (s.maskVa + k * s.maskStride) s.maskStride
      return (k, bs))
  else return []

/-- Whether key `j` is visible to query row `i` (R411). -/
def visible (p : AttendParams) (s : SeqSt) (masks : List (Nat × List Byte)) (i j : Nat) : Bool :=
  decide (j < s.kvLen) && decide (s.kvStart ≤ j) && (!p.causal || decide (j ≤ s.qPos0 + i)) &&
    (!p.win || decide ((s.qPos0 + i : Int) - j < p.window)) &&
    (!p.block || (match masks.find? (fun m => decide (m.1 = i / 128)) with
      | some m => bitAt (field m.2 (j / 128 / 8) 1) (j / 128 % 8)
      | none => false))

/-- Page `k` of a sequence, for head `hk` (R407, R409, R412). -/
def readPage (q : Req) (p : AttendParams) (s : SeqSt) (inv : List Nat) (hk k : Nat) (cn : Counts) : Act (KvPage × Counts) := do
  let a := s.pages.getD k 0
  let n := min 128 (s.kvLen - 128 * k)
  let e := p.eKv
  let kb ← readVa q (a + hk * 128 * p.d * e) (n * p.d * e)
  let vb ← readVa q (a + p.hPage * 128 * p.d * e + hk * 128 * p.d * e) (n * p.d * e)
  let sc := a + 2 * p.hPage * 128 * p.d + hk * 128 * 4
  let ks ← if p.fp8 then readVa q sc (4 * n) else pure []
  let vs ← if p.fp8 then readVa q (sc + 512 * p.hPage) (4 * n) else pure []
  let tok := fun (bs : List Byte) (t : Nat) => elems p.kvFmt ((bs.drop (t * p.d * e)).take (p.d * e)) p.d
  let kc := (List.range n).map (fun t =>
    toQf p.qFmt (rope inv p.rDim p.ropeSplit (128 * k + t) false ((tok kb t).map (toF32 p.kvFmt))))
  return (⟨128 * k, kc.map (fun l => valsOf p.qFmt (l.map (·.code))), (List.range n).map (fun t => valsOf p.kvFmt (tok vb t)),
    (List.range n).map (fun t => field ks (4 * t) 4), (List.range n).map (fun t => field vs (4 * t) 4)⟩,
    kc.foldl noteCvts cn)

/-- q of a row (R412): rotated, then in QF. -/
def readQ (q : Req) (p : AttendParams) (s : SeqSt) (inv : List Nat) (r : Nat × Nat) : Act (List Cvt) := do
  let bs ← readVa q (s.qVa + rowAt p r.1 r.2 * 2) (p.d * 2)
  return toQf p.qFmt (rope inv p.rDim p.ropeSplit (s.qPos0 + r.1) false ((elems p.qFmt bs p.d).map (toF32 p.qFmt)))

/-- What a unit comes to: pages read and skipped, empty rows, whether it wrote a special value, conversions. -/
structure UnitOut where
  pages : Nat
  skipped : Nat
  empty : Nat
  special : Bool
  cn : Counts
  deriving DecidableEq, Repr

/-- The bytes of FP32 codes. -/
def f32Bytes (l : List Nat) : List Byte := l.flatMap (bytesOf 4)

/-- A unit, forward (R412, R413). -/
def forwardUnit (q : Req) (p : AttendParams) (s : SeqSt) (inv : List Nat) (hk : Nat) (rows : List (Nat × Nat))
    (vis : Nat → Nat → Bool) (ks : List Nat) (cn : Counts) : Act (Bool × Counts) := do
  let qs ← rows.mapM (readQ q p s inv)
  let cn := qs.foldl noteCvts cn
  let qv := qs.map (fun l => valsOf p.qFmt (l.map (·.code)))
  let r ← ks.foldlM (fun (a : List RowAcc × Counts) k => do
    let (g, cn) ← readPage q p s inv hk k a.2
    let l := a.1.mapIdx (fun j r => forwardPage p g (qv.getD j []) (fun t => vis (rows.getD j (0, 0)).1 (128 * k + t)) r (0, 0))
    return (l.map (fun x => x.1), l.foldl (fun c x => (c.1 + x.2.1, c.2 + x.2.2)) cn))
    (rows.map (fun _ => (⟨negInf, 0, List.replicate p.d 0⟩ : RowAcc)), cn)
  (rows.zip r.1).foldlM (fun (a : Bool × Counts) x => do
    let o := forwardEnd p x.2
    let codes := o.1.map (·.code)
    writeVa q (s.oVa + rowAt p x.1.1 x.1.2 * p.eO) (packElems p.outFmt codes)
    writeVa q (s.lseVa + (x.1.1 * p.heads + x.1.2) * 4) (bytesOf 4 o.2)
    return (a.1 || codes.any (specialCode p.outFmt) || (fp32.decode o.2).isNan, noteCvts a.2 o.1)) (false, r.2)

/-- Vat ADD of FP32 elements (R236, R416). -/
def addVa (q : Req) (va : Nat) (l : List Nat) : Act Unit := do
  let bs := f32Bytes l
  (piecesOf va bs.length).forM (fun x => do
    let _ ← atomicPiece q x.1 x.2 (fun old => atomicBytes 8 0 ((bs.drop (x.1 - va)).take x.2) [] old))

/-- The sums of a page's tokens over the rows of a unit, added to dK and dV (R416). -/
def addTokens (q : Req) (p : AttendParams) (s : SeqSt) (inv : List Nat) (hk : Nat) (g : KvPage)
    (l : List (RowGrad × List (Nat × FVal × FVal))) : Act Unit :=
  (List.range g.k.length).forM (fun t => do
    let mine := l.filterMap (fun r => (r.2.find? (fun x => decide (x.1 = t))).map (fun x => (r.1, x.2)))
    let sum := fun (f : RowGrad × FVal × FVal → FVal × FVal) => dotInto mine.length (mine.map f) 0
    let dk := (List.range p.d).map (fun d => sum (fun r => (r.2.2, r.1.q.getD d (.fin false 0 0))))
    let dv := (List.range p.d).map (fun d => sum (fun r => (r.2.1, r.1.dO.getD d (.fin false 0 0))))
    let j := g.first + t
    let off := ((hk - p.head0) * s.kvLen + j) * p.d * 4
    addVa q (s.dkvVa + off) (rope inv p.rDim p.ropeSplit j true dk)
    addVa q (s.dkvVa + p.hCmd * s.kvLen * p.d * 4 + off) dv)

/-- What a backward unit reads of a row (R416). -/
def readGradRow (q : Req) (p : AttendParams) (s : SeqSt) (inv : List Nat) (r : Nat × Nat) : Act (RowGrad × List Cvt) := do
  let qc ← readQ q p s inv r
  let at_ := rowAt p r.1 r.2 * p.eO
  let ob ← readVa q (s.oVa + at_) (p.d * p.eO)
  let db ← readVa q (s.doVa + at_) (p.d * p.eO)
  let lb ← readVa q (s.lseVa + (r.1 * p.heads + r.2) * 4) 4
  let o := (elems p.outFmt ob p.d).map (toF32 p.outFmt)
  let dO := (elems p.outFmt db p.d).map (toF32 p.outFmt)
  let dc := toQf p.qFmt dO
  return (⟨valsOf p.qFmt (qc.map (·.code)), valsOf p.qFmt (dc.map (·.code)), rowDi dO o, field lb 0 4, List.replicate p.d 0⟩, qc ++ dc)

/-- A unit, backward (R416). -/
def backwardUnit (q : Req) (p : AttendParams) (s : SeqSt) (inv : List Nat) (hk : Nat) (rows : List (Nat × Nat))
    (vis : Nat → Nat → Bool) (empty : Nat × Nat → Bool) (ks : List Nat) (cn : Counts) : Act (Bool × Counts) := do
  let full := rows.filter (fun r => !empty r)
  let rs ← full.mapM (readGradRow q p s inv)
  let cn := rs.foldl (fun c r => noteCvts c r.2) cn
  let r ← ks.foldlM (fun (a : List RowGrad × Counts) k => do
    let (g, cn) ← readPage q p s inv hk k a.2
    let l := a.1.mapIdx (fun j r => backwardPage p g (fun t => vis (full.getD j (0, 0)).1 (128 * k + t)) r (0, 0))
    addTokens q p s inv hk g (l.map (fun x => (x.1, x.2.1)))
    return (l.map (fun x => x.1), l.foldl (fun c x => (c.1 + x.2.2.1, c.2 + x.2.2.2)) cn)) (rs.map (fun x => x.1), cn)
  let put := fun (x : Nat × Nat) (l : List Nat) => writeVa q (s.dqVa + rowAt p x.1 x.2 * 4) (f32Bytes l)
  (rows.filter empty).forM (fun x => put x (List.replicate p.d 0))
  (full.zip r.1).foldlM (fun (a : Bool × Counts) x => do
    let dq := rope inv p.rDim p.ropeSplit (s.qPos0 + x.1.1) true x.2.dq
    put x.1 dq
    return (a.1 || dq.any (specialCode 0), a.2)) (false, r.2)

/-- One unit: sequence `s`, key-value head, row tile (R400). -/
def attendUnit (q : Req) (p : AttendParams) (s : SeqSt) (hk t : Nat) : Act UnitOut := do
  let rows := unitRows p s hk t
  let ib ← if p.rDim = 0 then pure [] else readVa q p.ropeVa (p.rDim / 2 * 4)
  let inv := (List.range (p.rDim / 2)).map (fun k => field ib (4 * k) 4)
  let masks ← readMasks q p s rows
  let vis := visible p s masks
  let n := s.pages.length
  let sees := fun (i k : Nat) => (List.range 128).any (fun t => vis i (128 * k + t))
  let ks := (List.range n).filter (fun k => rows.any (fun r => sees r.1 k))
  let empty := fun (r : Nat × Nat) => !ks.any (fun k => sees r.1 k)
  let r ← if p.mode = 0 then forwardUnit q p s inv hk rows vis ks (0, 0) else backwardUnit q p s inv hk rows vis empty ks (0, 0)
  return ⟨ks.length, n - ks.length, (rows.filter empty).length, r.1, r.2⟩

/-! ### Jobs (R399, R400, R417 to R420) -/

/-- A sequence ends early (R420): each of its rows writes +0 and LSE −∞. -/
def seqEnds (q : Req) (p : AttendParams) (s : SeqSt) : Act Unit := do
  let n := s.qLen * p.heads
  if p.mode = 0 then
    writeVa q s.oVa (List.replicate (n * p.d * p.eO) 0)
    writeVa q s.lseVa (f32Bytes (List.replicate n negInf))
  else writeVa q s.dqVa (List.replicate (n * p.d * 4) 0)

/-- A range of memory takes undefined bytes. -/
def spoilVa (q : Req) (va n : Nat) : Act Unit := do
  let f := (← get).freeBytes n
  set f.2
  writeVa q va f.1

/-- A unit's outputs become undefined (R418): its rows of O and LSE, or its rows of dQ and its head's dK and dV, which it adds
to. -/
def unitSpoils (q : Req) (p : AttendParams) (s : SeqSt) (hk t : Nat) : Act Unit := do
  if p.mode = 0 then
    (unitRows p s hk t).forM (fun r => do
      spoilVa q (s.oVa + rowAt p r.1 r.2 * p.eO) (p.d * p.eO)
      spoilVa q (s.lseVa + (r.1 * p.heads + r.2) * 4) 4)
  else
    (unitRows p s hk t).forM (fun r => spoilVa q (s.dqVa + rowAt p r.1 r.2 * 4) (p.d * 4))
    let w := s.kvLen * p.d * 4
    spoilVa q (s.dkvVa + (hk - p.head0) * w) w
    spoilVa q (s.dkvVa + (p.hCmd + (hk - p.head0)) * w) w

/-- The array and lane cycles of a page of `m` rows (R417). -/
def pageCycles (p : AttendParams) (m : Nat) : Nat × Nat :=
  let a := (2 * ceilDiv p.d 128 + ceilDiv p.d 64) * max m 32
  let x := 10 * ceilDiv (128 * m) 512 + 2 * ceilDiv (m * p.d) 512 + 4 * ceilDiv (128 * p.rDim) 512
  if p.mode = 0 then (a, x) else (3 * a, 2 * x)

/-- The status with which an ATTEND whose jobs have ended completes (R420, R421). -/
def Attend.status (a : Attend) (p : AttendParams) (det : Bool) : Nat × Nat × Nat :=
  let n := fun (k : Nat) => (a.seqs.filter (fun s => decide (s.failed = k))).length
  let empty := (a.seqs.map (fun s => if s.failed = 0 then s.empty else 0)).foldl (· + ·) 0
  let e := halves empty a.pages
  if n 1 ≠ 0 then (0x0200, n 1, e)
  else if n 2 ≠ 0 then (0x5003, n 2, e)
  else if p.forbidSpecial ∧ a.special then (0x0600, 0, e)
  else if det then (0x0002, 0, e)
  else if empty ≠ 0 then (0x0003, 0, e)
  else (0, 0, e)

/-- What a job used of its tile holds values that the spec leaves open afterwards: its tile-store window of 1 MiB from `a` and the
512 KiB of accumulators (R397, R399). -/
def Block.freeWindow (b : Block) (n a : Nat) : Block :=
  let u := b.use
  let v := u.2.use
  let l := ((List.range 0x100000).map (fun i => (a + i, Config.freeByte u.1 i))).filter (fun x => !decide (x.2 = 0))
  let k := ((List.range 0x80000).map (fun i => (i, Config.freeByte v.1 i))).filter (fun x => !decide (x.2 = 0))
  v.2.onTile n (fun t => { t with
    store := t.store.filter (fun x => decide (x.1 < a)) ++ l ++ t.store.filter (fun x => decide (a + 0x100000 ≤ x.1))
    acc := k })

/-- Whether it is the turn of the job of an ATTEND on a tile (R128, R397): the tile's earlier commands and jobs have ended, and no
group or legacy slot is open. -/
def Block.jobTurn (b : Block) (id n : Nat) : Bool :=
  match b.jobs.find? (fun j => decide (j.tile = n)) with
  | some j =>
    decide (j.cmd = id) && !b.cmds.any (fun (x : Cmd) => j.behind.contains x.id) && !(b.tile n).groups.any (fun g => g.2.isOpen)
  | none => false

/-- Jobs of an ATTEND leave their tiles' queues; a tile whose job may have begun is left with the job's open values. -/
def Block.dropJobs (b : Block) (id : Nat) (p : Job → Bool) : Block :=
  let out := b.jobs.filter (fun j => decide (j.cmd = id) && p j)
  let b := match (b.findCmd id).map (fun (c : Cmd) => c.params) with
    | some (.attend q) => (out.filter (fun (j : Job) => b.jobTurn id j.tile)).foldl (fun (b : Block) (j : Job) => b.freeWindow j.tile q.tsLo) b
    | _ => b
  out.foldl (fun b j => b.tileLeave j.tile) { b with jobs := b.jobs.filter (fun j => !out.contains j) }

/-- An ATTEND ends with a status. -/
def Block.endAttend (b : Block) (c : Cmd) (status detail engine : Nat) : Block :=
  let b := b.addEffect c.id (.count .BLINK_COMMANDS_COUNT 0 1)
  let b := match b.attends.find? (fun a => decide (a.cmd = c.id)) with
    | some a =>
      let b := (b.addEffect c.id (.count .BLINK_CVT_SAT_COUNT 0 a.sat)).addEffect c.id (.count .BLINK_CVT_UFL_COUNT 0 a.ufl)
      b.addEffect c.id (.count .BLINK_EMPTY_ROWS_COUNT 0 (engine % 2 ^ 32))
    | none => b
  (b.finish c.id status detail engine).dropJobs c.id (fun _ => true)

/-- A sequence of an ATTEND changed by `f`. -/
def Attend.onSeq (a : Attend) (i : Nat) (f : SeqSt → SeqSt) : Attend := { a with seqs := a.seqs.mapIdx (fun k s => if k = i then f s else s) }

/-- A unit has been computed: what it counts. -/
def Block.unitDone (b : Block) (c : Cmd) (p : AttendParams) (n i m : Nat) (o : UnitOut) : Block :=
  let b := b.onAttend c.id (fun a =>
    { a.onSeq i (fun s => { s with empty := s.empty + o.empty }) with
      pages := a.pages + o.pages, special := a.special || o.special, sat := a.sat + o.cn.1, ufl := a.ufl + o.cn.2 })
  let cy := pageCycles p m
  let b := (b.count .TILE_ARRAY_BUSY_COUNT n (o.pages * cy.1)).count .TILE_VEC_BUSY_COUNT n (o.pages * cy.2)
  let b := (b.count .BLINK_UNITS_COUNT 0 1).count .BLINK_PAGES_COUNT 0 o.pages
  b.count .BLINK_PAGES_SKIPPED_COUNT 0 o.skipped

/-- A sequence meets a failed page (R420). -/
def Block.seqFails (b : Block) (c : Cmd) (p : AttendParams) (q : Req) (i kind : Nat) (s : SeqSt) : Block :=
  (b.runAct (seqEnds q p s)).onAttend c.id (fun a => a.onSeq i (fun s => { s with failed := kind }))

/-- A detection during a page (R418): re-run, or the command's end with the unit's outputs undefined. -/
def Block.pageDet (b : Block) (c : Cmd) (p : AttendParams) (q : Req) (n det : Nat) (s : SeqSt) (hk t : Nat) : Block :=
  let b := (b.count .BLINK_DETECT_COUNT 0 det).count .BLINK_RERUNS_COUNT 0 1
  let e : ErrIn := { source := n, cls := 0x03, outcome := 1, status := 0x5004, ctx := c.ctx, cmd := some (c.ring, c.seq) }
  if det = 1 then (b.absorbed { e with status := 0x0002 }).updCmd c.id (fun x => { x with det := true })
  else
    (((b.errLog e).runAct (unitSpoils q p s hk t)).updCmd c.id (fun x => { x with detTile := some n })).endAttend c 0x5004 0 0

/-- The next untaken unit of an ATTEND is computed on tile `n`; `det` is a detection during its first page. -/
def Block.runUnit (b : Block) (c : Cmd) (p : AttendParams) (n det : Nat) : Block :=
  match b.attends.find? (fun a => decide (a.cmd = c.id)) with
  | none => b
  | some a =>
    match p.unitAt 0 a.seqs a.next with
    | none => b
    | some (i, hk, t) =>
      let b := b.onAttend c.id (fun a => { a with next := a.next + 1 })
      match a.seqs[i]? with
      | none => b
      | some s =>
        let q := c.req 0 0 (8 + n / 32)
        if s.failed ≠ 0 ∨ !b.jobs.any (fun j => decide (j.cmd = c.id)) then b
        else if det = 2 then b.pageDet c p q n 2 s hk t
        else
          let b := if det = 1 then b.pageDet c p q n 1 s hk t else b
          match (attendUnit q p s hk t) b with
          | (.ok o, b) => b.unitDone c p n i (unitRows p s hk t).length o
          | (.error (.tier _), b) => b.seqFails c p q i 1 s
          | (.error (.unmapped _), b) => b.seqFails c p q i 2 s
          | (.error e, b) => let r := e.status (0, 0); b.endAttend c r.1 r.2 0

/-- The job on a tile ends when no unit remains; the ATTEND completes with the last of its jobs (R400). -/
def Block.jobEnd (b : Block) (c : Cmd) (p : AttendParams) (n : Nat) : Block :=
  match b.attends.find? (fun a => decide (a.cmd = c.id)), b.jobs.any (fun j => decide (j.cmd = c.id) && decide (j.tile = n)) with
  | some a, true =>
    if (p.unitAt 0 a.seqs a.next).isSome then b
    else
      let b := b.dropJobs c.id (fun j => decide (j.tile = n))
      if b.jobs.any (fun j => decide (j.cmd = c.id)) then b
      else
        let r := a.status p (match b.findCmd c.id with
          | some x => x.det
          | none => false)
        b.endAttend c r.1 r.2.1 r.2.2
  | _, _ => b

/-- Whether the job of an ATTEND on a tile may run (R128, R397). -/
def Block.jobReady (b : Block) (id n : Nat) : Bool := b.jobTurn id n && b.mayStart && b.tileWorks n

/-- An attention job computes the next `units` units on its tile, and ends when none remains (R397 to R400, R412 to R420):
`det` is a detection during the first page of the first unit. -/
def execAttentionJob (id : Nat) (tile : Fin 64) (units : Nat) (det : Fin 3) (s : State) : Host.Outcome State Fault Refusal :=
  s.run (fun b =>
    match b.findCmd id with
    | some c =>
      match c.params with
      | .attend p =>
        if b.jobReady id tile then
          let b := (List.range units).foldl (fun b k => b.runUnit c p tile (if k = 0 then det.val else 0)) b
          (b.jobEnd c p tile).blinkRegs
        else b
      | _ => b
    | none => b)

end Sys2Proof.Machine
end

