-- ==== Sys2Proof/Machine/Hitch.lean ====
section
/-! DEFINITION. The Hitch: the host link (R29, R30), windows (R32 to R40), MSI-X unmasking (R48), IDE (R49), cuts and
HITCH_RESUME (R50 to R58, R537), configuration requests. -/

namespace Sys2Proof.Machine

/-! ### The link -/

/-- Whether a link of this width and generation runs as CXL (R29): 32 GT/s is generation 5. -/
def Block.cxlRuns (b : Block) (width gen : Nat) : Bool :=
  b.hitch.cxlOk && decide (5 ≤ gen) && decide (4 ≤ width) && !b.boot.pcieOnly

/-- CAPS_HOST takes the negotiated values; a change counts under R24. -/
def Block.setHostCaps (b : Block) (width gen : Nat) : Block :=
  let cxl := b2n (b.cxlRuns width gen)
  if b.rget .CAPS_HOST_WIDTH = width ∧ b.rget .CAPS_HOST_GEN = gen ∧ b.rget .CAPS_HOST_CXL = cxl then b
  else (((b.rset .CAPS_HOST_WIDTH 0 width).rset .CAPS_HOST_GEN 0 gen).rset .CAPS_HOST_CXL 0 cxl).capsChanged

/-- Whether the module supports a width and generation (chapter 02, link configurations). -/
def linkSupported (width gen : Nat) : Bool := [1, 2, 4, 8, 16].contains width && decide (1 ≤ gen ∧ gen ≤ 6)

/-- LINK_UP_HOST (R30): the link reaches L0 with PERST_N released; the host enabled CXL or not. -/
def execLinkUpHost (width gen : Nat) (cxl : Bool) (s : State) : Host.Outcome State Fault Refusal :=
  s.run (fun b =>
    if linkSupported width gen ∧ !b.boot.perstN ∧ b.boot.pgMain ∧ !b.flag .HITCH_STATUS_LINK_UP then
      (({ b with hitch := { b.hitch with cxlOk := cxl } }).rset .HITCH_STATUS_LINK_UP 0 1).setHostCaps width gen
    else b)

/-- HOST_LINK_RETRAIN (R30): a retrain that keeps the data link up. -/
def execHostLinkRetrain (width gen : Nat) (s : State) : Host.Outcome State Fault Refusal :=
  s.run (fun b =>
    if linkSupported width gen ∧ b.flag .HITCH_STATUS_LINK_UP then b.setHostCaps width gen else b)

/-! ### Cuts -/

/-- The registers that a cut of reasons 0x1 to 0x5 returns to power-up values (R50, chapter 02's table): those of the
HITCH block but for HITCH_STATUS, which reports the cut, and HITCH_CUT_STATUS. -/
def hitchRegs : List RegId :=
  [.HITCH_CFG, .HITCH_BAR2_MAP, .HITCH_HDM_MAP, .HITCH_WIN_BASE, .HITCH_WIN_LIMIT, .HITCH_WIN_TARGET, .HITCH_WIN_CTL,
   .MSIX_ADDR, .MSIX_DATA, .MSIX_CTL, .MSIX_PBA]

/-- The Hitch's registers and windows at power-up values, the link down. -/
def Block.hitchReset (b : Block) : Block :=
  let b := hitchRegs.foldl Block.resetReg b
  let b := (b.rset .HITCH_STATUS_LINK_UP 0 0).rset .HITCH_STATUS_IDE_STATE 0 0
  { b with hitch := { b.hitch with funcMask := false, msixEnable := false, fired := [], snoop := [], config := [],
                                   barSize := 0, cfgNext := none } }

/-- A cut with a reason code (R51, R52, R53, R58, R537). -/
def Block.cut (b : Block) (reason : Nat) : Block :=
  let first := !b.cutActive
  let ride := b.flag .HITCH_CFG_RIDE_THROUGH
  let b := if first then
      { (b.rset .HITCH_STATUS_PAUSED 0 (b2n (!ride))) with hitch := { b.hitch with latched := ride } }
    else b
  let b := { b with hitch := { b.hitch with lastCutT := b.now } }
  let b := ((b.rset .HITCH_STATUS_CUT_ACTIVE 0 1).rset .HITCH_STATUS_LAST_REASON 0 reason).count .HITCH_CUT_STATUS_CUT_GEN 0 1
  let b := b.errLog { source := 0x056, cls := 0x14, outcome := 5, unit := reason }
  if reason ≤ 5 then b.hitchReset else b

/-- HOT_RESET (R51). -/
def execHotReset (s : State) : Host.Outcome State Fault Refusal :=
  s.run (fun b => if b.flag .HITCH_STATUS_LINK_UP then b.cut 1 else b)

/-- SURPRISE_LINK_DOWN (R51). -/
def execSurpriseLinkDown (s : State) : Host.Outcome State Fault Refusal :=
  s.run (fun b => if b.flag .HITCH_STATUS_LINK_UP then b.cut 2 else b)

/-- The front-end reset of R54: discarded packets in UNSTARTED entries, one for each ring; every LIMIT before its head. -/
def Block.frontReset (b : Block) : Block :=
  let b := (List.range 256).foldl (fun b n =>
    match b.queued n, (b.queued n).getLast? with
    | c :: _, some l =>
      (b.cutEntry ⟨3, 3, n, c.seq, l.seq, 0, 0x056, b.rget .SPAOG_SQ_CFG_CTX n, b.hitch.lastCutT, []⟩).discardQueued n
    | _, _ => b) b
  (List.range 256).foldl (fun b n =>
    (b.rset .SPAOG_SQ_DBVAL_LIMIT n (b.rget .SPAOG_SQ_HEAD_SEQ n + 2 ^ 32 - 1)).setSq n { b.sqAux n with early := false }) b

/-- PERST_N_ASSERT (R50, R54). -/
def execPerstNAssert (s : State) : Host.Outcome State Fault Refusal :=
  s.run (fun b =>
    if b.boot.perstN then b
    else ({ b with boot := { b.boot with perstN := true } }.cut 3).frontReset)

/-- PERST_N_DEASSERT (R471): the Hitch may train its link. -/
def execPerstNDeassert (s : State) : Host.Outcome State Fault Refusal :=
  s.run (fun b => { b with boot := { b.boot with perstN := false, perstSeen := true } })

/-- FUNCTION_LEVEL_RESET (R51). -/
def execFunctionLevelReset (s : State) : Host.Outcome State Fault Refusal :=
  s.run (fun b => if b.flag .HITCH_STATUS_LINK_UP then b.cut 4 else b)

/-- CXL_RESET (R51), in CXL mode. -/
def execCxlReset (s : State) : Host.Outcome State Fault Refusal :=
  s.run (fun b => if b.flag .HITCH_STATUS_LINK_UP ∧ b.flag .CAPS_HOST_CXL then b.cut 5 else b)

/-- D3HOT_ENTRY (R51). -/
def execD3hotEntry (s : State) : Host.Outcome State Fault Refusal :=
  s.run (fun b => if b.flag .HITCH_STATUS_LINK_UP then b.cut 7 else b)

/-- IDE_CHECK_FAILURE (R49): the stream is insecure, and a cut with reason IDE. -/
def execIdeCheckFailure (s : State) : Host.Outcome State Fault Refusal :=
  s.run (fun b =>
    if b.flag .HITCH_STATUS_LINK_UP ∧ b.flag .HITCH_STATUS_IDE_STATE then (b.cut 6).rset .HITCH_STATUS_IDE_STATE 0 2 else b)

/-- IDE_REKEY_COMPLETE (R49): keying completes; the streams are secure. -/
def execIdeRekeyComplete (s : State) : Host.Outcome State Fault Refusal :=
  s.run (fun b => if b.flag .HITCH_STATUS_LINK_UP then b.rset .HITCH_STATUS_IDE_STATE 0 1 else b)

/-! ### HITCH_RESUME -/

/-- The fields of HITCH_CFG. -/
def Block.setHitchCfg (b : Block) (v : Nat) : Block :=
  ((b.rset .HITCH_CFG_RIDE_THROUGH 0 (bits v 0 1)).rset .HITCH_CFG_CR_PATH 0 (bits v 1 1)).rset .HITCH_CFG_P2P 0 (bits v 2 1)

/-- A held record reaches its slot (R53). -/
def Block.releaseHeld (b : Block) (h : HeldRecord) : Block :=
  let a := b.rget .SPAOG_CQ_BASE_ADDR h.cq * 4096 +
    32 * (b.rget .SPAOG_CQ_TAIL_WRITTEN h.cq % 2 ^ b.rget .SPAOG_CQ_CFG_SIZE_LOG2 h.cq)
  let b := b.hostWrite a h.record
  ((b.unreserve h.cq).count .SPAOG_CQ_TAIL_WRITTEN h.cq 1).setCq h.cq
    { (b.unreserve h.cq).cqAux h.cq with tailDue := true }

/-- The tail write-backs that waited for the end of the cut (R53, R85). -/
def Block.releaseTails (b : Block) : Block :=
  (b.cq.filter (fun p => p.2.tailDue)).foldl (fun b p =>
    (b.setCq p.1 { b.cqAux p.1 with tailDue := false }).tailWrite p.1 0 false) b

/-- The end of a cut (R53, R56, R48, R537). -/
def Block.resume (b : Block) : Block :=
  let held := b.hitch.held
  let b := match b.hitch.cfgNext with
    | some v => b.setHitchCfg v
    | none => b
  let b := ((b.rset .HITCH_STATUS_CUT_ACTIVE 0 0).rset .HITCH_STATUS_PAUSED 0 0).rset .HITCH_STATUS_HOLD_FULL 0 0
  let b := (b.rset .HITCH_CUT_STATUS_COUNT 0 0).rset .HITCH_CUT_STATUS_OVERFLOW 0 0
  let b := { b with hitch := { b.hitch with cuts := [], held := [], latched := false, cfgNext := none } }
  let b := (held.foldl Block.releaseHeld b).releaseTails
  let b := held.foldl (fun b h => b.coalesce h.cq h.irq) b
  b.sendPending

/-- HITCH_RESUME (R56): a write of GO while a cut is active. -/
def execHitchResume (s : State) : Host.Outcome State Fault Refusal :=
  s.run (fun b => b.barWrite 0x200018 (fun b => if b.cutActive then b.resume else b))

/-- MSIX_UNMASK (R48): the Mask bit of a vector is cleared. -/
def execMsixUnmask (vector : Fin 1024) (s : State) : Host.Outcome State Fault Refusal :=
  s.run (fun b => b.barWrite (0x24000C + 16 * vector.val) (fun b => (b.rset .MSIX_CTL_MASK vector 0).sendPending))

/-! ### Windows -/

/-- Whether a context exists (R489); context 0 does from READY on (R485). -/
def Block.ctxExists (b : Block) (c : Nat) : Bool := b.boot.contexts.contains c

/-- The answer of Unsupported Request, or an error response without poison (R33): an answer with no bytes. -/
def Block.answerUr (b : Block) : Block := { b with out := { b.out with reads := b.out.reads ++ [[]] } }

/-- A refused host or peer access (R33, R38): an entry, and an Unsupported Request for a read. -/
def Block.refuse (b : Block) (isRead : Bool) (addr ctx : Nat) : Block :=
  let b := b.accessError 0x056 none 0 addr ctx
  if isRead then b.answerUr else b

/-- The host holds the lines of an HDM read (R34): 64-byte entries, the oldest leaving a full filter. -/
def Block.snoopAdmit (b : Block) (unit : Nat) : Block :=
  if b.hitch.snoop.contains unit then b
  else
    let l := if 1048576 ≤ b.hitch.snoop.length then b.hitch.snoop.tail else b.hitch.snoop
    { b with hitch := { b.hitch with snoop := l ++ [unit] } }

/-- The 64-byte units of module memory that a range of device virtual addresses covers. -/
def Block.snoopRange (b : Block) (ctx va n : Nat) : Block :=
  ((List.range ((n + va % 64 + 63) / 64)).foldl (fun b i =>
    let x := va / 64 * 64 + i * 64
    match b.leafAt ctx x with
    | some (_, lf) =>
      if lf.tier = 0 then b.snoopAdmit ((lf.target + x % (if lf.small then 65536 else pageBytes)) / 64) else b
    | none => b) b)

/-- A window access to device virtual address `va` of a context with a hint (R32, R33, R37). -/
def Block.windowAccess (b : Block) (ctx va n hint : Nat) (data : Option (List Byte)) (addr : Nat) (hold : Bool) : Block :=
  let q : Req := ⟨⟨0x056, ctx, none, none⟩, hint, 0, 10⟩
  match data with
  | none =>
    match readVa q va n b with
    | (.ok bs, b) => (if hold then b.snoopRange ctx va n else b).answer bs
    | (.error _, b) => b.refuse true addr ctx
  | some bs =>
    let b := b.count .PERF_HOST_WR_COUNT 0 (ceilDiv bs.length 64)
    match writeVa q va bs b with
    | (.ok _, b) => b
    | (.error _, b) => b.refuse false addr ctx

/-- BAR2_HDM_ACCESS (R31 to R35, R40, R486). -/
def Block.doWindow (b : Block) (w : WinOp) : Block :=
  let isRead := w.data.isNone
  if !b.flag .HITCH_STATUS_LINK_UP ∨ (w.win ≠ 0 ∧ !b.flag .CAPS_HOST_CXL) then b
  else if b.flag .OSTLER_BOOT_STATUS_READY ∧ b.flag .OSTLER_BOOT_STATUS_SECURITY ∧ b.rget .HITCH_STATUS_IDE_STATE ≠ 1 then
    b.refuse isRead w.offset 0xFF
  else if w.atomicOp then b.answerUr
  else
    let i := w.win.val - 1
    let valid := if w.win = 0 then b.flag .HITCH_BAR2_MAP_VALID else b.flag .HITCH_HDM_MAP_VALID i
    let ctx := if w.win = 0 then b.rget .HITCH_BAR2_MAP_CTX else b.rget .HITCH_HDM_MAP_CTX i
    let base := if w.win = 0 then b.rget .HITCH_BAR2_MAP_VA_BASE * 2 ^ 21 else b.rget .HITCH_HDM_MAP_VA_BASE i * 2 ^ 28
    if !valid ∨ !b.ctxExists ctx then b.refuse isRead w.offset 0xFF
    else b.windowAccess ctx (base + w.offset) w.size 0 w.data w.offset (decide (w.win ≠ 0))

def execBar2HdmAccess (w : WinOp) (s : State) : Host.Outcome State Fault Refusal := s.run (fun b => b.doWindow w)

/-- The window that takes a peer access: the lowest-numbered enabled one that holds the address (R37, R39). -/
def Block.peerWindow (b : Block) (addr : Nat) : Option Nat :=
  (((b.listed .HITCH_WIN_CTL).filter (fun kv => bitAt kv.2 0 && decide (b.rget .HITCH_WIN_BASE_ADDR kv.1 ≤ addr) &&
    decide (addr ≤ b.rget .HITCH_WIN_LIMIT_ADDR kv.1))).map (fun kv => kv.1)).head?

/-- Whether the streams that the security mode asks of peer accesses are secure (R535). -/
def Block.peerSecure (b : Block) : Bool :=
  !b.flag .OSTLER_BOOT_STATUS_SECURITY || decide (b.rget .HITCH_STATUS_IDE_STATE = 1)

/-- A peer access of a requester (R37 to R40, R535). -/
def Block.peerAccess (b : Block) (addr requester n : Nat) (data : Option (List Byte)) : Block :=
  let isRead := data.isNone
  if !b.flag .HITCH_STATUS_LINK_UP then b
  else if !b.flag .HITCH_CFG_P2P ∨ !b.peerSecure then b.refuse isRead addr 0xFF
  else
    match b.peerWindow addr with
    | none => b.refuse isRead addr 0xFF
    | some w =>
      let ctx := b.rget .HITCH_WIN_CTL_CTX w
      if (b.flag .HITCH_WIN_CTL_REQ_CHECK w ∧ b.rget .HITCH_WIN_CTL_REQUESTER w ≠ requester) ∨
          (isRead ∧ !b.flag .HITCH_WIN_CTL_READ w) ∨ !b.ctxExists ctx then b.refuse isRead addr ctx
      else
        b.windowAccess ctx (b.rget .HITCH_WIN_TARGET_TARGET_VA w * 4096 + (addr - b.rget .HITCH_WIN_BASE_ADDR w)) n 1 data addr false

/-- PEER_WRITE (R37). -/
def execPeerWrite (addr : Nat) (requester : BitVec 16) (data : List (BitVec 8)) (s : State) : Host.Outcome State Fault Refusal :=
  s.run (fun b => b.peerAccess addr requester.toNat data.length (some data))

/-- PEER_READ (R38). -/
def execPeerRead (addr : Nat) (requester : BitVec 16) (n : Nat) (s : State) : Host.Outcome State Fault Refusal :=
  s.run (fun b => b.peerAccess addr requester.toNat n none)

/-! ### Configuration space -/

/-- CONFIGURATION_REQUEST (R56): Retry Status until the boot ROM has released the Hitch; then the request is applied. What
a write leaves in a dword is the PCIe Base Specification's (`Config.configWrite`). -/
def Block.configRequest (b : Block) (r : CfgReq) : Block :=
  let st := b.rget .OSTLER_BOOT_STATUS_STAGE
  if !b.flag .HITCH_STATUS_LINK_UP then b
  else if st ≤ 1 ∨ st = 15 then b.answerUr
  else
    match r with
    | .read d =>
      { b with out := { b.out with reads := b.out.reads ++ [bytesOf 4 (Sparse.get Config.configReset b.hitch.config d).toNat] } }
    | .write d v =>
      let c := b.hitch.config
      let new := Sparse.set Config.configReset c d (Config.configWrite d (Sparse.get Config.configReset c d) v)
      { b with hitch := { b.hitch with config := new } }
    | .msix en mask => ({ b with hitch := { b.hitch with msixEnable := en, funcMask := mask } }).sendPending
    | .bar2Size k => if 30 ≤ k ∧ k ≤ 39 then { b with hitch := { b.hitch with barSize := k } } else b

def execConfigurationRequest (r : CfgReq) (s : State) : Host.Outcome State Fault Refusal :=
  s.run (fun b => b.configRequest r)

end Sys2Proof.Machine
end

