-- ==== Sys2Proof/Machine/DroverCmd.lean ====
section
/-! DEFINITION. The commands and events of the Drover (chapter 09), but for SNAPSHOT and TIER_TIMEOUT, which reach into
other engines. -/

namespace Sys2Proof.Machine

/-- The status of a NO_SPACE ending (R269). -/
def noSpace {α : Type} : Act α := throw (.fin 0x6004 0)

/-- Whether two ranges of device virtual addresses overlap. -/
def rangesMeet (a m c n : Nat) : Bool := decide (a < c + n) && decide (c < a + m)

/-- Whether the parameters of a MAP obey R243 and R268. -/
def Block.mapOk (b : Block) (ctx : Nat) (p : MapParams) : Bool :=
  let ps := objPage p.small
  decide (p.va % ps = 0) && decide (p.size % ps = 0) && decide (65536 ≤ p.size) && decide (p.size ≤ 2 ^ 40) &&
  decide (p.va + p.size ≤ 2 ^ 56) && decide (p.obj < 16384) && decide (p.tier ≤ 2) && decide (p.tier ≠ 1 ∨ p.lend < 16) &&
  decide ((b.obj ctx p.obj) = none) &&
  b.drover.objs.all (fun o => decide (o.ctx ≠ ctx) || !rangesMeet o.va o.size p.va p.size)

/-- The object that a MAP creates. -/
def mapObj (ctx : Nat) (p : MapParams) (t : Nat) : Obj :=
  ⟨ctx, p.obj, p.va, p.size, p.small, p.write, p.guarded, p.cache, p.droppable, p.tier, p.lend, t, none, 0⟩

/-- A lend that no REVOKE has ended yet: the one a Drover revokes first when it needs pages itself (R253; the lowest
number, DESIGN CHOICE). -/
def Block.freeLend (b : Block) : Option Lend :=
  (b.drover.lends.filter (fun l => decide (l.graceT = none))).foldl
    (fun best l => match best with
      | some x => if l.id < x.id then some l else best
      | none => some l) none

/-- A revocation begins: the grace starts and the borrower is told (R253). -/
def Block.startRevoke (b : Block) (lend : Nat) (cmd : Option Nat) : Block :=
  match b.drover.lends.find? (fun l => decide (l.id = lend)) with
  | none => b
  | some l =>
    let b := { b with drover := { b.drover with lends := b.drover.lends.map (fun x =>
      if x.id = lend then { x with graceT := some (x.graceT.getD b.clk.t), cmds := x.cmds ++ cmd.toList } else x) } }
    if l.graceT = none then b.tell l.rank 2 0xF (.revoke lend) else b

/-- Whether the lender's own allocation waits for the end of a revocation (R253). -/
def Block.revoking (b : Block) : Bool := b.drover.lends.any (fun l => decide (l.graceT ≠ none))

/-- An allocation of a command in the local tier that fails may wait for a revocation of a lend (R253): the command
then stays waiting. -/
def Block.mustRevoke (b : Block) (tier : Nat) : Bool :=
  decide (tier = 0) && (b.revoking || (b.freeLend).isSome)

/-- MAP's effect where its parameters are in range (R244, R245, R255 to R257): the object with zeroed pages. -/
def Block.mapInto (b : Block) (p : MapParams) (id : Nat) (o : Obj) (targets : List Nat) : Block :=
  let b := targets.foldl (fun b a =>
    if p.tier = 2 ∧ b.cutActive then b.noteCut id a (objPage p.small)
    else b.putTier p.tier a (objPage p.small) []) b
  let b := b.mapLeaves o p.tier targets false
  let b := (b.quotaAdd o p.tier true).count .DROVER_STATUS_OBJECTS 0 1
  { b with drover := { b.drover with objs := b.drover.objs ++ [o] } }

/-- MAP (R243 to R245, R255, R268); with no path to the lender, no page can be zeroed (R244, R254). -/
def Block.doMap (c : Cmd) (p : MapParams) (b : Block) : Block :=
  let o := mapObj c.ctx p b.clk.t
  if !b.mapOk c.ctx p then b.finish c.id 0x0100 0 0
  else if 65536 ≤ b.drover.objs.length then b.finish c.id 0x6004 0 0
  else if !p.cache && !b.quotaRoom c.ctx p.tier (objUnits p.size) then b.finish c.id 0x0101 0 0
  else
    match b.alloc c.ctx p.guarded p.small p.size p.tier p.lend with
    | some r =>
      if p.tier = 1 ∧ b.lenderUp p.lend = false then (b.count .DROVER_TIER_FAIL_COUNT 0 1).finish c.id 0x0200 1 0
      else (r.2.mapInto p c.id o r.1).finish c.id 0 0 (p.size / objPage p.small)
    | none =>
      if b.mustRevoke p.tier then
        match b.freeLend with
        | some l => if b.revoking then b else b.startRevoke l.id none
        | none => b
      else b.finish c.id 0x6004 0 0

def execMap (id : Nat) (p : MapParams) (s : State) : Host.Outcome State Fault Refusal :=
  s.run (fun b => b.runCmd id (.map p) always2 (fun c b => b.doMap c p))

/-- UNMAP (R248, R263, R268). -/
def Block.doUnmap (c : Cmd) (p : ObjParams) (b : Block) : Block :=
  match b.obj c.ctx p.obj with
  | none => b.finish c.id 0x0100 0 0
  | some o => (b.removeObj o).finish c.id 0 0 0

def execUnmap (id : Nat) (p : ObjParams) (s : State) : Host.Outcome State Fault Refusal :=
  s.run (fun b => b.runCmd id (.unmap p) always2 (fun c b => b.doUnmap c p))

/-- Whether the object that a PIN or UNPIN names is not under migration (R263). -/
def Block.notMigrating (p : ObjParams) (c : Cmd) (b : Block) : Bool :=
  match b.obj c.ctx p.obj with
  | some o => decide (o.mig = none)
  | none => true

/-- PIN (R255, R268). -/
def Block.doPin (c : Cmd) (p : ObjParams) (b : Block) : Block :=
  match b.obj c.ctx p.obj with
  | none => b.finish c.id 0x0100 0 0
  | some o =>
    if o.cache && !b.quotaRoom c.ctx o.tier (objUnits o.size) then b.finish c.id 0x0101 0 0
    else if o.cache then
      ((b.quotaAdd { o with cache := false } o.tier true).updObj c.ctx p.obj (fun x => { x with cache := false })).finish c.id 0 0 0
    else b.finish c.id 0 0 0

def execPin (id : Nat) (p : ObjParams) (s : State) : Host.Outcome State Fault Refusal :=
  s.run (fun b => b.runCmd id (.pin p) (Block.notMigrating p) (fun c b => b.doPin c p))

/-- UNPIN, which sets the age to 0 (R268, chapter 09's encodings). -/
def Block.doUnpin (c : Cmd) (p : ObjParams) (b : Block) : Block :=
  match b.obj c.ctx p.obj with
  | none => b.finish c.id 0x0100 0 0
  | some o =>
    ((b.quotaAdd o o.tier false).updObj c.ctx p.obj (fun x => { x with cache := true, lastUse := b.clk.t })).finish c.id 0 0 0

def execUnpin (id : Nat) (p : ObjParams) (s : State) : Host.Outcome State Fault Refusal :=
  s.run (fun b => b.runCmd id (.unpin p) (Block.notMigrating p) (fun c b => b.doUnpin c p))

/-- MIGRATE (R255, R258, R263, R268, R556): the target's pages are taken, MIG is set on every page, and the first pass
starts. -/
def Block.doMigrate (c : Cmd) (p : MigrateParams) (b : Block) : Block :=
  match b.obj c.ctx p.obj with
  | none => b.finish c.id 0x0100 0 0
  | some o =>
    if 2 < p.tier ∨ (p.tier = 1 ∧ 16 ≤ p.lend) then b.finish c.id 0x0100 0 0
    else if o.mig ≠ none then b.finish c.id 0x6001 1 0
    else if p.tier = o.tier ∧ (p.tier ≠ 1 ∨ p.lend = o.lend) then b.finish c.id 0 0 0
    else if !o.cache && p.tier ≠ o.tier && !b.quotaRoom c.ctx p.tier (objUnits o.size) then b.finish c.id 0x0101 0 0
    else
      let b0 := b.updObj c.ctx p.obj (fun x => { x with users := x.users + 1 })
      match b0.alloc c.ctx o.guarded o.small o.size p.tier p.lend with
      | some r =>
        let b := r.2.updObj c.ctx p.obj (fun x =>
          { x with users := x.users - 1, mig := some ⟨some c.id, p.tier, p.lend, r.1, [], 0⟩ })
        ((b.setMig o true).count .DROVER_STATUS_MIGRATING 0 1).setRunning c.id
      | none =>
        if b.mustRevoke p.tier then
          match b.freeLend with
          | some l => if b.revoking then b else b.startRevoke l.id none
          | none => b
        else b.finish c.id 0x6004 0 0

def execMigrate (id : Nat) (p : MigrateParams) (s : State) : Host.Outcome State Fault Refusal :=
  s.run (fun b => b.runCmd id (.migrate p) always2 (fun c b => b.doMigrate c p))

/-- FLIP_BLOCKS for a target tier (R259). -/
def Block.flipBlocks (b : Block) (tier : Nat) : Nat :=
  match tier with
  | 0 => b.rget .DROVER_CFG_FLIP_LOCAL
  | 1 => b.rget .DROVER_CFG_FLIP_NEIGHBOUR
  | _ => b.rget .DROVER_CFG_FLIP_HOST

/-- Why a migration's copying fails now, if it does (R251, R254, R262). -/
def Block.migFails (b : Block) (o : Obj) (m : Mig) : Option (Nat × Nat) :=
  if (m.tier = 2 ∨ o.tier = 2) ∧ b.cutActive then some (0x0500, 0)
  else if (m.tier = 1 ∧ m.targets.any (fun a => !b.lendUp a)) ∨ (o.tier = 1 ∧ (b.targets o).any (fun a => !b.lendUp a)) then some (0x0200, 1)
  else if !b.readable o then some (0x0200, 1)
  else none

/-- A copy pass has ended with the dirty blocks `d` (R259): the flip, which takes `flipNs`, or another pass, or the
end without convergence. -/
def Block.passEnd (b : Block) (o : Obj) (m : Mig) (d : List Nat) (flipNs : Nat) : Block :=
  let n := m.passes + 1
  match b.migFails o m with
  | some r =>
    let b := if r.1 = 0x0200 ∧ b.readable o then b.count .DROVER_TIER_FAIL_COUNT 0 1 else b
    let b := match m.cmd with
      | some id => if m.tier = 2 ∧ b.cutActive then b.noteCut id (m.targets.headD 0) o.size else b
      | none => b
    (b.endMigCmd o r.1 r.2).endMig o
  | none =>
    if d.length ≤ b.flipBlocks m.tier then
      let b := (b.commitMove o m.tier m.lend m.targets).flipTime flipNs
      let b := b.rset .DROVER_STATUS_MIGRATING 0 (b.rget .DROVER_STATUS_MIGRATING - 1)
      match m.cmd with
      | some id => b.finish id 0 0 (halves n (min 20000 flipNs))
      | none => b
    else if b.rget .DROVER_CFG_MAX_PASSES ≤ n then (b.endMigCmd o 0x6001 2).endMig o
    else b.updObj o.ctx o.obj (fun x => { x with mig := some { m with passes := n, dirty := d } })

/-- MIGRATION_PASS_END: `kept` names the dirty blocks that the pass has not cleared when it read their pages (R258). -/
def Block.doPassEnd (b : Block) (ctx obj : Nat) (kept : List Nat) (flipNs : Nat) : Block :=
  match b.obj ctx obj with
  | some o =>
    match o.mig with
    | some m => b.passEnd o m (m.dirty.filter (fun d => kept.contains d)) flipNs
    | none => b
  | none => b

def execMigrationPassEnd (ctx : Fin 16) (obj : Nat) (kept : List Nat) (flipNs : Nat) (s : State) :
    Host.Outcome State Fault Refusal :=
  s.run (fun b => b.doPassEnd ctx obj kept flipNs)

/-- FLIP_ABANDON (R260): the attempt counts as a pass. -/
def Block.doAbandon (b : Block) (ctx obj : Nat) : Block :=
  match b.obj ctx obj with
  | some o =>
    match o.mig with
    | some m =>
      let b := b.count .DROVER_FLIP_ABANDON_COUNT 0 1
      if b.rget .DROVER_CFG_MAX_PASSES ≤ m.passes + 1 then (b.endMigCmd o 0x6001 2).endMig o
      else b.updObj ctx obj (fun x => { x with mig := some { m with passes := m.passes + 1 } })
    | none => b
  | none => b

def execFlipAbandon (ctx : Fin 16) (obj : Nat) (s : State) : Host.Outcome State Fault Refusal :=
  s.run (fun b => b.doAbandon ctx obj)

/-- LEND (R252, R268). -/
def Block.doLend (c : Cmd) (p : LendParams) (b : Block) : Block :=
  if c.ctx ≠ 0 ∨ 255 < p.lendId ∨ 16384 ≤ p.rank ∨ 1 < p.guarded ∨ p.pages = 0 ∨
      b.drover.lends.any (fun l => decide (l.id = p.lendId)) then b.finish c.id 0x0100 0 0
  else if !b.reachable p.rank then (b.count .HOKUKE_UNREACHABLE_COUNT 0 1).finish c.id 0x0200 1 0
  else
    match b.alloc 0 (decide (p.guarded = 1)) false (p.pages * pageBytes) 0 0 with
    | none => b.finish c.id 0x6004 0 0
    | some r =>
      let b := r.2
      let b := { b with drover := { b.drover with
        lends := b.drover.lends ++ [Lend.mk p.lendId p.rank (decide (p.guarded = 1)) (r.1.map (fun a => a / pageBytes)) none []] } }
      let b := b.count .DROVER_STATUS_LENT_PAGES 0 p.pages
      (b.tell p.rank 2 0 (.lendOffer p.lendId (decide (p.guarded = 1)) p.pages)).finish c.id 0 0 0

def execLend (id : Nat) (p : LendParams) (s : State) : Host.Outcome State Fault Refusal :=
  s.run (fun b => b.runCmd id (.lend p) always2 (fun c b => b.doLend c p))

/-- REVOKE (R253, R268): the grace starts; the command completes when it ends. -/
def Block.doRevoke (c : Cmd) (p : RevokeParams) (b : Block) : Block :=
  if c.ctx ≠ 0 ∨ !b.drover.lends.any (fun l => decide (l.id = p.lendId)) then b.finish c.id 0x0100 0 0
  else (b.startRevoke p.lendId (some c.id)).setRunning c.id

def execRevoke (id : Nat) (p : RevokeParams) (s : State) : Host.Outcome State Fault Refusal :=
  s.run (fun b => b.runCmd id (.revoke p) always2 (fun c b => b.doRevoke c p))

/-- The grace of a revocation (DROVER_CFG.GRACE_MS). -/
def Block.grace (b : Block) : Nat := b.rget .DROVER_CFG_GRACE_MS * msec

/-- The end of a lend on the lender (R253): its pages are freed and its REVOKE completes with the number of borrower
pages that became revoked. -/
def Block.endLend (b : Block) (l : Lend) (revoked : Nat) : Block :=
  let b := l.pages.foldl (fun b p => b.freePage p) b
  let b := { b with drover := { b.drover with lends := b.drover.lends.filter (fun x => !decide (x.id = l.id)) } }
  let b := b.rset .DROVER_STATUS_LENT_PAGES 0 (b.rget .DROVER_STATUS_LENT_PAGES - l.pages.length)
  l.cmds.foldl (fun b id => b.finish id 0 0 revoked) b

/-- Migrations into the lend of a slot end with PEER_REVOKED, their objects at the source (R263). -/
def Block.endMigsInto (b : Block) (slot : Nat) : Block :=
  (b.drover.objs.filter (fun o => o.mig.any (fun m => decide (m.tier = 1) && decide (m.lend = slot)))).foldl
    (fun b o => (b.endMigCmd o 0x0201 0).endMig o) b

/-- The end of a lend on the borrower (R253, R254): every page still in it becomes revoked, and migrations into it end. -/
def Block.endBorrow (b : Block) (slot : Nat) : Block :=
  let rank := b.rget .DROVER_BORROW_RANK slot
  let lend := b.rget .DROVER_BORROW_LEND_ID slot
  let base := neighbourAddr rank lend 0 0 / pageBytes / 2 ^ 18
  let mine := b.drover.leaves.filter (fun p => p.2.valid && decide (p.2.tier = 1) && decide (p.2.target / pageBytes / 2 ^ 18 = base))
  let b := mine.foldl (fun b p => b.setLeaf p.1 { p.2 with revoked := true }) b
  let b := b.tlbInval (fun k => mine.any (fun p => decide (p.1 = k)))
  let b := b.endMigsInto slot
  let b := { b with drover := { b.drover with borrows := Sparse.del b.drover.borrows slot } }
  let b := ((b.rset .DROVER_BORROW_VALID slot 0).rset .DROVER_BORROW_REVOKING slot 0)
  ((b.rset .DROVER_BORROW_RANK slot 0).rset .DROVER_BORROW_LEND_ID slot 0).rset .DROVER_BORROW_PAGES slot 0

/-- GRACE_EXPIRY, on the lender of lend `n` or on the borrower in slot `n` (R253): not before the grace's end. -/
def Block.doGrace (b : Block) (lender : Bool) (n revoked : Nat) : Block :=
  if lender then
    match b.drover.lends.find? (fun l => decide (l.id = n)) with
    | some l =>
      match l.graceT with
      | some t => (b.advanceTo (t + b.grace)).endLend l revoked
      | none => b
    | none => b
  else
    match (b.borrow n).graceT with
    | some t => (b.advanceTo (t + b.grace)).endBorrow n
    | none => b

def execGraceExpiry (lender : Bool) (n revoked : Nat) (s : State) : Host.Outcome State Fault Refusal :=
  s.run (fun b => b.doGrace lender n revoked)

/-- LENDER_PATH_LOSS (R254): the path to the lender of a slot is found lost, and after GRACE_MS without it the lend's
pages become revoked. -/
def Block.doPathLoss (b : Block) (slot : Nat) : Block :=
  let br := b.borrow slot
  if !b.flag .DROVER_BORROW_VALID slot then b
  else if b.reachable (b.rget .DROVER_BORROW_RANK slot) then
    { b with drover := { b.drover with borrows := Sparse.set (always Borrow.init) b.drover.borrows slot { br with pathLostT := none } } }
  else
    match br.pathLostT with
    | none => { b with drover := { b.drover with borrows := Sparse.set (always Borrow.init) b.drover.borrows slot { br with pathLostT := some b.clk.t } } }
    | some t => (b.advanceTo (t + b.grace)).endBorrow slot

def execLenderPathLoss (slot : Fin 16) (s : State) : Host.Outcome State Fault Refusal :=
  s.run (fun b => b.doPathLoss slot)

/-- An object of a revoked lend leaves it: to the host tier, or dropped if it is droppable; otherwise it stays
(R253). -/
def Block.leaveLend (b : Block) (o : Obj) : Block :=
  match b.moveObj o 2 0 with
  | some b' => b'
  | none => if o.droppable then b.dropObj o else b

/-- The borrow slot of a lend of a rank. -/
def Block.slotOfLend (b : Block) (src lend : Nat) : Option Nat :=
  (List.range 16).find? (fun i => b.flag .DROVER_BORROW_VALID i && decide (b.rget .DROVER_BORROW_RANK i = src) &&
    decide (b.rget .DROVER_BORROW_LEND_ID i = lend))

/-- A slot is told of its revocation (R253, R263): it is revoking; migrations into the lend end with PEER_REVOKED; affected
objects leave it (at once, DESIGN CHOICE; the grace is the longest that hardware may take). -/
def Block.noticed (b : Block) (slot : Nat) : Block :=
  let b := b.rset .DROVER_BORROW_REVOKING slot 1
  let br := b.borrow slot
  let b := { b with drover := { b.drover with
    borrows := Sparse.set (always Borrow.init) b.drover.borrows slot { br with graceT := some (br.graceT.getD b.clk.t) } } }
  let b := b.endMigsInto slot
  (b.drover.objs.filter (fun o => decide (o.tier = 1) && decide (o.lend = slot) && decide (o.mig = none))).foldl
    (fun b o => b.leaveLend o) b

/-- REVOCATION_NOTICE (R253, R263). -/
def Block.doNotice (b : Block) (src lend : Nat) : Block :=
  match b.slotOfLend src lend with
  | none => b
  | some slot => b.noticed slot

def execRevocationNotice (src lend : Nat) (s : State) : Host.Outcome State Fault Refusal :=
  s.run (fun b => b.doNotice src lend)

/-- The unit that a translation cache serves: a team's first tile, or the Drover (R246). -/
def cacheSource (cache : Nat) : Nat := if cache < 8 then 8 * cache else 0x050

/-- TLB_WALK (R242, R246, R247): a translation that misses walks the table. -/
def execTlbWalk (cache : Fin 11) (ctx : Fin 16) (va : Nat) (write : Bool) (s : State) : Host.Outcome State Fault Refusal :=
  s.run (fun b => b.runAct (translate { who := ⟨cacheSource cache, ctx, none, none⟩, cache := cache } va write))

/-- Whether the layout of page `ppn`'s frame holds a stack that no longer works (R220). -/
def Block.narrowed (b : Block) (ppn : Nat) : Bool :=
  match (b.frame (ppn / 8)).layout with
  | some m => decide (m ≠ b.setMask (ppn / 8 % 32))
  | none => false

/-- The mapped pages of narrowed frames. -/
def Block.rebuildPages (b : Block) : List Nat := b.drover.usedPages.filter (fun p => b.narrowed p && !b.mem.retired.contains p)

/-- DROVER_STATUS.REBUILDING: a page of a narrowed frame still waits (R264). -/
def Block.setRebuilding (b : Block) : Block :=
  let more := !b.rebuildPages.isEmpty
  let b := b.rset .DROVER_STATUS_REBUILDING 0 (b2n more)
  if more then b else { b with drover := { b.drover with rebuildLogged := false } }

/-- FRAME_REBUILD of one page (R264): guarded pages first; with no free page of the class, the page stays, and the first
such failure of the rebuild is logged. -/
def Block.doRebuild (b : Block) (ppn flipNs : Nat) : Block :=
  let ps := b.rebuildPages
  let g := fun p => (b.frame (p / 8)).guarded
  if ps.contains ppn && (g ppn || !ps.any g) then
    match b.movePage ppn flipNs with
    | some b' => b'.setRebuilding
    | none =>
      if b.drover.rebuildLogged then b.setRebuilding
      else
        let b := b.errLog { source := 0x050, cls := 0x0D, outcome := 5, mpa := true, addr := ppn * pageBytes }
        { b.setRebuilding with drover := { b.setRebuilding.drover with rebuildLogged := true } }
  else b

def execFrameRebuild (page flipNs : Nat) (s : State) : Host.Outcome State Fault Refusal :=
  s.run (fun b => b.doRebuild page flipNs)

/-- PAGE_REMAP (R198, R265): a retired page that is still mapped moves to a free page of its class; from then on no
access reaches it. -/
def Block.doRemap (b : Block) (ppn flipNs : Nat) : Block :=
  if b.mem.retired.contains ppn && b.drover.usedPages.contains ppn then
    match b.movePage ppn flipNs with
    | some b' => { b' with mem := { b'.mem with gone := b'.mem.gone ++ [ppn] } }
    | none => b
  else b

def execPageRemap (page flipNs : Nat) (s : State) : Host.Outcome State Fault Refusal :=
  s.run (fun b => b.doRemap page flipNs)

end Sys2Proof.Machine
end

