-- ==== Sys2Proof/Machine/MemRows.lean ====
section
/-! DEFINITION. The events of the stacks, of Ream and of the Vat (chapters 07 and 08). -/

namespace Sys2Proof.Machine

/-- A command whose access ended so completes with that status, if it is still in progress. -/
def Block.failCmd (b : Block) (cmd : Option Nat) (status detail : Nat) : Block :=
  match cmd with
  | none => b
  | some id =>
    match b.findCmd id with
    | some c => if c.phase = .waiting ∨ c.phase = .running then b.finish id status detail 0 else b
    | none => b

/-! ### The Vat -/

/-- A detection at a slice on the line with key `k` (R240): the block, and the detail of LOST_DATA when the access
ends so. -/
def Block.vatDetect (b : Block) (pl : Place) (k l : Nat) (f : VatFault) : Block × Option Nat :=
  let s := k / 2 ^ 32
  let x := b.vline k
  let b := b.count .VAT_DETECT_COUNT s 1
  let b := { b with mem := { b.mem with
    sliceErrs := b.mem.sliceErrs ++ [SliceErr.mk (b.homeSlice k) b.clk.t (decide (f = VatFault.bothTags))] } }
  let e : ErrIn := { source := 0x48 + s, cls := 0x0B, outcome := 0, mpa := true, tag := (slotOfKey k).tag, addr := l * 128 }
  if f = .oneTag then (b.absorbed e, none)
  else if !x.dirty then ((b.dropLine k).absorbed e, none)
  else if x.parity then ((b.rebuildParity pl).absorbed e, none)
  else if pl.parity.isSome then
    if b.rebuildable pl l then ((b.rebuildLine pl l).absorbed e, none)
    else
      let ps := pl.parity.getD pl.slot
      let b := (((b.dropLine k).loseLine l).count .REAM_DOUBLE_COUNT ps.s 1).count .STACK_LOST_COUNT pl.slot.s 1
      ((b.lostEntry { e with status := 0x0300, unit := 1 } true).perf (0x48 + s) 0x0C 0 0xFF 1, some 0x0011)
  else
    let old := Sparse.get (always []) b.mem.stackCopy l
    let b := { b with mem := { b.mem with
      bytes := if old = [] then b.mem.bytes else b.mem.bytes.writeBytes (l * 128) old
      stackCopy := Sparse.del b.mem.stackCopy l } }
    let b := (b.dropLine k).count .VAT_LOST_COUNT s 1
    ((b.lostEntry { e with status := 0x0300 } false).perf (0x48 + s) 0x0C 0 0xFF 1, some 0x0020)

/-- The request of an access row. -/
def vatOpReq (a : VatOp) : Req := ⟨⟨a.src, a.ctx, none, a.cmd⟩, a.hint, a.uses, 10⟩

/-- The ring and sequence number of a command, for its accesses' entries. -/
def Block.reqOf (b : Block) (q : Req) : Req :=
  match q.who.id.bind b.findCmd with
  | some c => { q with who := { q.who with cmd := some (c.ring, c.seq) } }
  | none => q

/-- VAT_ACCESS (R228, R240): the detection first, then the access. -/
def Block.doVatAccess (b : Block) (a : VatOp) : Block :=
  let n := min a.size (128 - a.mpa % 128)
  match b.place a.mpa with
  | none => (b.runAct (internalErr (b.reqOf (vatOpReq a)) a.mpa)).failCmd a.cmd 0x0FFF 0
  | some pl =>
    let k := if a.parity then (pl.parity.getD pl.slot).key else pl.slot.key
    let d := if a.fault ≠ .none ∧ (b.vline k).valid then b.vatDetect pl k (a.mpa / 128) a.fault else (b, none)
    match d.2 with
    | some detail => d.1.failCmd a.cmd 0x0300 detail
    | none =>
      if a.parity then d.1
      else
        let q := d.1.reqOf (vatOpReq a)
        match localAccess q a.mpa n (a.data.map (fun bs => fun _ => sliceBytes bs 0 n)) false d.1 with
        | (.ok _, b) => b
        | (.error x, b) => let r := x.status (0x0100, 0); b.failCmd a.cmd r.1 r.2

def execVatAccess (a : VatOp) (s : State) : Host.Outcome State Fault Refusal := s.run (fun b => b.doVatAccess a)

/-- VAT_ATOMIC (R236 to R239): a code, format or alignment that the table does not list gives RANGE. -/
def Block.doVatAtomic (b : Block) (a : AtomicOp) : Block :=
  match atomicSize a.op a.fmt with
  | none => b.failCmd a.cmd 0x0100 0
  | some n =>
    if a.mpa % n ≠ 0 then b.failCmd a.cmd 0x0100 0
    else
      let q := b.reqOf ⟨⟨a.src, a.ctx, none, a.cmd⟩, a.hint, a.uses, 10⟩
      match localAccess q a.mpa n (some (atomicBytes a.op a.fmt a.value a.cmp)) true b with
      | (.ok _, b) => b
      | (.error x, b) => let r := x.status (0x0100, 0); b.failCmd a.cmd r.1 r.2

def execVatAtomic (a : AtomicOp) (s : State) : Host.Outcome State Fault Refusal := s.run (fun b => b.doVatAtomic a)

/-- PARITY_DELTA (R210, R239): a delta reaches the parity line of the stripe of `mpa`; when the line is absent and its
fill fails after the steps of R213, it is rebuilt first (R554). -/
def execParityDelta (mpa : Nat) (fillFails : Bool) (s : State) : Host.Outcome State Fault Refusal :=
  s.run (fun b =>
    match b.place mpa with
    | some pl =>
      match pl.parity with
      | some ps =>
        let b := if fillFails && !(b.vline ps.key).valid then b.rebuildParity pl else b
        b.delta pl
      | none => b
    | none => b)

/-- PARITY_REBUILD (R554) of the stripe of `mpa`. -/
def execParityRebuild (mpa : Nat) (s : State) : Host.Outcome State Fault Refusal :=
  s.run (fun b =>
    match b.place mpa with
    | some pl => b.rebuildParity pl
    | none => b)

/-- The detections of a slice within the window of R241. -/
def Block.sliceWindow (b : Block) (sl : Nat) : List SliceErr :=
  let win := b.rget .VAT_CFG_RETIRE_WIN_MS * msec
  b.mem.sliceErrs.filter (fun e => decide (e.slice = sl) && decide (b.clk.t ≤ e.time + win))

/-- Whether a slice meets R241: it works, is not its group's last, and has had its detections. -/
def Block.sliceDue (b : Block) (sl : Nat) : Bool :=
  let w := b.sliceWindow sl
  b.sliceWorks sl && decide (1 < ((List.range 16).filter (fun j => b.sliceWorks (sl / 16 * 16 + j))).length) &&
    (decide (b.rget .VAT_CFG_RETIRE_ERRS ≤ w.length) || decide (2 ≤ (w.filter (fun e => e.bothTags)).length))

/-- SLICE_RETIREMENT (R241): dirty lines are written back, and the slice's lines have new homes. -/
def Block.retireSlice (b : Block) (sl : Nat) : Block :=
  let mine := (b.mem.vat.filter (fun p => p.2.valid && decide (b.homeSlice p.1 = sl))).map (fun p => p.1)
  let b := mine.foldl (fun b k => (b.writeBack k).dropLine k) b
  let f : Fld := if sl < 64 then .VAT_SLICE_MASK_LO_SLICE else .VAT_SLICE_MASK_HI_SLICE
  let b := b.rset f 0 (clearBit (b.rget f) (sl % 64))
  let b := b.rset .CAPS_COUNTS_VAT_SLICES 0 (b.rget .CAPS_COUNTS_VAT_SLICES - 1)
  let b := b.rset .VAT_STATUS_SLICES 0 (b.rget .VAT_STATUS_SLICES - 1)
  b.capsChanged.absorbed { source := 0x48 + sl / 16, cls := 0x0C, outcome := 0 }

def execSliceRetirement (slice : Fin 128) (s : State) : Host.Outcome State Fault Refusal :=
  s.run (fun b => if b.sliceDue slice then b.retireSlice slice else b)

/-- VAT_KEEP_RELEASE.GO (R233): every KEEP mark of the context is removed. -/
def Block.keepRelease (b : Block) (ctx : Nat) : Block :=
  (b.mem.vat.filter (fun p => decide (p.2.keep = some ctx))).foldl
    (fun b p => b.setLine p.1 { p.2 with keep := none }) b

def execVatKeepRelease (ctx : Fin 16) (s : State) : Host.Outcome State Fault Refusal :=
  s.run (fun b => b.barWrite 0x800010 (fun b => b.keepRelease ctx))

/-! ### Stacks and Ream -/

/-- The MPA line of a data slot; none for a parity slot or a slot outside its frame's layout (R199 read backwards). -/
def Block.lineOfSlot (b : Block) (q : Slot) : Option Nat :=
  let f := q.z / 16384 * 32 + q.u
  let t := q.z % 16384
  let p := b.layout f
  let g := (b.frame f).guarded
  let ps := p.getD (t % p.length) 0
  let data := if g then p.filter (fun s => !decide (s = ps)) else p
  match data.findIdx? (fun s => decide (s = q.s)) with
  | some x =>
    let n := t * data.length + x
    some ((f * 8 + n / 16384) * 16384 + n % 16384)
  | none => none

/-- The slots of the segment that holds a slot (R200). -/
def Slot.segment (q : Slot) : List Slot := (List.range 31).map (fun i => ⟨q.s, q.u, q.z / 31 * 31 + i⟩)

/-- A line that no step of R213 recovers, as a read of it ends (R216). -/
def Block.loseRead (b : Block) (pl : Place) (l : Nat) (cmd : Option Nat) : Block :=
  let b := (b.loseLine l).count .STACK_LOST_COUNT pl.slot.s 1
  let who := (b.reqOf ⟨⟨0x40 + pl.slot.s, 0xFF, none, cmd⟩, 0, 0, 10⟩).who
  (b.lineErr who l pl.slot pl.parity.isSome).failCmd cmd 0x0300 (if pl.parity.isSome then 0x0011 else 0x0010)

/-- A stripe is held at its parity slice while a line of it is rebuilt (R214). -/
def Block.holdStripe (b : Block) (ps q : Slot) : Block :=
  let b := { b with mem := { b.mem with holding := b.mem.holding ++ [ps.key] } }
  (b.rset .REAM_STATUS_HOLDING ps.s 1).rset .REAM_STATUS_RECON_INFLIGHT q.s (b.rget .REAM_STATUS_RECON_INFLIGHT q.s + 1)

/-- A held stripe is released. -/
def Block.releaseStripe (b : Block) (ps q : Slot) : Block :=
  let b := { b with mem := { b.mem with holding := b.mem.holding.erase ps.key } }
  let b := b.rset .REAM_STATUS_HOLDING ps.s (b2n (b.mem.holding.any (fun k => decide (k / 2 ^ 32 = ps.s))))
  b.rset .REAM_STATUS_RECON_INFLIGHT q.s (b.rget .REAM_STATUS_RECON_INFLIGHT q.s - 1)

/-- STACK_FILL (R203, R213): the line arrives; `fails` reads of it in a row fail their check. `chkBad` tells step 2: none
where the check line's own CRC passes, and otherwise the lines of the segment that fail against parity. -/
def Block.doStackFill (b : Block) (mpa fails : Nat) (chkBad : Option (List Nat)) (cmd : Option Nat) : Block :=
  match b.place mpa with
  | none => b
  | some pl =>
    let q := pl.slot
    let l := mpa / 128
    let re := b.rget .STACK_CFG_REREADS q.s
    let n := min fails (re + 1)
    let b := b.stackRead q
    let b := (b.count .STACK_RD_LINES_COUNT q.s (min fails re)).count .STACK_CRC_MISMATCH_COUNT q.s n
    let e : ErrIn := { source := 0x40 + q.s, cls := 0x09, outcome := 0, mpa := true, tag := q.tag, addr := l * 128,
                       unit := b2n pl.parity.isSome }
    if fails = 0 then b
    else if fails ≤ re then (b.count .STACK_REREAD_OK_COUNT q.s 1).absorbed e
    else
      match chkBad with
      | some bad =>
        if pl.parity.isSome then
          let b := b.count .STACK_CRC_MISMATCH_COUNT q.s 1
          if bad.contains (q.z % 31) then b.holdStripe (pl.parity.getD q) q else b.absorbed e
        else
          let b := b.count .STACK_CRC_MISMATCH_COUNT q.s 1
          let b := q.segment.foldl (fun b r =>
            match b.lineOfSlot r with
            | some m => if m = l ∨ (b.vline r.key).valid then b else b.loseLine m
            | none => b) b
          b.loseRead pl l cmd
      | none =>
        match pl.parity with
        | some ps => b.holdStripe ps q
        | none => b.loseRead pl l cmd

def execStackFill (mpa fails : Nat) (chkBad : Option (List Nat)) (cmd : Option Nat) (s : State) :
    Host.Outcome State Fault Refusal :=
  s.run (fun b => b.doStackFill mpa fails chkBad cmd)

/-- RECONSTRUCTION (R214, R215): the peers of the held stripe have arrived; `ok` tells whether they all passed and the
rebuilt line matches its word. -/
def Block.doRecon (b : Block) (mpa : Nat) (ok : Bool) (cmd : Option Nat) : Block :=
  match b.place mpa with
  | none => b
  | some pl =>
    match pl.parity with
    | none => b
    | some ps =>
      if b.mem.holding.contains ps.key then
        let l := mpa / 128
        let b := b.releaseStripe ps pl.slot
        if ok && b.rebuildable pl l && !b.lineLost l then
          let b := b.rebuildLine pl l
          let b := if b.slotUsable pl.slot then b.stackWrite pl.slot else b
          b.absorbed { source := 0x40 + pl.slot.s, cls := 0x09, outcome := 0, mpa := true, tag := pl.slot.tag,
                       addr := l * 128, unit := 1 }
        else (b.count .REAM_DOUBLE_COUNT ps.s 1).loseRead pl l cmd
      else b

def execReconstruction (mpa : Nat) (ok : Bool) (cmd : Option Nat) (s : State) : Host.Outcome State Fault Refusal :=
  s.run (fun b => b.doRecon mpa ok cmd)

/-- The pages with a data line or a parity line in a DRAM row (R223). -/
def Block.rowPages (b : Block) (q : Slot) : List Nat :=
  (q.segment.foldl (fun acc r =>
    let f := r.z / 16384 * 32 + r.u
    let ls := match b.lineOfSlot r with
      | some l => [l]
      | none => if (b.layout f).contains r.s then stripeLines b f (r.z % 16384) else []
    ls.foldl (fun acc l => if acc.contains (l / 16384) then acc else acc ++ [l / 16384]) acc) [])

/-- A page is retired (R223, R224); one that is not mapped is never mapped again. -/
def Block.retirePage (b : Block) (s : Nat) (ppn : Nat) : Block :=
  if b.mem.retired.contains ppn then b
  else
    let b := { b with mem := { b.mem with
      retired := b.mem.retired ++ [ppn]
      gone := if b.drover.usedPages.contains ppn then b.mem.gone else b.mem.gone ++ [ppn] } }
    b.count .STACK_PAGES_RETIRED_COUNT s 1

/-- The key of a bank: its stack's slot tag without segment and line. -/
def Slot.bank (q : Slot) : Nat := bankOf q.tag

/-- A DRAM row needs repair or retirement: counted for the window of R218. -/
def Block.noteRow (b : Block) (q : Slot) : Block :=
  { b with mem := { b.mem with rowEvents := b.mem.rowEvents ++ [(q.s * 32 + q.u, q.row, b.clk.t)] } }

/-- The repair of a DRAM row (R222). -/
def Block.repairRow (b : Block) (q : Slot) : Block :=
  let n := Sparse.get (always 0) b.mem.repairs q.bank + 1
  let b := { b with mem := { b.mem with repairs := Sparse.set (always 0) b.mem.repairs q.bank n } }
  (b.count .STACK_PPR_DONE_COUNT q.s 1).pprLog q.s q.row 1 n

/-- The retirement of the pages of a DRAM row (R223). -/
def Block.retireRow (b : Block) (q : Slot) : Block :=
  let n := Sparse.get (always 0) b.mem.repairs q.bank
  let b := { b with mem := { b.mem with
    failedRows := if b.mem.failedRows.contains q.row then b.mem.failedRows else b.mem.failedRows ++ [q.row] } }
  let b := (b.rowPages q).foldl (fun b p => b.retirePage q.s p) b
  let b := (b.pprLog q.s q.row 2 n).setCapacity
  b.capsChanged.absorbed { source := 0x40 + q.s, cls := 0x0A, outcome := 0, tag := q.row }

/-- ROW_REPAIR (R222, R223): a rewrite has failed its verify; the stack reports whether the bank has a spare row. -/
def Block.doRowRepair (b : Block) (mpa : Nat) (spare : Bool) : Block :=
  match b.place mpa with
  | none => b
  | some pl =>
    let q := pl.slot
    let b := b.noteRow q
    if spare && decide (Sparse.get (always 0) b.mem.repairs q.bank < b.rget .STACK_CFG_PPR_MAX q.s) then b.repairRow q
    else b.retireRow q

def execRowRepair (mpa : Nat) (spare : Bool) (s : State) : Host.Outcome State Fault Refusal :=
  s.run (fun b => b.doRowRepair mpa spare)

/-- Distinct DRAM rows of a pseudo-channel within the window of R218. -/
def Block.rowsInWindow (b : Block) (s u : Nat) : Nat :=
  let win := b.rget .STACK_CFG_MAPOUT_WIN_MS s * msec
  ((b.mem.rowEvents.filter (fun e => decide (e.1 = s * 32 + u) && decide (b.clk.t ≤ e.2.2 + win))).foldl
    (fun acc e => if acc.contains e.2.1 then acc else acc ++ [e.2.1]) ([] : List Nat)).length

/-- One pseudo-channel is mapped out: its CAPS bits and its log entry. -/
def Block.mapoutPc (b : Block) (s u : Nat) : Block :=
  if b.pcWorks s u then
    let b := b.rset .CAPS_CHANNEL_MASK_PSEUDO s (clearBit (b.rget .CAPS_CHANNEL_MASK_PSEUDO s) u)
    let other := if u % 2 = 0 then u + 1 else u - 1
    let b := if b.pcWorks s other then b
      else (b.rset .CAPS_CHANNEL_MASK_CHANNEL s (clearBit (b.rget .CAPS_CHANNEL_MASK_CHANNEL s) (u / 2))).rset
        .CAPS_COUNTS_CHANNELS 0 (b.rget .CAPS_COUNTS_CHANNELS - 1)
    let b := b.rset .STACK_STATUS_PC_MAPPED s (b.rget .STACK_STATUS_PC_MAPPED s + 1)
    (b.pprLog s (Slot.mk s u 0).row 3 0)
  else b

/-- What a map-out leaves in the stack's status and in CAPS (R219, R221). -/
def Block.stackState (b : Block) (s : Nat) : Block :=
  if b.rget .CAPS_CHANNEL_MASK_PSEUDO s = 0 then
    let b := b.rset .STACK_STATUS_STATE s 2
    if bitAt (b.rget .CAPS_STACK_MASK_STACK) s then
      (b.rset .CAPS_STACK_MASK_STACK 0 (clearBit (b.rget .CAPS_STACK_MASK_STACK) s)).rset
        .CAPS_COUNTS_STACKS 0 (b.rget .CAPS_COUNTS_STACKS - 1)
    else b
  else b.rset .STACK_STATUS_STATE s 1

/-- The map-out of pseudo-channels of a stack (R219): CAPS, one change, one entry, and the rebuild of the narrowed
frames begins (R264). -/
def Block.mapoutPcs (b : Block) (s : Nat) (us : List Nat) : Block :=
  if us.any (fun u => b.pcWorks s u) then
    let b := us.foldl (fun b u => b.mapoutPc s u) b
    let b := ((b.stackState s).setCapacity).capsChanged
    let lost := decide (b.rget .STACK_STATUS_STATE s = 2)
    (b.absorbed { source := 0x40 + s, cls := if lost then 0x0E else 0x0D, outcome := 0 }).setRebuilding
  else b

/-- The pseudo-channels that a map-out takes: all of a lost stack, those past the limit of rows, or the ones named (R218). -/
def Block.mapoutUnits (b : Block) (s : Nat) (pcs : List Nat) (cause : Nat) : List Nat :=
  if cause = 3 then List.range 32
  else if cause = 2 then pcs.filter (fun u => decide (b.rget .STACK_CFG_MAPOUT_ROWS s ≤ b.rowsInWindow s u))
  else pcs

/-- A command that a stack's loss hits ends with STEP_RESTART (R221). -/
def Block.stackHits (b : Block) (s id : Nat) : Block :=
  match b.findCmd id with
  | some c =>
    if c.phase = .running then
      (b.finish id 0x0301 0 0).errLog { source := 0x40 + s, cls := 0x0E, outcome := 2, status := 0x0301, ctx := c.ctx,
                                        cmd := some (c.ring, c.seq) }
    else b
  | none => b

/-- MAPOUT: the causes of R218 are 0 two failed retrains, 1 command-address parity errors, 2 the rows of the window
(which the model counts), 3 the stack stops answering. At the loss of the stack, the commands that `hit` names, in
progress and touching scratch data lost with it, complete with STEP_RESTART (R221). -/
def Block.doMapout (b : Block) (s : Nat) (pcs : List Nat) (cause : Nat) (hit : List Nat) : Block :=
  let was := b.rget .STACK_STATUS_STATE s
  let b := b.mapoutPcs s (b.mapoutUnits s pcs cause)
  if b.rget .STACK_STATUS_STATE s = 2 ∧ was ≠ 2 then hit.foldl (fun b id => b.stackHits s id) b else b

def execMapout (stack : Fin 8) (pcs : List (Fin 32)) (cause : Fin 4) (hit : List Nat) (s : State) :
    Host.Outcome State Fault Refusal :=
  s.run (fun b => b.doMapout stack (pcs.map (fun u => u.val)) cause hit)

/-- STACK_CTL.FORCE_MAPOUT (R218): as if R218 had fired; a write to a lost stack is ignored (R28). -/
def execForceMapout (stack : Fin 8) (pc : Fin 32) (s : State) : Host.Outcome State Fault Refusal :=
  s.run (fun b => b.barWrite (0xA00018 + 0x40000 * stack.val) (fun b => b.mapoutPcs stack [pc.val]))

/-- The slot that the scrub of a stack reads next (R225). -/
def Block.scrubSlot (b : Block) (s : Nat) : Slot :=
  let n := Sparse.get (always 0) b.mem.scrub s
  ⟨s, n / slotsPerPc, n % slotsPerPc⟩

/-- The scrub of a stack goes on with the slot after it. -/
def Block.scrubNext (b : Block) (s : Nat) : Block :=
  let n := Sparse.get (always 0) b.mem.scrub s
  { b with mem := { b.mem with scrub := Sparse.set (always 0) b.mem.scrub s ((n + 1) % (32 * slotsPerPc)) } }

/-- A scrub finds the parity of a stripe of a guarded frame other than its lines give: it is rebuilt (R225, R554). -/
def Block.scrubMismatch (b : Block) (q : Slot) : Block :=
  let f := q.z / 16384 * 32 + q.u
  if (b.frame f).guarded then
    let t := q.z % 16384
    match b.place ((stripeLines b f t).headD 0 * 128) with
    | some pl =>
      let ps := pl.parity.getD q
      let b := (b.rebuildParity pl).count .REAM_SCRUB_MISMATCH_COUNT ps.s 1
      b.absorbed { source := 0x40 + ps.s, cls := 0x09, outcome := 0, tag := ps.tag, unit := 1 }
    | none => b
  else b

/-- The lost data line whose slot this is, and that the Vat does not hold: a read of the slot fails again (R216, R555). -/
def Block.lostAt (b : Block) (q : Slot) : Option (Place × Nat) :=
  match b.lineOfSlot q with
  | some l => if b.lineLost l && !(b.vline q.key).valid then (b.place (l * 128)).map (fun pl => (pl, l)) else none
  | none => none

/-- SCRUB_READ (R225): the controller reads its next slot; in a guarded stripe whose lines all pass, a non-zero
exclusive-or rewrites the parity line; a lost line fails as any read of it does (R216). -/
def Block.doScrub (b : Block) (s : Nat) (mismatch : Bool) : Block :=
  if b.flag .STACK_CFG_SCRUB_EN s ∧ b.rget .STACK_STATUS_STATE s ≠ 2 then
    let q := b.scrubSlot s
    let b := b.scrubNext s
    if !b.slotUsable q then b
    else
      match b.lostAt q with
      | some x => (b.fill ⟨0x40 + s, 0xFF, none, none⟩ x.1 x.2).1
      | none => if mismatch then (b.stackRead q).scrubMismatch q else b.stackRead q
  else b

def execScrubRead (stack : Fin 8) (mismatch : Bool) (s : State) : Host.Outcome State Fault Refusal :=
  s.run (fun b => b.doScrub stack mismatch)

end Sys2Proof.Machine
end

