-- ==== Sys2Proof/Machine/Boot.lean ====
section
/-! DEFINITION. Power-up and trust (chapter 17): power-good inputs, boot stages, the firmware image, the configuration
block, debug tokens, SPDM; and the sideband (R552, R553). -/

namespace Sys2Proof.Machine

/-! ### Power inputs and stages -/

/-- The boot stage changes (chapter 17), which the sideband alerts (R553). -/
def Block.setStage (b : Block) (n : Nat) : Block :=
  ((b.rset .OSTLER_BOOT_STATUS_STAGE 0 n).rset .OSTLER_BOOT_STATUS_READY 0 (b2n (n = 5))).sbAlert 3

/-- The boot stage. -/
def Block.stage (b : Block) : Nat := b.rget .OSTLER_BOOT_STATUS_STAGE

/-- VAUX is up (R470): Ostler leaves reset, and the boot ROM runs ROM_TEST. -/
def Block.auxUp (b : Block) : Block :=
  let b := { b with boot := { b.boot with pgAux := true } }
  let b := (b.rset .CAPS_IDENT_STEP_MAJOR 0 (bits Config.stepping.toNat 0 4)).rset .CAPS_IDENT_STEP_MINOR 0
    (bits Config.stepping.toNat 4 4)
  b.setStage 1

/-- PG_AUX_ASSERT (R470). -/
def execPgAuxAssert (s : State) : Host.Outcome State Fault Refusal :=
  s.run (fun b => if b.boot.pgAux then b else b.auxUp)

/-- PG_MAIN_ASSERT (R470): the island PLLs lock, and global time runs (R522). -/
def execPgMainAssert (s : State) : Host.Outcome State Fault Refusal :=
  s.run (fun b =>
    if b.boot.pgAux then { b with boot := { b.boot with pgMain := true }, clk := { b.clk with running := true } } else b)

/-- PG_STACK_ASSERT (R470). -/
def execPgStackAssert (s : State) : Host.Outcome State Fault Refusal :=
  s.run (fun b => if b.boot.pgMain then { b with boot := { b.boot with pgStack := true } } else b)

/-- PG_OPT_ASSERT (R470). -/
def execPgOptAssert (s : State) : Host.Outcome State Fault Refusal :=
  s.run (fun b => if b.boot.pgStack then { b with boot := { b.boot with pgOpt := true } } else b)

/-- A power or thermal emergency that stops the module (R472, R543, R548): FAULT_N and an entry of class 0x17. -/
def Block.emergency (b : Block) (unit : Nat) : Block :=
  let b := b.assertFaultN.errLog { source := 0x057, cls := 0x17, outcome := 4, unit := unit }
  { b with boot := { b.boot with stopped := true } }

/-- The module without power (R7): OTP alone remains, and what lies outside the module. -/
def Block.powerOff (b : Block) : Block :=
  { Block.reset with boot := { BootSt.reset with otp := b.boot.otp, perstN := b.boot.perstN }
                     host := b.host, out := { b.out with thermtrip := false, alert := false }
                     free := b.free
                     mem := { MemSt.reset with lent := b.mem.lent } }

/-- Whether power-good input 1 PG_MAIN, 2 PG_STACK, 3 PG_OPT is asserted. -/
def BootSt.good (p : BootSt) (pg : Nat) : Bool := if pg = 1 then p.pgMain else if pg = 2 then p.pgStack else p.pgOpt

/-- Such an input falls. -/
def BootSt.falls (p : BootSt) (pg : Nat) : BootSt :=
  if pg = 1 then { p with pgMain := false } else if pg = 2 then { p with pgStack := false } else { p with pgOpt := false }

/-- POWER_GOOD_FALL (R472) of input 0 PG_AUX, 1 PG_MAIN, 2 PG_STACK, 3 PG_OPT. When PG_AUX falls the module has no power,
and a later PG_AUX_ASSERT is a new power-up. -/
def execPowerGoodFall (pg : Fin 4) (s : State) : Host.Outcome State Fault Refusal :=
  s.always (fun b =>
    if pg = 0 then (if b.boot.pgAux then b.powerOff else b)
    else if !b.boot.good pg then b
    else
      let b := { b with boot := b.boot.falls pg }
      if b.boot.stopped then b else (b.sbAlert 4).emergency pg.val)

/-- A field of OTP. -/
def Block.otpField (b : Block) (o n : Nat) : Nat := b.boot.otp.readNat o n

/-- The SVN floor (chapter 17): the count of set bits. -/
def Block.svnFloor (b : Block) : Nat := popcount 64 (b.otpField 0x208 8)

/-- The boot ROM's tests pass (R474, R475): serial number and SVN floor are readable, and the window waits for an image. -/
def Block.romPassed (b : Block) : Block :=
  let b := (b.rset .OSTLER_SERIAL_LO_SERIAL 0 (b.otpField 0x20 8)).rset .OSTLER_SERIAL_HI_SERIAL 0 (b.otpField 0x28 8)
  let b := b.rset .OSTLER_FW_INFO_SVN_FLOOR 0 b.svnFloor
  ({ b with boot := { b.boot with staging := [], stagingRO := false } }).setStage 2

/-- ROM_TEST_DONE (R475): WAIT_IMAGE, or FAILED with FAULT_N and a module fault (R500). -/
def execRomTestDone (pass : Bool) (s : State) : Host.Outcome State Fault Refusal :=
  s.run (fun b =>
    if b.stage ≠ 1 then b
    else if pass then b.romPassed
    else ((b.rset .OSTLER_BOOT_STATUS_ERROR 0 7).setStage 15).moduleFault 0x16 0x058)

/-! ### The staging window and VERIFY -/

/-- A write into the staging window (R474). -/
def Block.writeStaging (b : Block) (o : Nat) (bs : List Byte) : Block :=
  if b.boot.stagingRO then b.accessError 0x056 none 0 (0x2000000 + o)
  else { b with boot := { b.boot with staging := b.boot.staging.writeBytes o bs } }

/-- STAGING_WRITE (R474): bytes at an offset of the window. -/
def execStagingWrite (offset : Nat) (data : List (BitVec 8)) (s : State) : Host.Outcome State Fault Refusal :=
  s.run (fun b =>
    if offset + data.length ≤ 0x2000000 then b.barWrite (0x2000000 + offset) (fun b => b.writeStaging offset data) else b)

/-- A write of GO (R474). -/
def Block.go (b : Block) : Block :=
  let b := b.countSat .OSTLER_BOOT_STATUS_ATTEMPTS 0 1
  if b.stage = 2 then ({ b with boot := { b.boot with stagingRO := true } }).setStage 3 else b

/-- GO (R476). -/
def execGo (s : State) : Host.Outcome State Fault Refusal := s.run (fun b => b.barWrite 0x10008 Block.go)

/-- Whether every byte of `l` at an offset that `named` does not name is 0. -/
def restZero (l : List Byte) (named : Nat → Bool) : Bool :=
  (List.range l.length).all (fun i => named i || decide (l.getD i 0 = 0))

/-- The bytes of the image header that its table names. -/
def imageNamed (i : Nat) : Bool :=
  decide (i < 7) || decide (8 ≤ i ∧ i < 32) || decide (64 ≤ i ∧ i ≤ 1856) || decide (2048 ≤ i ∧ i ≤ 3327)

/-- The checks of the header's fields (R476). -/
def headerOk (h : List Byte) : Bool :=
  let n := field h 12 4
  let m := field h 16 4
  decide (field h 0 4 = 0x57464E54) && decide (field h 4 2 = 1) && decide (field h 6 1 ≤ 3) && decide (field h 8 4 ≤ 64) &&
  decide (64 ≤ n) && decide (n ≤ 16773120) && decide (n % 64 = 0) && decide (64 ≤ m) && decide (m ≤ 6291456) && decide (m ≤ n) &&
  decide (field h 20 4 < m) && decide (field h 20 4 % 4 = 0) && restZero h imageNamed

/-- H (R476): the hash of header bytes 0 to 2,047 and the payload. -/
def Block.imageDigest (b : Block) (n : Nat) : List Byte :=
  Config.shake256 (b.boot.staging.readBytes 0 2048 ++ b.boot.staging.readBytes 4096 n) 64

/-- The first check of VERIFY that fails, as its ERROR code; 0 when all pass (R476). -/
def Block.verifyError (b : Block) : Nat :=
  let h := b.boot.staging.readBytes 0 4096
  let key := sliceBytes h 64 1793
  let slot := field h 6 1
  if !headerOk h then 1
  else if Config.shake256 key 64 ≠ b.boot.otp.readBytes (0x100 + 64 * slot) 64 then 2
  else if bitAt (b.otpField 0x200 1) slot then 3
  else if field h 8 4 < b.svnFloor then 4
  else if !Config.falconVerify key (b.imageDigest (field h 12 4)) (sliceBytes h 2048 1280) then 5
  else 0

/-- An image that VERIFY accepts runs on the cores (R475, R476). -/
def Block.imageRuns (b : Block) : Block :=
  let h := b.boot.staging.readBytes 0 4096
  let b := { b with boot := { b.boot with
    sram := Memory.writeBytes [] 0 (b.boot.staging.readBytes 4096 (field h 16 4))
    imageHash := b.imageDigest (field h 12 4), build := sliceBytes h 24 8 } }
  let b := ((b.rset .OSTLER_FW_INFO_SVN 0 (field h 8 4)).rset .OSTLER_FW_INFO_KEY_SLOT 0 (field h 6 1)).rset
    .OSTLER_FW_INFO_BUILD_LO 0 (field h 24 4)
  b.setStage 4

/-- VERIFY_DONE (R476): the cores start in INIT, or the stage returns to WAIT_IMAGE. -/
def execVerifyDone (s : State) : Host.Outcome State Fault Refusal :=
  s.run (fun b =>
    if b.stage ≠ 3 then b
    else
      let e := b.verifyError
      if e ≠ 0 then
        ({ b.rset .OSTLER_BOOT_STATUS_ERROR 0 e with boot := { b.boot with stagingRO := false } }).setStage 2
      else b.imageRuns)

/-! ### The configuration block -/

/-- A clamp report entry is stored, or counted (R483). -/
def Block.clamp (b : Block) (e : ClampEntry) : Block :=
  if 512 ≤ b.boot.clamps.length then b.countSat .OSTLER_CLAMP_COUNT_LOST 0 1
  else ({ b with boot := { b.boot with clamps := b.boot.clamps ++ [e] } }).count .OSTLER_CLAMP_COUNT_ENTRIES 0 1

/-- The block's LENGTH, or none when the block is refused as a whole (R480). -/
def Block.blockLength (b : Block) : Option Nat :=
  let h := b.boot.staging.readBytes 0x1000000 64
  let n := field h 8 4
  if field h 0 4 = 0x46434E54 ∧ field h 4 2 = 1 ∧ 64 ≤ n ∧ n ≤ 16640 then
    let all := b.boot.staging.readBytes 0x1000000 n
    if crc32c (all.take 12 ++ [0, 0, 0, 0] ++ all.drop 16) = field h 12 4 then some n else none
  else none

/-- A field of the block as accepted: its value, or its default beyond LENGTH (R480). -/
def Block.cfgRaw (b : Block) (o n dflt : Nat) : Nat :=
  if o < b.boot.length then b.boot.staging.readNat (0x1000000 + o) n else dflt

/-- A field of the block takes effect with value `used` (R481): the entry of R483 where it was replaced, with its reason,
or was absent with a default other than 0; and the block as used. -/
def Block.cfgUse (b : Block) (o n dflt used reason : Nat) : Block :=
  let raw := b.cfgRaw o n dflt
  let b := { b with boot := { b.boot with block := b.boot.block.writeNat o n used } }
  if b.boot.length ≤ o then (if dflt ≠ 0 then b.clamp ⟨o, n, 4, 0, used, 0⟩ else b)
  else if raw ≠ used then b.clamp ⟨o, n, reason, raw % 2 ^ 32, used % 2 ^ 32, 0⟩
  else b

/-- A field of the block as used. -/
def Block.cfgUsed (b : Block) (o n : Nat) : Nat := b.boot.block.readNat o n

/-- A one-byte field with an upper limit and a replacement (R481). -/
def Block.cfgByte (b : Block) (o hi repl dflt : Nat) : Block :=
  let v := b.cfgRaw o 1 dflt
  b.cfgUse o 1 dflt (if v ≤ hi then v else repl) 1

/-- The role of engine `n`, with the entry of a role that leaves a link without a rank DOWN (R482). -/
def Block.cfgRole (b : Block) (n : Nat) : Block :=
  let b := b.cfgByte (0x48 + n) 2 0 0
  if !bitAt (b.cfgUsed 0x46 2) 15 && decide (b.cfgUsed (0x48 + n) 1 = 0) then b.clamp ⟨0x48 + n, 1, 3, 0, 0, 0⟩ else b

/-- The tiles that TILE_DISABLE retires (R482): of a die that would keep none, the highest-numbered tile that passed
stays. -/
def keptTiles (disable passed : Nat) : Nat :=
  (List.range 2).foldl (fun m d =>
    let mine := (List.range 32).map (fun i => d * 32 + i)
    let left := mine.filter (fun t => bitAt passed t && !bitAt disable t)
    if left.isEmpty then
      match (mine.filter (fun t => bitAt passed t)).getLast? with
      | some t => clearBit m t
      | none => m
    else m) disable

/-- The fields of the block below REPAIR_COUNT, in the order of their offsets (R481, R482). -/
def Block.cfgFields (b : Block) (passed : Nat) : Block :=
  let b := b.cfgByte 0x40 1 1 1
  let b := b.cfgByte 0x41 1 0 0
  let b := b.cfgByte 0x42 2 2 0
  let b := b.cfgByte 0x43 1 0 0
  let k := b.cfgRaw 0x44 1 0
  let b := b.cfgUse 0x44 1 0 (clearBit (k % 16) (b.rget .OSTLER_FW_INFO_KEY_SLOT)) (if 16 ≤ k then 2 else 3)
  let r := b.cfgRaw 0x46 2 0
  let b := b.cfgUse 0x46 2 0 (clearBit r 14) 2
  let b := (List.range 8).foldl Block.cfgRole b
  let b := b.cfgUse 0x50 1 0 (b.cfgRaw 0x50 1 0) 1
  let b := b.cfgUse 0x51 1 0 (b.cfgRaw 0x51 1 0 % 16) 2
  let d := b.cfgRaw 0x58 8 0
  let b := b.cfgUse 0x58 8 0 (keptTiles d passed) 3
  (List.range 8).foldl (fun b s =>
    let v := b.cfgRaw (0x60 + 2 * s) 2 0
    b.cfgUse (0x60 + 2 * s) 2 0 (min 256 v) 1) b

/-- The slot that a tag with i = 0 names; none for a malformed tag (R202, R482). -/
def slotOfTag (tag : Nat) : Option Slot :=
  let v := bits tag 14 13 * 48 + bits tag 8 6
  if tag < 2 ^ 27 ∧ bits tag 8 6 < 48 ∧ v < slotsPerPc / 31 then
    some ⟨bits tag 0 3, bits tag 3 4 * 2 + bits tag 7 1, v * 31⟩
  else none

/-- The pages of a DRAM row are retired by an entry (R224): they are never mapped. -/
def Block.retireRowAt (b : Block) (q : Slot) : Block :=
  let b := { b with mem := { b.mem with
    failedRows := if b.mem.failedRows.contains q.row then b.mem.failedRows else b.mem.failedRows ++ [q.row] } }
  let b := (b.rowPages q).foldl (fun b p => b.retirePage q.s p) b
  b.pprLog q.s q.row 2 (Sparse.get (always 0) b.mem.repairs q.bank)

/-- REPAIR[s][e] (R224, R481, R482). -/
def Block.applyRepair (b : Block) (noSpare : List Nat) (s e : Nat) : Block :=
  let o := 0x100 + 0x800 * s + 8 * e
  if b.boot.length ≤ o then b
  else
    let tag := b.boot.staging.readNat (0x1000000 + o) 4
    let kind := b.boot.staging.readNat (0x1000000 + o + 4) 1
    let b := { b with boot := { b.boot with block := (b.boot.block.writeNat o 4 tag).writeNat (o + 4) 1 kind } }
    match slotOfTag tag with
    | none => b.clamp ⟨o, 8, 1, kind, 0, tag⟩
    | some q =>
      if q.s ≠ s ∨ !b.pcWorks q.s q.u ∨ kind = 0 ∨ 2 < kind then b.clamp ⟨o, 8, 1, kind, 0, tag⟩
      else if kind = 2 then b.retireRowAt q
      else if noSpare.contains tag then (b.retireRowAt q).clamp ⟨o, 8, 3, 1, 2, tag⟩
      else b.repairRow q

/-- The REPAIR entries of every stack (R224). -/
def Block.applyRepairs (b : Block) (noSpare : List Nat) : Block :=
  (List.range 8).foldl (fun b s =>
    (List.range (b.cfgUsed (0x60 + 2 * s) 2)).foldl (fun b e => b.applyRepair noSpare s e) b) b

/-- A tile is retired before READY (R475, R482). -/
def Block.bootRetireTile (b : Block) (n : Nat) : Block :=
  if b.tileWorks n then
    ((b.rset .CAPS_TILE_MASK_TILE 0 (clearBit (b.rget .CAPS_TILE_MASK_TILE) n)).rset .CAPS_COUNTS_TILES 0
      (b.rget .CAPS_COUNTS_TILES - 1)).rset .TILE_STATUS_STATE n 3
  else b

/-- A Vat slice is retired before READY (R475). -/
def Block.bootRetireSlice (b : Block) (sl : Nat) : Block :=
  if b.sliceWorks sl then
    let f : Fld := if sl < 64 then .VAT_SLICE_MASK_LO_SLICE else .VAT_SLICE_MASK_HI_SLICE
    ((b.rset f 0 (clearBit (b.rget f) (sl % 64))).rset .CAPS_COUNTS_VAT_SLICES 0 (b.rget .CAPS_COUNTS_VAT_SLICES - 1)).rset
      .VAT_STATUS_SLICES 0 (b.rget .VAT_STATUS_SLICES - 1)
  else b

/-- Units that fail their self-test are retired before READY, with no interrupt (R475). -/
def Block.selfTests (b : Block) (r : InitReport) : Block :=
  let b := r.tiles.foldl (fun b t => b.bootRetireTile t.val) b
  let b := r.slices.foldl (fun b t => b.bootRetireSlice t.val) b
  let b := r.pcs.foldl (fun b p => b.mapoutPc p.1.val p.2.val) b
  let b := (r.pcs.foldl (fun acc p => if acc.contains p.1.val then acc else acc ++ [p.1.val]) ([] : List Nat)).foldl
    (fun b s => b.stackState s) b
  r.lanes.foldl (fun b p => b.rset .CAPS_OE_LANE_MASK p.1.val (clearBit (b.rget .CAPS_OE_LANE_MASK p.1.val) p.2.val)) b

/-- The power limit L in W (R544). -/
def Block.powerLimit (b : Block) : Nat :=
  min (if b.rget .CAPS_LAYOUT_ENVELOPE = 0 then 1150 else 780) (b.rget .CURB_CFG_CAP_W)

/-- LIMIT_W4 follows L. -/
def Block.setLimit (b : Block) : Block := b.rset .CURB_STATUS_LIMIT_W4 0 (b.powerLimit / 4)

/-- The lowest `n` clear bits of a 64-bit field are set. -/
def setLowest : Nat → Nat → Nat
  | 0, x => x
  | n + 1, x => match (List.range 64).find? (fun i => !bitAt x i) with
    | some i => setLowest n (setBit x i)
    | none => x

/-- The two OTP writes of INIT (R478). -/
def Block.commitOtp (b : Block) : Block :=
  let floor := b.otpField 0x208 8
  let svn := b.rget .OSTLER_FW_INFO_SVN
  let otp := if b.cfgUsed 0x43 1 = 1 then b.boot.otp.writeNat 0x208 8 (setLowest (svn - popcount 64 floor) floor) else b.boot.otp
  let otp := otp.writeNat 0x200 1 (otp.readNat 0x200 1 ||| b.cfgUsed 0x44 1)
  let b := { b with boot := { b.boot with otp := otp } }
  b.rset .OSTLER_FW_INFO_SVN_FLOOR 0 b.svnFloor

/-- The fields of the block take effect (R481, R484). -/
def Block.applyConfig (b : Block) : Block :=
  let env := b.cfgUsed 0x40 1
  let b := (b.rset .CAPS_LAYOUT_ENVELOPE 0 env).rset .CURB_CFG_CAP_W 0 (if env = 0 then 1150 else 780)
  let b := b.setLimit
  let b := { b with boot := { b.boot with pcieOnly := decide (b.cfgUsed 0x41 1 = 1), spread := b.cfgUsed 0x51 1 } }
  let b := b.rset .OSTLER_BOOT_STATUS_SECURITY 0 (b.cfgUsed 0x42 1)
  let rank := b.cfgUsed 0x46 2
  let b := (b.rset .HOKUKE_STATUS_RANK 0 (rank % 2 ^ 14)).rset .HOKUKE_STATUS_RANK_VALID 0 (bits rank 15 1)
  let b := (List.range 8).foldl (fun b n =>
    (b.rset .CAPS_OE_ROLE n (b.cfgUsed (0x48 + n) 1)).rset .OE_CFG_LONG_REACH n (bits (b.cfgUsed 0x50 1) n 1)) b
  let b := (List.range 16).foldl (fun b n =>
    let b := (b.rset .MAC_TS_CFG_TX_ADJ n (b.otpField (0x280 + 8 * n) 4)).rset .MAC_TS_CFG_RX_ADJ n (b.otpField (0x284 + 8 * n) 4)
    let role := b.rget .CAPS_OE_ROLE (n / 2)
    b.rset .MAC_STATUS_ACTIVE n (b2n (decide (role = 2) || (decide (role = 1) && decide (n % 2 = 0))))) b
  b.commitOtp

/-- A new nonce (R487). -/
def Block.drawNonce (b : Block) : Block :=
  let n := b.free.nonces
  let l := (List.range 32).map (fun i => Config.nonceByte n i)
  let b := { b with free := { b.free with nonces := n + 1 } }
  (List.range 4).foldl (fun b k => b.rset .OSTLER_DEBUG_NONCE_NONCE k (field l (8 * k) 8)) b

/-- INIT_DONE (R475, R478, R480 to R485): READY, or WAIT_IMAGE with CONFIG_BAD. -/
def Block.initDone (b : Block) (r : InitReport) : Block :=
  match b.blockLength with
  | none => ({ b.rset .OSTLER_BOOT_STATUS_ERROR 0 6 with boot := { b.boot with stagingRO := false } }).setStage 2
  | some n =>
    let b := { b with boot := { b.boot with length := n, block := Memory.writeBytes [] 0 (b.boot.staging.readBytes 0x1000000 64) } }
    let b := b.selfTests r
    let b := b.cfgFields (b.rget .CAPS_TILE_MASK_TILE)
    let b := (setPositions 64 (b.cfgUsed 0x58 8)).foldl Block.bootRetireTile b
    let b := ((b.applyRepairs r.noSpare).keepService 0).keepService 1
    let b := b.setCapacity.applyConfig.drawNonce
    let b := { b with boot := { b.boot with contexts := [0], staging := [], stagingRO := false } }
    (b.setStage 5).raiseEvent 7

def execInitDone (report : InitReport) (s : State) : Host.Outcome State Fault Refusal :=
  s.run (fun b => if b.stage = 4 ∧ b.boot.pgStack ∧ b.boot.pgOpt then b.initDone report else b)

/-! ### Debug tokens, SPDM, watchdog -/

/-- The bytes of a token that its table names. -/
def tokenNamed (i : Nat) : Bool :=
  decide (i < 56) || decide (64 ≤ i ∧ i ≤ 1856) || decide (2048 ≤ i ∧ i ≤ 3327)

/-- The scope that the token in the window opens, if it is valid (R487). -/
def Block.tokenScope (b : Block) : Option Nat :=
  let t := b.boot.staging.readBytes 0x1010000 4096
  let key := sliceBytes t 64 1793
  let nonce := ((List.range 4).map (fun k => bytesOf 8 (b.rget .OSTLER_DEBUG_NONCE_NONCE k))).flatten
  if field t 0 4 = 0x54444E54 ∧ field t 4 4 < 16 ∧ sliceBytes t 8 16 = b.boot.otp.readBytes 0x20 16 ∧ sliceBytes t 24 32 = nonce ∧
      Config.shake256 key 64 = b.boot.otp.readBytes 0x240 64 ∧ restZero t tokenNamed ∧
      Config.falconVerify key (Config.shake256 (t.take 2048) 64) (sliceBytes t 2048 1280) then some (field t 4 4) else none

/-- A write of OSTLER_DEBUG_CTL.SUBMIT (R486, R487). -/
def Block.submit (b : Block) : Block :=
  if b.flag .OSTLER_DEBUG_STATUS_BUSY then b
  else if !b.flag .OSTLER_BOOT_STATUS_READY then b.rset .OSTLER_DEBUG_STATUS_RESULT 0 4
  else if b.rget .OSTLER_BOOT_STATUS_SECURITY = 2 then (b.rset .OSTLER_DEBUG_STATUS_RESULT 0 3).drawNonce
  else ({ b with boot := { b.boot with token := b.tokenScope } }).rset .OSTLER_DEBUG_STATUS_BUSY 0 1

/-- SUBMIT (R487). -/
def execSubmit (s : State) : Host.Outcome State Fault Refusal := s.run (fun b => b.barWrite 0x10060 Block.submit)

/-- The check of a token ends (R487): its scope opens, or it is refused; either way the nonce is new. -/
def Block.tokenDone (b : Block) : Block :=
  let b := b.rset .OSTLER_DEBUG_STATUS_BUSY 0 0
  let b := match b.boot.token with
    | some sc => (b.rset .OSTLER_DEBUG_STATUS_OPEN 0 (b.rget .OSTLER_DEBUG_STATUS_OPEN ||| sc)).rset .OSTLER_DEBUG_STATUS_RESULT 0 1
    | none => b.rset .OSTLER_DEBUG_STATUS_RESULT 0 2
  ({ b with boot := { b.boot with token := none } }).drawNonce

/-- TOKEN_VERIFY_DONE (R487). -/
def execTokenVerifyDone (s : State) : Host.Outcome State Fault Refusal :=
  s.run (fun b =>
    if b.flag .OSTLER_DEBUG_STATUS_BUSY then b.tokenDone else b)

/-- SPDM_REQUEST (R479): firmware answers on the DOE mailbox; the answer's content is DSP0274's. -/
def execSpdmRequest (req : List (BitVec 8)) (s : State) : Host.Outcome State Fault Refusal :=
  s.run (fun b =>
    if b.flag .HITCH_STATUS_LINK_UP ∧ (b.stage = 4 ∨ b.stage = 5) then
      let n := b.boot.spdmLog.length
      { b with boot := { b.boot with spdmLog := b.boot.spdmLog ++ [req] }
               out := { b.out with reads := b.out.reads ++ [Config.spdmAnswer req n] } }
    else b)

/-- OSTLER_WATCHDOG (R500): a core has not served its watchdog for 100 ms. -/
def execOstlerWatchdog (core : Fin 4) (s : State) : Host.Outcome State Fault Refusal :=
  s.run (fun b => if b.stage = 4 ∨ b.stage = 5 then b.moduleFault 0x16 (0x058 + core.val) else b)

/-! ### The sideband -/

/-- The hottest sensor, as its signed code. -/
def Block.hottest (b : Block) : Int :=
  ((List.range 16).map (fun s => toSigned 16 (b.rget .CURB_TEMP_TEMP s))).foldl (fun m t => if m < t then t else m) (-32768)

/-- What a sideband offset reads (R553). -/
def Block.sbRead (b : Block) (o : Nat) : Nat :=
  match o with
  | 0x00 => b.word .CAPS_IDENT 0
  | 0x04 => b.word .OSTLER_BOOT_STATUS 0
  | 0x08 => b.word .OSTLER_FAULT_STATUS 0
  | 0x0C => b.rget .CURB_POWER_MW
  | 0x10 => ofSigned 16 b.hottest
  | 0x14 => b.boot.sbAlert
  | 0x18 => b.boot.sbMask
  | 0x20 => b.rget .OSTLER_SERIAL_LO_SERIAL % 2 ^ 32
  | 0x24 => b.rget .OSTLER_SERIAL_LO_SERIAL / 2 ^ 32
  | 0x28 => b.rget .OSTLER_SERIAL_HI_SERIAL % 2 ^ 32
  | 0x2C => b.rget .OSTLER_SERIAL_HI_SERIAL / 2 ^ 32
  | _ => 0

/-- SIDEBAND_TRANSFER (R552, R553). It answers while VAUX is up, also after the module has stopped. -/
def Block.sideband (b : Block) (x : SbOp) : Block :=
  match x with
  | .read o => { b with out := { b.out with sideband := b.out.sideband ++ [b.sbRead o] } }
  | .write o v =>
    if o = 0x14 then
      let a := b.boot.sbAlert
      Block.alertPin { b with boot := { b.boot with sbAlert := a - (a &&& v.toNat) } }
    else if o = 0x18 then Block.alertPin { b with boot := { b.boot with sbMask := v.toNat % 32 } }
    else b
  | .setdasa a => { b with boot := { b.boot with sbAddr := some a } }
  | .setaasa => { b with boot := { b.boot with sbAddr := none } }

def execSidebandTransfer (x : SbOp) (s : State) : Host.Outcome State Fault Refusal :=
  s.always (fun b => if b.boot.pgAux then b.sideband x else b)

end Sys2Proof.Machine
end

