-- ==== Sys2Proof/Machine/Ostler.lean ====
section
/-! DEFINITION. The management commands of class 0x07 (R489, R491, R497, R504, R520) but CONTEXT_DESTROY and
REMOUNT_PREPARE. -/

namespace Sys2Proof.Machine

/-- A class-0x07 command that only rings of context 0 may order (R488, chapter 18): RANGE from any other. -/
def Block.ostlerCmd (b : Block) (id : Nat) (p : Params) (go : Cmd → Act (Nat × Nat × Nat)) : Block :=
  b.runCmd id p always2 (fun c b => if c.ctx ≠ 0 then b.finish id 0x0100 0 0 else b.conclude id (0x0100, 0) (go c))

/-! ### The error log -/

/-- The 64 bytes of an error-log entry (R502). -/
def ErrEntry.encode (e : ErrEntry) : List Byte :=
  bytesOf 4 e.seq ++ bytesOf 2 (e.source % 2 ^ 10) ++ bytesOf 1 e.cls ++ bytesOf 1 e.outcome ++ bytesOf 8 e.time ++
    bytesOf 2 e.status ++ bytesOf 1 e.ctx ++ bytesOf 1 e.flags ++ bytesOf 2 e.ring ++ bytesOf 2 0 ++ bytesOf 4 e.cmdSeq ++
    bytesOf 4 e.tag ++ bytesOf 8 e.addr ++ bytesOf 4 e.interruptNs ++ bytesOf 4 e.unit ++ List.replicate 16 0

/-- The error-log entry at a slot. -/
def Block.errSlot (b : Block) (n : Nat) : ErrEntry := Sparse.get (always ErrEntry.blank) b.errlog (n % 4096)

/-- How many entries the error log holds. -/
def Block.errHeld (b : Block) : Nat := b.errlog.length

/-- ERRLOG_READ (R504, R512): from FIRST_SEQ, or from the oldest entry when that was overwritten; entries not yet written
are not copied (DESIGN CHOICE). -/
def errlogCopy (c : Cmd) (p : ErrlogReadParams) : Act (Nat × Nat × Nat) := do
  if p.count = 0 ∨ 4096 < p.count then rangeErr
  else
    let b ← get
    let w := b.rget .OSTLER_ERRLOG_STATUS_WRITTEN
    let oldest := (w + 2 ^ 32 - b.errHeld) % 2 ^ 32
    let gone := precedes 32 p.firstSeq oldest
    let first := if gone then oldest else p.firstSeq
    let avail := (w + 2 ^ 32 - first) % 2 ^ 32
    let n := if avail ≤ b.errHeld then min p.count avail else 0
    let bs := (List.range n).flatMap (fun i => (b.errSlot (first + i)).encode)
    writeVa (c.req 0 0) p.destVa bs
    return (b2n gone, if gone then 16 else 0, halves n first)

def execErrlogRead (id : Nat) (p : ErrlogReadParams) (s : State) : Host.Outcome State Fault Refusal :=
  s.run (fun b => b.ostlerCmd id (.errlogRead p) (fun c => errlogCopy c p))

/-! ### CONFIG_READ -/

/-- The 16 bytes of a clamp report entry (R483). -/
def ClampEntry.encode (e : ClampEntry) : List Byte :=
  bytesOf 2 e.offset ++ bytesOf 1 e.size ++ bytesOf 1 e.reason ++ bytesOf 4 e.written ++ bytesOf 4 e.used ++ bytesOf 4 e.tag

/-- The OTP contents that CONFIG_READ gives, in OTP order (chapter 17). -/
def Block.readableOtp (b : Block) : List Byte :=
  b.boot.otp.readBytes 0x20 16 ++ b.boot.otp.readBytes 0x30 160 ++ b.boot.otp.readBytes 0x100 256 ++
    b.boot.otp.readBytes 0x200 1 ++ b.boot.otp.readBytes 0x208 8 ++ b.boot.otp.readBytes 0x240 64 ++ b.boot.otp.readBytes 0x280 128

/-- Measurements 1 to 6 (R479), one after the other; the spec gives their contents and no layout (DESIGN CHOICE, in the
log). -/
def Block.measurements (b : Block) : List Byte :=
  Config.romVersion ++ (b.boot.imageHash ++ b.boot.build) ++
    (bytesOf 4 (b.rget .OSTLER_FW_INFO_SVN) ++ bytesOf 4 (b.rget .OSTLER_FW_INFO_SVN_FLOOR)) ++
    Config.shake256 (b.boot.block.readBytes 0 b.boot.length) 64 ++
    (bytesOf 1 (b.rget .OSTLER_BOOT_STATUS_SECURITY) ++ bytesOf 1 (b.rget .OSTLER_DEBUG_STATUS_OPEN)) ++
    (bytesOf 1 (b.rget .OSTLER_FW_INFO_KEY_SLOT) ++ b.boot.otp.readBytes 0x200 1)

/-- The item that CONFIG_READ selects (R491). -/
def Block.configItem (b : Block) : Nat → Option (List Byte)
  | 0 => some (b.boot.block.readBytes 0 b.boot.length)
  | 1 => some (b.boot.clamps.flatMap ClampEntry.encode)
  | 2 => some b.readableOtp
  | 3 => some b.measurements
  | _ => none

/-- Bytes written to memory up to a capacity: OK, or OK_CLAMPED with the offset of CAPACITY, and the full length. -/
def writeCapped (c : Cmd) (va cap : Nat) (bs : List Byte) : Act (Nat × Nat × Nat) := do
  writeVa (c.req 0 0) va (bs.take cap)
  return (b2n (decide (cap < bs.length)), if cap < bs.length then 32 else 0, halves bs.length 0)

/-- The item that a CONFIG_READ selects, written to its destination. -/
def configCopy (c : Cmd) (p : ConfigReadParams) : Act (Nat × Nat × Nat) := do
  match (← get).configItem p.item with
  | some bs => writeCapped c p.destVa p.capacity bs
  | none => rangeErr

/-- CONFIG_READ (R491). -/
def execConfigRead (id : Nat) (p : ConfigReadParams) (s : State) : Host.Outcome State Fault Refusal :=
  s.run (fun b => b.ostlerCmd id (.configRead p) (fun c => configCopy c p))

/-! ### Contexts and tiles -/

/-- Whether a group or legacy slot of a tile is open. -/
def Block.anyOpen (b : Block) (n : Nat) : Bool := (b.tile n).groups.any (fun g => g.2.isOpen)

/-- Whether a tile may move to a new context (R489). -/
def Block.tileMovable (b : Block) (n : Nat) : Bool :=
  b.tileWorks n && decide (b.rget .TILE_STATUS_STATE n = 0) && decide (b.rget .TILE_CFG_CTX n = 0) && !b.anyOpen n

/-- CONTEXT_CREATE (R489). -/
def createCtx (p : CtxCreateParams) : Act (Nat × Nat × Nat) := do
  let b ← get
  let ts := setPositions 64 p.tiles
  if p.ctx = 0 ∨ 15 < p.ctx then rangeErr
  else if b.ctxExists p.ctx then throw (.fin 0x7001 0)
  else if !ts.all b.tileMovable then throw (.fin 0x7002 0)
  else
    act (fun b =>
      let b := ts.foldl (fun b n => b.rset .TILE_CFG_CTX n p.ctx) b
      let b := (List.range 3).foldl (fun b t => b.setWord .DROVER_QUOTA (p.ctx * 3 + t) (powerUp (RegId.key .DROVER_QUOTA 0)).toNat) b
      let b := b.rset .VAT_KEEP_QUOTA_WAYS p.ctx Fld.VAT_KEEP_QUOTA_WAYS.reset
      { b with boot := { b.boot with contexts := b.boot.contexts ++ [p.ctx] } })
    return (0, 0, p.tiles)

def execContextCreate (id : Nat) (p : CtxCreateParams) (s : State) : Host.Outcome State Fault Refusal :=
  s.run (fun b => b.ostlerCmd id (.contextCreate p) (fun _ => createCtx p))

/-- TILE_RETIRE (R496 to R498, R512, R513). -/
def retireCmd (p : TileRetireParams) : Act (Nat × Nat × Nat) := do
  let b ← get
  if !b.tileWorks p.tile then rangeErr
  else if (b.dieTiles (p.tile / 32)).length ≤ 1 then throw (.fin 0x7005 0)
  else
    let r := b.retireTile p.tile
    set r.1
    return (0, 0, halves r.2.1 r.2.2)

def execTileRetire (id : Nat) (p : TileRetireParams) (s : State) : Host.Outcome State Fault Refusal :=
  s.run (fun b => b.ostlerCmd id (.tileRetire p) (fun _ => retireCmd p))

/-! ### TELEMETRY_READ (R520, R521) -/

/-- The counters of a block of TELEMETRY_READ in ascending offset, each with how many elements of it a unit has; and the
number of units. -/
def telemetryBlock : Nat → Nat × List (Fld × Nat)
  | 0 => (64, [(.TILE_CHECK_FAIL_COUNT, 1), (.TILE_CHECK_SKIPPED_COUNT, 1), (.TILE_CHECK_REPLAYS_COUNT, 1),
      (.TILE_CVT_SAT_COUNT, 1), (.TILE_CVT_UFL_COUNT, 1), (.TILE_ARRAY_BUSY_COUNT, 1), (.TILE_VEC_BUSY_COUNT, 1),
      (.TILE_VX_SVC_CYCLES_COUNT, 1), (.TILE_VX_DETECT_COUNT, 1), (.TILE_VX_REPLAYS_COUNT, 1)])
  | 1 => (8, [(.VAT_HITS_COUNT, 1), (.VAT_MISSES_COUNT, 1), (.VAT_WRITEBACKS_COUNT, 1), (.VAT_EVICTIONS_COUNT, 1),
      (.VAT_ATOMICS_COUNT, 1), (.VAT_KEEP_DENIED_COUNT, 1), (.VAT_LAST_DISCARDS_COUNT, 1), (.VAT_DETECT_COUNT, 1),
      (.VAT_LOST_COUNT, 1)])
  | 2 => (8, [(.STACK_RD_LINES_COUNT, 1), (.STACK_WR_LINES_COUNT, 1), (.STACK_CHK_FETCH_COUNT, 1),
      (.STACK_CRC_MISMATCH_COUNT, 1), (.STACK_REREAD_OK_COUNT, 1), (.STACK_RECON_COUNT, 1), (.STACK_LOST_COUNT, 1),
      (.STACK_ODECC_CORR_COUNT, 1), (.STACK_PPR_DONE_COUNT, 1), (.STACK_PAGES_RETIRED_COUNT, 1),
      (.REAM_DELTAS_COUNT, 1), (.REAM_RECON_COUNT, 1), (.REAM_DOUBLE_COUNT, 1), (.REAM_SCRUB_MISMATCH_COUNT, 1)])
  | 3 => (1, [(.DROVER_WALKS_COUNT, 1), (.DROVER_MIGRATIONS_COUNT, 1), (.DROVER_FLIP_ABANDON_COUNT, 1),
      (.DROVER_EVICTIONS_COUNT, 1), (.DROVER_DROPS_COUNT, 1), (.DROVER_TIER_FAIL_COUNT, 1), (.DROVER_FLIP_MAX_NS_COUNT, 1)])
  | 4 => (1, [(.BEATER_KEYS_COUNT, 1), (.BEATER_DISTINCT_COUNT, 1), (.BEATER_SECTORS_RD_COUNT, 1),
      (.BEATER_SECTORS_WR_COUNT, 1), (.BEATER_REPLICA_ROWS_COUNT, 1), (.BEATER_REMOTE_ROWS_COUNT, 1),
      (.BEATER_SERVED_ROWS_COUNT, 1), (.BEATER_ROWS_UPDATED_COUNT, 1), (.BEATER_SKIPPED_COUNT, 1),
      (.BEATER_EMPTY_BAGS_COUNT, 1), (.BEATER_CVT_SAT_COUNT, 1), (.BEATER_CVT_UFL_COUNT, 1), (.BEATER_DETECT_COUNT, 1),
      (.BEATER_RERUNS_COUNT, 1), (.BEATER_SB_INSERTS_COUNT, 1), (.BEATER_SB_TRACK_MISS_COUNT, 1),
      (.BEATER_SB_PROMOTED_COUNT, 1), (.BEATER_SB_REFUSED_COUNT, 1), (.BEATER_SB_DEMOTED_COUNT, 1),
      (.BEATER_SB_REREADS_COUNT, 1), (.BEATER_SB_SKEW_COUNT, 1), (.BEATER_SB_DROPPED_COUNT, 1), (.BEATER_SB_DETECT_COUNT, 1)])
  | 5 => (1, [(.FARRIER_COMMITS_COUNT, 1), (.FARRIER_ELEMENTS_COUNT, 1), (.FARRIER_RECORDS_COUNT, 1),
      (.FARRIER_FETCHES_COUNT, 1), (.FARRIER_LAGGED_RERUNS_COUNT, 1), (.FARRIER_DETECT_COUNT, 1),
      (.FARRIER_CHUNK_RERUNS_COUNT, 1), (.FARRIER_CVT_SAT_COUNT, 1), (.FARRIER_CVT_UFL_COUNT, 1),
      (.FARRIER_MON_EVENTS_COUNT, 1), (.FARRIER_MON_LOST_COUNT, 1)])
  | 6 => (1, [(.RELAY_BYTES_TX_COUNT, 1), (.RELAY_BYTES_RX_COUNT, 1), (.RELAY_COLLECTIVES_COUNT, 1),
      (.RELAY_CANCELLED_COUNT, 1), (.RELAY_TIMEOUTS_COUNT, 1), (.RELAY_RESENDS_COUNT, 1), (.RELAY_CVT_SAT_COUNT, 1),
      (.RELAY_CVT_UFL_COUNT, 1), (.RELAY_CREDIT_REFUSED_COUNT, 1)])
  | 7 => (1, [(.BLINK_COMMANDS_COUNT, 1), (.BLINK_UNITS_COUNT, 1), (.BLINK_PAGES_COUNT, 1), (.BLINK_PAGES_SKIPPED_COUNT, 1),
      (.BLINK_EMPTY_ROWS_COUNT, 1), (.BLINK_DETECT_COUNT, 1), (.BLINK_RERUNS_COUNT, 1), (.BLINK_CVT_SAT_COUNT, 1),
      (.BLINK_CVT_UFL_COUNT, 1)])
  | 8 => (8, [(.OE_FLITS_TX_COUNT, 1), (.OE_FLITS_RX_COUNT, 1), (.OE_CRC_FAIL_COUNT, 1), (.OE_REPLAYS_COUNT, 1),
      (.OE_FEC_CORR_COUNT, 1), (.OE_FEC_UNCORR_COUNT, 1), (.OE_LASER_SWITCHES_COUNT, 1), (.OE_LANE_DROPS_COUNT, 1),
      (.OE_RETRAINS_COUNT, 1)])
  | 9 => (16, [(.MAC_RX_COUNT, 45), (.MAC_TX_COUNT, 45)])
  | 10 => (1, [(.PERF_CTR_COUNT, 64), (.PERF_HOST_RD_COUNT, 1), (.PERF_HOST_WR_COUNT, 1), (.PERF_DEV_WR_COUNT, 1),
      (.PERF_DEV_RD_COUNT, 1), (.PERF_DOORBELLS_COUNT, 1), (.PERF_MSIX_COUNT, 1)])
  | 11 => (1, [(.CURB_ACTIONS_COUNT, 1), (.CURB_GAP_CYCLES_COUNT, 1), (.CURB_THROTTLE_CYCLES_COUNT, 1)])
  | 12 => (1, [(.OSTLER_ABSORBED_COUNT, 1), (.OSTLER_RETURNED_COUNT, 1), (.OSTLER_STEP_RESTARTS_COUNT, 1),
      (.OSTLER_TILES_RETIRED_COUNT, 1), (.OSTLER_INTERRUPT_MAX_NS_COUNT, 1)])
  | _ => (0, [])

/-- The counters common to all links, which section 8 holds before those of the engines. -/
def hokukeCommon : List Fld :=
  [.HOKUKE_TX_PACKETS_COUNT, .HOKUKE_RX_PACKETS_COUNT, .HOKUKE_RESENDS_COUNT, .HOKUKE_TRANSIT_FLITS_COUNT,
   .HOKUKE_UNREACHABLE_COUNT]

/-- A counter as a snapshot reads it: 0 in the block of a retired unit (R28, R520). -/
def Block.counterOf (b : Block) (f : Fld) (i : Nat) : Nat := if b.unitGone (f.reg.offset i) then 0 else b.rget f i

/-- The counters of one unit. -/
def Block.unitCounters (b : Block) (cs : List (Fld × Nat)) (u : Nat) : List Nat :=
  cs.flatMap (fun c => (List.range c.2).map (fun k => b.counterOf c.1 (u * c.2 + k)))

/-- A section of a snapshot (R520): bit number, units, counters per unit, the counters. Section 8, whose units differ, is
one unit: the common counters and those of OE_0 to OE_7 (DESIGN CHOICE). -/
def Block.telemetrySection (b : Block) (k : Nat) : List Byte :=
  let t := telemetryBlock k
  let per := (List.range t.1).flatMap (b.unitCounters t.2)
  let common := if k = 8 then hokukeCommon.map (fun f => b.rget f) else []
  let units := if k = 8 then 1 else t.1
  let all := common ++ per
  bytesOf 4 k ++ bytesOf 2 units ++ bytesOf 2 (all.length / max 1 units) ++ bytesOf 8 0 ++ all.flatMap (bytesOf 8)

/-- A snapshot of the selected blocks: header and sections. -/
def Block.snapshotBytes (b : Block) (blocks : Nat) : List Byte :=
  let body := (setPositions 13 blocks).flatMap b.telemetrySection
  bytesOf 8 b.now ++ bytesOf 4 blocks ++ bytesOf 4 0 ++ bytesOf 8 (32 + body.length) ++ bytesOf 8 0 ++ body

/-- A snapshot of the selected blocks, written to its destination. -/
def telemetryCopy (c : Cmd) (p : TelemetryParams) : Act (Nat × Nat × Nat) := do
  if p.blocks = 0 ∨ 2 ^ 13 ≤ p.blocks then rangeErr
  else writeCapped c p.destVa p.capacity ((← get).snapshotBytes p.blocks)

/-- TELEMETRY_READ (R520, R521), accepted from every context. -/
def execTelemetryRead (id : Nat) (p : TelemetryParams) (s : State) : Host.Outcome State Fault Refusal :=
  s.run (fun b => b.runCmd id (.telemetryRead p) always2 (fun c b => b.conclude id (0x0100, 0) (telemetryCopy c p)))

end Sys2Proof.Machine
end

