-- ==== Sys2Proof/Machine/Context.lean ====
section
/-! DEFINITION. CONTEXT_DESTROY (R40, R233, R302, R490, R535). -/

namespace Sys2Proof.Machine

/-- The windows of a context close (R40). -/
def Block.closeWindows (b : Block) (ctx : Nat) : Block :=
  let b := if b.rget .HITCH_BAR2_MAP_CTX = ctx then b.rset .HITCH_BAR2_MAP_VALID 0 0 else b
  let b := (List.range 4).foldl (fun b n => if b.rget .HITCH_HDM_MAP_CTX n = ctx then b.rset .HITCH_HDM_MAP_VALID n 0 else b) b
  ((b.listed .HITCH_WIN_CTL).filter (fun p => decide (b.rget .HITCH_WIN_CTL_CTX p.1 = ctx))).foldl (fun b p => b.rset .HITCH_WIN_CTL_ENABLE p.1 0) b

/-- The tables, shards and groups of a context go, with the FETCHes that other ranks wait for. -/
def Block.removeDefs (b : Block) (ctx : Nat) : Block :=
  let b := ((b.beater.tables.filter (fun p => decide (p.1 / 4096 = ctx))).map (fun p => p.1 % 4096)).foldl (fun b n => b.setTable ctx n none) b
  let b := (b.shardsOf ctx).foldl (fun b x => b.setShard ctx x.1 none) b
  let f := b.farrier
  let b := { b with farrier := { f with fetches := f.fetches.filter (fun x => !decide (x.ctx = ctx))
                                        mon := f.mon.filter (fun x => !decide (x.ctx = ctx)) } }
  let gs := (b.relay.groups.filterMap (fun p => p.2)).filter (fun g => decide (g.ctx = ctx))
  gs.foldl (fun b g => b.undefineGroup g.num) b

/-- The gates of a context go (R70). -/
def Block.removeGates (b : Block) (ctx : Nat) : Block :=
  ((b.listed .SPAOG_GATE).filter (fun p => decide (bits p.2 32 4 = ctx))).foldl (fun b p => b.setWord .SPAOG_GATE p.1 0) b

/-- A tile leaves its context: its memories and registers hold zeros, and its configuration is as at power-up
(R490, R535). -/
def Block.returnTile (b : Block) (n : Nat) : Block :=
  let b := b.onTile n (fun t => { t with store := [], acc := [], groups := [], vx := { t.vx with v := [], s := [], imem := [] } })
  let b := (b.rset .TILE_CFG_ACC_MODE n 0).rset .TILE_CFG_LEGACY_BF16 n 0
  (b.rset .TILE_CFG_LEGACY_ROWS n Fld.TILE_CFG_LEGACY_ROWS.reset).rset .TILE_CFG_CTX n 0

/-- The effects of CONTEXT_DESTROY, in the order of R40 and R490. -/
def Block.destroyCtx (b : Block) (ctx : Nat) : Block :=
  let b := b.closeWindows ctx
  let b := (b.drover.objs.filter (fun o => decide (o.ctx = ctx))).foldl (fun b o => b.removeObj o) b
  let b := (b.removeDefs ctx).removeGates ctx
  let b := (b.sbFreeWhere (fun e => e.valid && decide (e.ctx = ctx))).keepRelease ctx
  let b := ((List.range 64).filter (fun n => b.tileWorks n && decide (b.rget .TILE_CFG_CTX n = ctx))).foldl (fun b n => b.returnTile n) b
  { b with boot := { b.boot with contexts := b.boot.contexts.filter (fun x => !decide (x = ctx)) } }

/-- Whether a submission ring of a context is enabled. -/
def Block.ringOn (b : Block) (ctx : Nat) : Bool :=
  (List.range 256).any (fun n => b.flag .SPAOG_SQ_CFG_ENABLE n && decide (b.rget .SPAOG_SQ_CFG_CTX n = ctx))

/-- Why CONTEXT_DESTROY does nothing, if it does. -/
def Block.destroyErr (b : Block) (c : Cmd) (ctx : Nat) : Option Nat :=
  if c.ctx ≠ 0 ∨ ctx = 0 ∨ 15 < ctx then some 0x0100
  else if !b.ctxExists ctx then some 0x7003
  else if b.ringOn ctx then some 0x7002
  else none

/-- Whether CONTEXT_DESTROY waits no longer: every dispatched command of the context has completed. -/
def destroyReady (p : CtxDestroyParams) (c : Cmd) (b : Block) : Bool :=
  (b.destroyErr c p.ctx).isSome || !b.cmds.any (fun (x : Cmd) => decide (x.ctx = p.ctx) && decide (x.phase ≠ .queued))

/-- CONTEXT_DESTROY (R490). -/
def execContextDestroy (id : Nat) (p : CtxDestroyParams) (s : State) : Host.Outcome State Fault Refusal :=
  s.run (fun b => b.runCmd id (.contextDestroy p) (destroyReady p) (fun c b =>
    match b.destroyErr c p.ctx with
    | some st => b.finish id st 0 0
    | none => (b.destroyCtx p.ctx).finish id 0 0 0))

end Sys2Proof.Machine
end

