-- ==== Sys2Proof/Machine/Curb.lean ====
section
/-! DEFINITION. Curb (chapter 21): power samples and the limit, temperatures, thermal trip, regulators; and the registers
of R5 that a read clears. -/

namespace Sys2Proof.Machine

/-- One of Curb's actions: its trace record (R526) and its event of R91. -/
def Block.curbAction (b : Block) (code : Nat) : Block :=
  let b := if code = 1 ∨ code = 4 ∨ code = 6 ∨ code = 8 then b.count .CURB_ACTIONS_COUNT 0 1 else b
  let b := b.traceRec 0x057 4 1 15 code (b.rget .CURB_POWER_MW) (ofSigned 64 b.hottest)
  match code with
  | 1 => b.raiseEvent 3
  | 3 => b.raiseEvent 3
  | 4 => b.raiseEvent 4
  | 5 => b.raiseEvent 4
  | 6 => b.raiseEvent 3
  | 7 => b.raiseEvent 3
  | _ => b

/-- The cycles that the issue gaps and throttles in force withheld in the last 1 µs (R545): 2,500 tile cycles, `g` and `v`
of every 64, on every tile. -/
def Block.curbCycles (b : Block) : Block :=
  let g := b.rget .CURB_STATUS_GAP
  let v := b.rget .CURB_STATUS_VGAP
  if g = 0 ∧ v = 0 then b
  else
    ((List.range 64).filter b.tileWorks).foldl (fun b n =>
      let b := b.perf n 0x0B 0 (b.rget .TILE_CFG_CTX n) (2500 * g / 64)
      (b.count .CURB_GAP_CYCLES_COUNT 0 (2500 * g / 64)).count .CURB_THROTTLE_CYCLES_COUNT 0 (2500 * v / 64)) b

/-- The mean of a list of samples. -/
def meanOf (l : List Nat) : Nat := l.foldl (· + ·) 0 / max 1 l.length

/-- The power sample enters the means, the peak and the energy. -/
def Block.curbMeasure (b : Block) (mw : Nat) : Block :=
  let l := (mw :: b.curb.samples).take 1000
  let b := { b with curb := { b.curb with samples := l, energyFrac := (b.curb.energyFrac + mw) % 1000,
                                          nextPower := b.clk.t + usec } }
  let m := meanOf l
  let b := b.rset .CURB_POWER_MW 0 (min (2 ^ 24 - 1) m)
  if b.rget .CURB_POWER_PEAK_MW_K < m / 1000 then b.rset .CURB_POWER_PEAK_MW_K 0 (min 0xFFFF (m / 1000)) else b

/-- The gap and the throttle in force change. -/
def Block.curbSet (b : Block) (g v : Nat) : Block :=
  if b.rget .CURB_STATUS_GAP = g ∧ b.rget .CURB_STATUS_VGAP = v then b
  else ((b.rset .CURB_STATUS_GAP 0 g).rset .CURB_STATUS_VGAP 0 v).curbAction 2

/-- The sample's decision (R544 to R546): gapping begins only on power above L, a thermal throttle in force is only raised,
and what Curb chooses otherwise is the row's. -/
def Block.curbDecide (b : Block) (mw g v : Nat) : Block :=
  let above := decide (b.powerLimit * 1000 < mw)
  if b.flag .CURB_STATUS_THROTTLE then b.curbSet (max g (b.rget .CURB_STATUS_GAP)) (max v (b.rget .CURB_STATUS_VGAP))
  else if b.flag .CURB_STATUS_ACTIVE then
    let b := b.curbSet g v
    if g = 0 ∧ v = 0 then (b.rset .CURB_STATUS_ACTIVE 0 0).curbAction 3 else b
  else if above && (decide (g ≠ 0) || decide (v ≠ 0)) then ((b.rset .CURB_STATUS_ACTIVE 0 1).curbAction 1).curbSet g v
  else b.curbSet 0 0

/-- A power sample of `mw` is due (R544): cycles, energy and means take it. -/
def Block.curbTake (b : Block) (mw : Nat) : Block :=
  let b := (b.advanceTo b.curb.nextPower).curbCycles
  let e := b.curb.energyFrac + mw
  let b := b.count .CURB_ENERGY_UJ_UJ 0 (e / 1000)
  b.curbMeasure mw

/-- CURB_SAMPLE (R544): the module's power in mW, and the gap and throttle that Curb chooses. -/
def execCurbSample (mw : Nat) (g v : Fin 49) (s : State) : Host.Outcome State Fault Refusal :=
  s.run (fun b =>
    if b.clk.running then (b.curbTake mw).curbDecide mw g v else b)

/-- The warning follows the hottest sensor and WARN_C (R548). -/
def Block.thermalWarn (b : Block) : Block :=
  let w := decide ((b.rget .CURB_CFG_WARN_C * 100 : Int) ≤ b.hottest)
  if w && !b.flag .CURB_STATUS_WARN then ((b.rset .CURB_STATUS_WARN 0 1).curbAction 4).sbAlert 0
  else if !w && b.flag .CURB_STATUS_WARN then (b.rset .CURB_STATUS_WARN 0 0).curbAction 5
  else b

/-- The throttle begins at 100 °C and ends below 98 °C (R548). -/
def Block.thermalThrottle (b : Block) (g v : Nat) : Block :=
  let t := b.hottest
  let raise := fun (b : Block) => b.curbSet (max g (b.rget .CURB_STATUS_GAP)) (max v (b.rget .CURB_STATUS_VGAP))
  if b.flag .CURB_STATUS_THROTTLE then
    if t < 9800 then
      let b := (b.rset .CURB_STATUS_THROTTLE 0 0).curbAction 7
      if b.flag .CURB_STATUS_ACTIVE then b else b.curbSet 0 0
    else raise b
  else if 10000 ≤ t then raise ((b.rset .CURB_STATUS_THROTTLE 0 1).curbAction 6)
  else b

/-- A sample of the sensors is due (R548). -/
def Block.tempTake (b : Block) (temps : List (BitVec 16)) : Block :=
  let b := b.advanceTo b.curb.nextTemp
  let b := { b with curb := { b.curb with nextTemp := b.clk.t + usec } }
  ((temps.take 16).foldl (fun a t => (a.1.rset .CURB_TEMP_TEMP a.2 t.toNat, a.2 + 1)) (b, 0)).1

/-- THERMAL_SAMPLE (R548): the sensors in 0.01 °C, and the gap and throttle to which a thermal throttle raises. -/
def execThermalSample (temps : List (BitVec 16)) (g v : Fin 49) (s : State) : Host.Outcome State Fault Refusal :=
  s.run (fun b =>
    if b.clk.running then ((b.tempTake temps).thermalWarn).thermalThrottle g v else b)

/-- THERMAL_TRIP (R548, R549): the comparator asserts THERMTRIP_N and FAULT_N, and the module stops. -/
def execThermalTrip (s : State) : Host.Outcome State Fault Refusal :=
  s.run (fun b =>
    if b.boot.pgAux then
      let b := { b with out := { b.out with thermtrip := true } }
      ((b.curbAction 8).sbAlert 1).emergency 0
    else b)

/-- AVS_ACK_TIMEOUT (R543): the regulator of a rail gives no acknowledgement. -/
def execAvsAckTimeout (rail : Fin 2) (s : State) : Host.Outcome State Fault Refusal :=
  s.run (fun b =>
    if b.boot.pgAux then
      let b := { b with boot := { b.boot with avsStopped := true } }
      b.emergency rail.val
    else b)

/-! ### Registers that a read clears (R5) -/

/-- CURB_POWER_PEAK_READ: CURB_POWER is read, and PEAK_MW_K returns to 0. -/
def execCurbPowerPeakRead (s : State) : Host.Outcome State Fault Refusal :=
  s.run (fun b => b.barRead 0x1D00000 8 (fun b => (b.word .CURB_POWER 0, b.rset .CURB_POWER_PEAK_MW_K 0 0)))

/-- OSTLER_INTERRUPT_MAX_NS is read and returns to 0. -/
def execOstlerInterruptMaxNs (s : State) : Host.Outcome State Fault Refusal :=
  s.run (fun b => b.barRead (RegId.offset .OSTLER_INTERRUPT_MAX_NS 0) 8 (fun b =>
    (b.rget .OSTLER_INTERRUPT_MAX_NS_COUNT, b.rset .OSTLER_INTERRUPT_MAX_NS_COUNT 0 0)))

/-- DROVER_FLIP_MAX_NS is read and returns to 0. -/
def execDroverFlipMaxNs (s : State) : Host.Outcome State Fault Refusal :=
  s.run (fun b => b.barRead (RegId.offset .DROVER_FLIP_MAX_NS 0) 8 (fun b =>
    (b.rget .DROVER_FLIP_MAX_NS_COUNT, b.rset .DROVER_FLIP_MAX_NS_COUNT 0 0)))

end Sys2Proof.Machine
end

