-- ==== Sys2Proof/Machine/Ether.lean ====
section
/-! DEFINITION. Ethernet frames: the transport header (chapter 15), the datagram of R453, frame check sequences (R449), the
address filters of R451, and the statistics of R466. The fields of the Ethernet, IPv4, IPv6 and UDP headers lie as IEEE 802.3
and the IETF's standards have them, most significant byte first (PRESUMED, in the log). -/

namespace Sys2Proof.Machine

/-- The `n` bytes of `v`, most significant first. -/
def beBytes (n v : Nat) : List Byte := (bytesOf n v).reverse

/-- The number in `n` bytes from position `i`, most significant first. -/
def beField (l : List Byte) (i n : Nat) : Nat := ofBytes (sliceBytes l i n).reverse

/-- The one's complement sum of the 16-bit words of a list. -/
def onesSum : List Byte → Nat
  | [] => 0
  | [a] => a.toNat * 256
  | a :: c :: l => a.toNat * 256 + c.toNat + onesSum l

/-- The Internet checksum of a list: the complement of the folded sum. -/
def inetSum (l : List Byte) : Nat :=
  let s := onesSum l
  let s := s % 2 ^ 16 + s / 2 ^ 16
  let s := s % 2 ^ 16 + s / 2 ^ 16
  let s := s % 2 ^ 16 + s / 2 ^ 16
  2 ^ 16 - 1 - s % 2 ^ 16

/-- The TYPE code of a message's packets (chapter 15). -/
def msgKind : Msg → Nat
  | .ack _ _ _ => 2
  | .refuse _ => 3
  | .lendRead _ _ _ _ => 4
  | .lendData _ => 5
  | .credit _ _ _ => 6
  | .sack _ _ _ => 7
  | .recipe _ _ _ => 1
  | .lendOffer _ _ _ => 1
  | .revoke _ => 1
  | .lendWrite _ _ _ _ => 1
  | .unit _ _ _ _ _ => 1
  | .again _ _ _ => 1
  | .cancel _ _ _ _ => 1
  | .drained _ _ _ => 1
  | .movesDone _ _ => 1
  | .fillRequest _ _ _ => 1
  | .fillReply _ _ _ _ _ => 1
  | .fetchRequest _ _ _ _ _ => 1
  | .fetchReply _ _ _ _ => 1

/-- Whether a packet type travels at CTRL_PCP (R453): ACK, NAK, SACK and CREDIT. -/
def ctrlKind (k : Nat) : Bool := decide (k = 2 ∨ k = 3 ∨ k = 6 ∨ k = 7)

/-- The MSG field (chapter 15): the tag, or queue and message number of a recipe message (their places are a DESIGN CHOICE). -/
def msgField : Msg → Nat
  | .recipe q n _ => q + n % 2 ^ 32 * 2 ^ 32
  | .credit t _ _ => t
  | .refuse t => t
  | .unit t _ _ _ _ => t
  | .again t _ _ => t
  | .fetchRequest t _ _ _ _ => t
  | .fetchReply t _ _ _ => t
  | .cancel g e k _ => g * 2 ^ 24 + e * 2 ^ 16 + k
  | .drained g e _ => g * 2 ^ 24 + e * 2 ^ 16
  | .movesDone g e => g * 2 ^ 24 + e * 2 ^ 16
  | .lendOffer _ _ _ => 0
  | .revoke _ => 0
  | .lendRead _ _ _ _ => 0
  | .lendData _ => 0
  | .lendWrite _ _ _ _ => 0
  | .fillRequest _ _ _ => 0
  | .fillReply _ _ _ _ _ => 0
  | .ack _ _ _ => 0
  | .sack _ _ _ => 0

/-- The next PSN expected that an ACK or a SACK carries, and its ECN echo. -/
def ackFields : Msg → Nat × Bool
  | .ack a e _ => (a, e)
  | .sack a _ e => (a, e)
  | _ => (0, false)

/-- The transport header of packet `i` of `n` of a message (chapter 15): 32 bytes, version 1. -/
def transportHeader (src : Nat) (o : OutMsg) (psn i n pay : Nat) : List Byte :=
  let a := ackFields o.msg
  let flags := b2n (decide (i = 0)) + 2 * b2n (decide (i + 1 = n)) + 4 * b2n a.2
  bytesOf 1 (msgKind o.msg + 16) ++ bytesOf 1 flags ++ bytesOf 2 src ++ bytesOf 2 o.dst ++ bytesOf 1 o.ctx ++ bytesOf 1 o.cls ++
    bytesOf 4 psn ++ bytesOf 4 a.1 ++ bytesOf 8 (msgField o.msg) ++ bytesOf 4 (i * pay) ++ bytesOf 4 o.msg.body.length

/-- The payload of packet `i`: the message's bytes, or the bits that a SACK carries (R456). -/
def packetBody (m : Msg) (pay i : Nat) : List Byte :=
  match m with
  | .sack _ marks _ => bytesOf 32 (marks.foldl (fun x j => setBit x j) 0)
  | _ => (m.body.drop (i * pay)).take pay

/-- A frame padded to 60 bytes, with its FCS (R449). -/
def closeFrame (l : List Byte) : List Byte :=
  let p := l ++ List.replicate (60 - l.length) 0
  p ++ bytesOf 4 (crc32 p)

/-- The IP header of a datagram of `n` bytes and the pseudo-header of its UDP checksum (R453). -/
def Block.ipHeaders (b : Block) (m e : Nat) (o : OutMsg) (n : Nat) : List Byte × List Byte :=
  let tos := 4 * b.rget .HOKUKE_PEER_DSCP e + 2
  let ttl := b.rget .MAC_L3_CFG_TTL m
  if b.flag .HOKUKE_PEER_IPV6 e then
    let s := bytesOf 8 (b.rget .MAC_IP6_ADDR_LO m) ++ bytesOf 8 (b.rget .MAC_IP6_ADDR_HI m)
    let d := bytesOf 8 (b.rget .HOKUKE_PEER_IP_LO e) ++ bytesOf 8 (b.rget .HOKUKE_PEER_IP_HI e)
    (beBytes 4 (6 * 2 ^ 28 + tos * 2 ^ 20 + (b.rank * 16384 + o.dst) % 2 ^ 20) ++ beBytes 2 n ++ beBytes 1 17 ++ beBytes 1 ttl ++ s ++ d,
      s ++ d ++ beBytes 4 n ++ beBytes 4 17)
  else
    let s := bytesOf 4 (b.rget .MAC_IP4_ADDR m)
    let d := bytesOf 4 (b.rget .HOKUKE_PEER_IP_LO e)
    let h := beBytes 1 0x45 ++ beBytes 1 tos ++ beBytes 2 (20 + n) ++ beBytes 2 (b.mac m).ipId ++ beBytes 2 0x4000 ++ beBytes 1 ttl ++ beBytes 1 17
    (h ++ beBytes 2 (inetSum (h ++ s ++ d)) ++ s ++ d, s ++ d ++ beBytes 2 17 ++ beBytes 2 n)

/-- The frame of a packet of a message to peer entry `e` by MAC `m` (R453, R455). -/
def Block.datagram (b : Block) (m e : Nat) (o : OutMsg) (psn i n pay : Nat) : List Byte :=
  let body := transportHeader b.rank o psn i n pay ++ packetBody o.msg pay i
  let len := 8 + body.length
  let sport := 0xC000 + (b.rank * 7 + o.dst * 13 + o.ctx) % 16384
  let udp := beBytes 2 sport ++ beBytes 2 (b.rget .MAC_L3_CFG_UDP_PORT m) ++ beBytes 2 len
  let h := b.ipHeaders m e o len
  let sum := inetSum (h.2 ++ udp ++ body)
  let pcp := if ctrlKind (msgKind o.msg) then b.rget .MAC_L3_CFG_CTRL_PCP m else b.rget .MAC_L3_CFG_DATA_PCP m
  let tag := if b.flag .HOKUKE_PEER_VLAN e then beBytes 2 0x8100 ++ beBytes 2 (pcp * 2 ^ 13 + b.rget .HOKUKE_PEER_TCI e % 2 ^ 13) else []
  closeFrame (bytesOf 6 (b.rget .HOKUKE_PEER_DMAC e) ++ bytesOf 6 (b.rget .MAC_ADDR_ADDR m) ++ tag ++
    beBytes 2 (if b.flag .HOKUKE_PEER_IPV6 e then 0x86DD else 0x0800) ++ h.1 ++ udp ++ beBytes 2 (if sum = 0 then 0xFFFF else sum) ++ body)

/-! ### Statistics (R466) -/

/-- `n` more in statistics counter `k` of a MAC: at half range the counter's bit is set and event 6 raised. -/
def Block.macCount (b : Block) (m : Nat) (tx : Bool) (k n : Nat) : Block :=
  let f : Fld := if tx then .MAC_TX_COUNT else .MAC_RX_COUNT
  let h : Fld := if tx then .MAC_STATS_HALF_TX_HALF else .MAC_STATS_HALF_RX_HALF
  let i := m * 45 + k
  let old := b.rget f i
  let b := b.count f i n
  if old < 2 ^ 47 ∧ 2 ^ 47 ≤ old + n then (b.rset h m (setBit (b.rget h m) k)).raiseEvent 6 else b

/-- The size bin of a good frame. -/
def sizeBin (n : Nat) : Nat :=
  if n ≤ 64 then 18 else if n ≤ 127 then 19 else if n ≤ 255 then 20 else if n ≤ 511 then 21 else if n ≤ 1023 then 22
  else if n ≤ 1518 then 23 else if n ≤ 2047 then 24 else if n ≤ 4095 then 25 else if n ≤ 8191 then 26 else 27

/-- Whether a frame carries an 802.1Q tag, and where its EtherType stands. -/
def frameTagged (l : List Byte) : Bool := decide (beField l 12 2 = 0x8100)
def typeAt (l : List Byte) : Nat := if frameTagged l then 16 else 12

/-- Whether a frame's destination is the broadcast address, or another group address. -/
def toAll (l : List Byte) : Bool := decide (field l 0 6 = 2 ^ 48 - 1)
def toGroup (l : List Byte) : Bool := bitAt (field l 0 1) 0

/-- The counts of a good frame (R466). -/
def Block.countGood (b : Block) (m : Nat) (tx : Bool) (l : List Byte) : Block :=
  let b := (b.macCount m tx 1 l.length).macCount m tx 3 1
  let b := b.macCount m tx (if toAll l then 6 else if toGroup l then 5 else 4) 1
  let b := if frameTagged l then b.macCount m tx 7 1 else b
  b.macCount m tx (sizeBin l.length) 1

/-- A frame leaves by a MAC: its counts, with those of event 0x0D. -/
def Block.emit (b : Block) (m : Nat) (l : List Byte) : Block :=
  let b := { b with net := { b.net with frames := b.net.frames ++ [(m, l)] } }
  let b := ((b.macCount m true 0 l.length).macCount m true 2 1).countGood m true l
  b.perf (0x70 + m) 0x0D 1 0xFF (ceilDiv l.length 128)

/-! ### Pacing (R457) -/

/-- The port rate in Gb/s (R447). -/
def Block.portRate (b : Block) (m : Nat) : Nat := if b.rget .CAPS_OE_ROLE (m / 2) = 2 then 800 else 1600

/-- The first packet for a destination starts at the port rate. -/
def Block.startRate (b : Block) (m dst : Nat) : Block :=
  if (b.mac m).rates.any (fun r => decide (r.rank = dst)) then b
  else b.onMac m (fun x => { x with rates := x.rates ++ [⟨dst, b.portRate m, 0, b.clk.t⟩] })

/-- An acknowledgement with ECN echo lowers the rate, at most once in RC_HOLD_US. -/
def Block.rateDown (b : Block) (m dst : Nat) : Block :=
  match (b.mac m).rates.find? (fun r => decide (r.rank = dst)) with
  | some r =>
    if r.decT ≠ 0 ∧ b.clk.t < r.decT + b.rget .MAC_RC_CFG_RC_HOLD_US m * usec then b
    else
      let v := max (b.rget .MAC_RC_CFG_RC_MIN m) (r.rate - r.rate * b.rget .MAC_RC_CFG_RC_DEC m / 256)
      let y : Rate := ⟨dst, v, b.clk.t, b.clk.t⟩
      (b.onMac m (fun x => { x with rates := x.rates.map (fun z => if z.rank = dst then y else z) })).macCount m true 41 1
  | none => b

/-- Whether a priority may send now by a MAC (R460, R462). -/
def Block.notPaused (b : Block) (m pri : Nat) : Bool :=
  let mode := b.rget .MAC_FLOW_MODE m
  let p := if mode = 1 then 0 else pri
  decide (mode = 0) || !(b.mac m).pauses.any (fun x => decide (x.pri = p))

/-- Whether a MAC's transmitter runs. -/
def Block.macSends (b : Block) (m : Nat) : Bool := b.flag .MAC_STATUS_LINK m && b.flag .MAC_CFG_TX_EN m && b.flag .CAPS_OE_PRESENT (m / 2)

/-- Packets of a message leave as datagrams by MAC `m` (R453, R455): those of a port that is down are abandoned. -/
def Block.sendDatagrams (b : Block) (m : Nat) (o : OutMsg) (psn n pay : Nat) (ps : List Nat) : Block :=
  match b.peerEntry o.dst with
  | none => b
  | some e =>
    if !b.macSends m then b
    else
      ps.foldl (fun b i =>
        let b := (b.emit m (b.datagram m e o ((psn + i) % 2 ^ 32) i n pay)).macCount m true 43 1
        let b := if b.flag .HOKUKE_PEER_IPV6 e then b else b.onMac m (fun x => { x with ipId := (x.ipId + 1) % 2 ^ 16 })
        b.count .HOKUKE_TX_PACKETS_COUNT 0 1) (b.startRate m o.dst)

/-! ### Filters (R451) -/

/-- The hash bit of a destination address. -/
def hashBit (l : List Byte) : Nat := crc32 (sliceBytes l 0 6) / 2 ^ 20

/-- Whether a frame's destination address passes the filters of a MAC. -/
def Block.filterPass (b : Block) (m : Nat) (l : List Byte) : Bool :=
  let da := field l 0 6
  if toAll l then b.flag .MAC_CFG_BCAST_EN m
  else if toGroup l then
    let h := hashBit l
    b.flag .MAC_CFG_ALLMULTI m || bitAt (b.rget .MAC_HASH_BITS (m * 64 + h / 64)) (h % 64)
  else decide (da = b.rget .MAC_ADDR_ADDR m) ||
    (List.range 64).any (fun i => b.flag .MAC_UC_VALID (m * 64 + i) && decide (b.rget .MAC_UC_ADDR (m * 64 + i) = da))

end Sys2Proof.Machine
end

