-- ==== Sys2Proof/Machine/Transport.lean ====
section
/-! DEFINITION. The transport (R439 to R442, R455 to R457) and the recipe's messages: SEND and RECV_POST. -/

namespace Sys2Proof.Machine

/-! ### Sending -/

/-- A flight changed by `f`. -/
def Block.onFlight (b : Block) (id : Nat) (f : Flight → Flight) : Block :=
  { b with net := { b.net with flights := b.net.flights.map (fun x => if x.id = id then f x else x) } }

/-- A flight leaves the transport. -/
def Block.dropFlight (b : Block) (id : Nat) : Block :=
  { b with net := { b.net with flights := b.net.flights.filter (fun x => !decide (x.id = id)) } }

/-- Packets of a flight leave by the port that R435 gives now. -/
def Block.sendPackets (b : Block) (f : Flight) (ps : List Nat) : Block :=
  match b.portFor f.out.dst, b.macTo f.out.dst with
  | none, _ => b
  | some _, some m => b.sendDatagrams m f.out f.psn f.count f.pay ps
  | some port, none =>
    let b := b.count .HOKUKE_TX_PACKETS_COUNT 0 ps.length
    if port < 8 then b.sendFlits port (f.flits ps) else b

/-- The packets of a flight that have left and are not acknowledged. -/
def Flight.unacked (f : Flight) : List Nat := (List.range f.cut).filter (fun i => !f.acked.contains i)

/-- Whether every packet of a flight is acknowledged. -/
def Flight.whole (f : Flight) : Bool := decide (f.count ≠ 0) && (List.range f.count).all f.acked.contains

/-- Packets of a flight are resent (R439, R456). -/
def Block.resend (b : Block) (f : Flight) (ps : List Nat) (tries : Nat) : Block :=
  let b := (b.sendPackets f ps).count .HOKUKE_RESENDS_COUNT 0 ps.length
  b.onFlight f.id (fun x => { x with sentT := b.clk.t, tries := tries, resent := x.resent + ps.length })

/-- An acknowledgement packet leaves for a rank. -/
def Block.sendAckPacket (b : Block) (dst : Nat) (m : Msg) : Block :=
  let o : OutMsg := ⟨dst, 0, 0, m⟩
  let b := { b with net := { b.net with sent := b.net.sent ++ [o] } }
  match b.portFor dst, b.macTo dst with
  | none, _ => b
  | some _, some mac => b.sendDatagrams mac o 0 1 4096 [0]
  | some port, none =>
    let b := b.count .HOKUKE_TX_PACKETS_COUNT 0 1
    if port < 8 then b.sendFlits port [none] else b

/-- The cumulative acknowledgement of a peer's packets (R439). -/
def Block.sendAck (b : Block) (src : Nat) : Block :=
  let p := b.peer src
  (b.setPeer src { p with unacked := 0, ecn := false }).sendAckPacket src (.ack p.rxNext p.ecn (p.short.map (fun x => (x.2.1, x.2.2))))

/-- A selective acknowledgement (R456). -/
def Block.sendSack (b : Block) (src : Nat) : Block :=
  let p := b.peer src
  let marks := (p.rxAhead.map (fun n => (n + 2 ^ 32 - (p.rxNext + 1)) % 2 ^ 32)).filter (fun j => decide (j < 256))
  (b.setPeer src { p with ecn := false, sackT := some b.clk.t }).sendAckPacket src (.sack p.rxNext marks p.ecn)

/-! ### The end of a message -/

/-- The collective that a message belongs to ends, its destination having failed (R440). -/
def Block.collPeerFails (b : Block) (tag dst : Nat) : Block :=
  match b.coll tag with
  | none => b
  | some x =>
    let i := (x.ranks.findIdx? (fun r => decide (r = dst))).getD 0
    match x.cmd.bind b.findCmd with
    | some c => if b.collRuns x ∧ x.op / 256 = 2 then (b.beaterTimeout x c).beaterRegs else b.endColl tag 0x4003 i 0
    | none => b

/-- A PERMUTE of a group and epoch ends, a member having failed. -/
def Block.permuteFails (b : Block) (g e dst : Nat) : Block :=
  match b.relay.colls.find? (fun x => decide (x.op = 0x0407) && decide (tagGroup x.tag = g) && decide (tagEpoch x.tag = e)) with
  | some x => b.collPeerFails x.tag dst
  | none => b

/-- The failure of a message as its engine sees it (R440). -/
def Block.msgFails (b : Block) (f : Flight) : Block :=
  match f.out.msg with
  | .recipe _ _ _ =>
    match f.cmd with
    | some id => b.finish id 0x8001 0 (halves (f.acked.length * f.pay) f.resent)
    | none => b
  | .credit t _ _ => b.collPeerFails t f.out.dst
  | .unit t _ _ _ _ => b.collPeerFails t f.out.dst
  | .again t _ _ => b.collPeerFails t f.out.dst
  | .fetchRequest t _ _ _ _ => b.collPeerFails t f.out.dst
  | .drained g e _ => b.permuteFails g e f.out.dst
  | .movesDone g e => b.permuteFails g e f.out.dst
  | .cancel g _ _ _ =>
    match f.cmd with
    | some id => b.finish id 0x4003 (((b.group? g).bind (fun x => x.ranks.findIdx? (fun r => decide (r = f.out.dst)))).getD 0) 0
    | none => b
  | .refuse _ => b
  | .fetchReply _ _ _ _ => b
  | .lendOffer _ _ _ => b
  | .revoke _ => b
  | .lendRead _ _ _ _ => b
  | .lendData _ => b
  | .lendWrite _ _ _ _ => b
  | .fillRequest _ _ _ => b
  | .fillReply _ _ _ _ _ => b
  | .ack _ _ _ => b
  | .sack _ _ _ => b

/-- A message ends under R440. One that could not leave was counted when it was refused. -/
def Block.flightFails (b : Block) (f : Flight) : Block :=
  ((b.dropFlight f.id).count .HOKUKE_UNREACHABLE_COUNT 0 (b2n (decide (f.count ≠ 0)))).msgFails f

/-- Every packet of a message is acknowledged: SEND completes (R442), or BUCKET_CANCEL when its last message is (R389). -/
def Block.flightDone (b : Block) (f : Flight) : Block :=
  let b := b.dropFlight f.id
  match f.cmd with
  | none => b
  | some id =>
    match f.out.msg with
    | .recipe _ _ body =>
      match f.short with
      | some n => b.finish id 0x8003 0 (halves n f.resent)
      | none => b.finish id 0 0 (halves body.length f.resent)
    | _ =>
      if b.net.flights.any (fun x => decide (x.cmd = some id)) then b
      else b.updCmd id (fun c => if c.phase = .running ∧ c.result.isSome then { c with phase := .done } else c)

/-- The flights to `dst` that are whole and not refused end. -/
def Block.finishFlights (b : Block) (dst : Nat) : Block :=
  (b.net.flights.filter (fun f => decide (f.out.dst = dst) && f.whole && !f.refused)).foldl (fun b f => b.flightDone f) b

/-- Whether PSN `n` is one of a flight's packets. -/
def Flight.has (f : Flight) (n : Nat) : Bool := decide ((n + 2 ^ 32 - f.psn) % 2 ^ 32 < f.count)

/-- Packets to `dst` whose PSN satisfies `p` are acknowledged. -/
def Block.ackWhere (b : Block) (dst : Nat) (p : Nat → Bool) : Block :=
  { b with net := { b.net with flights := b.net.flights.map (fun f =>
      if f.out.dst = dst then
        { f with acked := (List.range f.count).filter (fun i => f.acked.contains i || p ((f.psn + i) % 2 ^ 32)) }
      else f) } }

/-- What an acknowledgement says of recipe messages (R442): one that no RECV_POST took is tried again. -/
def Block.ackNote (b : Block) (dst : Nat) (x : Nat × Option Nat) : Block :=
  { b with net := { b.net with flights := b.net.flights.map (fun f =>
      if f.out.dst = dst ∧ f.has x.1 then
        match x.2 with
        | some n => { f with short := some n }
        | none => if f.refused then f else { f with refused := true, rnr := some (f.rnr.getD b.clk.t), rnrLast := b.clk.t }
      else f) } }

/-- An acknowledgement arrives (R439, R457). -/
def Block.ackArrives (b : Block) (via : Via) (src apsn : Nat) (ecn : Bool) (short : List (Nat × Option Nat)) : Block :=
  let b := short.foldl (fun b x => b.ackNote src x) b
  let b := (b.ackWhere src (fun n => precedes 32 n apsn)).finishFlights src
  match via with
  | some m => if ecn then b.rateDown m src else b
  | none => b

/-- ACK (R439, R442, R457). -/
def execAck (via : Option (Fin 16)) (src apsn : Nat) (ecn : Bool) (short : List (Nat × Option Nat)) (s : State) :
    Host.Outcome State Fault Refusal :=
  s.run (fun b => if b.net.silent then b else b.ackArrives via src apsn ecn short)

/-- SACK (R456): marked packets are acknowledged, and those missing below the highest marked one are resent at once. -/
def Block.sackArrives (b : Block) (m src apsn : Nat) (marks : List Nat) (ecn : Bool) : Block :=
  let top := marks.foldl (fun a j => max a (j + 1)) 0
  let at_ := fun (n : Nat) => (n + 2 ^ 32 - apsn) % 2 ^ 32
  let b := b.ackWhere src (fun n => precedes 32 n apsn || (decide (1 ≤ at_ n) && marks.contains (at_ n - 1)))
  let b := b.net.flights.foldl (fun b f =>
    if f.out.dst = src then
      let ps := f.unacked.filter (fun i => decide (at_ ((f.psn + i) % 2 ^ 32) < top))
      if ps = [] then b else b.resend f ps f.tries
    else b) b
  let b := b.finishFlights src
  if ecn then b.rateDown m src else b

def execSack (mac : Fin 16) (src apsn : Nat) (marks : List (Fin 256)) (ecn : Bool) (s : State) :
    Host.Outcome State Fault Refusal :=
  s.run (fun b => if b.net.silent then b else b.sackArrives mac src apsn (marks.map Fin.val) ecn)

/-- RTO_EXPIRY of a message (R439, R440): its unacknowledged packets are resent, or it ends. -/
def Block.rto (b : Block) (f : Flight) : Block :=
  if f.count = 0 then b.flightFails f
  else if !b.reachable f.out.dst then b.flightFails f
  else if f.unacked = [] then b
  else
    let b := b.advanceTo (f.sentT + b.rget .HOKUKE_CFG_RTO_US * usec)
    if b.rget .HOKUKE_CFG_RETRIES ≤ f.tries then b.flightFails f else b.resend f f.unacked (f.tries + 1)

def execRtoExpiry (flight : Nat) (s : State) : Host.Outcome State Fault Refusal :=
  s.run (fun b =>
    match b.net.flights.find? (fun f => decide (f.id = flight)) with
    | some f => b.rto f
    | none => b)

/-- The priority of a message's datagrams (R453, R458). -/
def Block.framePri (b : Block) (m : Nat) (o : OutMsg) : Nat :=
  match b.peerEntry o.dst with
  | some e =>
    if b.flag .HOKUKE_PEER_VLAN e then
      (if ctrlKind (msgKind o.msg) then b.rget .MAC_L3_CFG_CTRL_PCP m else b.rget .MAC_L3_CFG_DATA_PCP m)
    else b.rget .MAC_FLOW_UNTAGGED_PRI m
  | none => 0

/-- A segment of a message in flight leaves as frames of port `m`, `cuts` of them preempted (R456, R458). -/
def Block.segmentSent (b : Block) (f : Flight) (m cuts : Nat) : Block :=
  let pri := b.framePri m f.out
  let n := min f.count (f.cut + max 1 (262144 / max 1 f.pay))
  let ps := (List.range n).filter (fun i => decide (f.cut ≤ i))
  let b := b.sendPackets f ps
  let k := if b.flag .MAC_STATUS_PREEMPT_ACTIVE m && b.macSends m && !bitAt (b.rget .MAC_PREEMPT_EXPRESS_PRI m) pri then min cuts ps.length else 0
  let b := (b.macCount m true 34 k).macCount m true 35 k
  b.onFlight f.id (fun x => { x with cut := n, sentT := b.clk.t })

/-- TRANSPORT_SEGMENT_SEND (R455, R459, R468): the next segment of a message, up to 256 KiB, leaves as datagrams; `cuts` of them
are preempted once. The datagrams of a port that is down are abandoned. -/
def Block.sendSegment (b : Block) (f : Flight) (cuts : Nat) : Block :=
  match f.mac with
  | none => b
  | some m =>
    if f.count ≤ f.cut ∨ b.net.silent ∨ !b.notPaused m (b.framePri m f.out) then b else b.segmentSent f m cuts

def execTransportSegmentSend (flight cuts : Nat) (s : State) : Host.Outcome State Fault Refusal :=
  s.run (fun b =>
    match b.net.flights.find? (fun f => decide (f.id = flight)) with
    | some f => b.sendSegment f cuts
    | none => b)

/-! ### Receiving -/

/-- Packets that stand in order behind the next one expected are taken in. -/
def Peer.settle : Nat → Peer → Peer
  | 0, p => p
  | fuel + 1, p =>
    if p.rxAhead.contains p.rxNext then
      Peer.settle fuel { p with rxNext := (p.rxNext + 1) % 2 ^ 32, rxAhead := p.rxAhead.filter (fun n => !decide (n = p.rxNext)) }
    else p

/-- Whether the receiver takes a PSN (R439, R456): once; over UDP not beyond E + 255. -/
def Peer.takes (p : Peer) (via : Via) (psn : Nat) : Bool :=
  !precedes 32 psn p.rxNext && !p.rxAhead.contains psn && (via.isNone || decide ((psn + 2 ^ 32 - p.rxNext) % 2 ^ 32 ≤ 255))

/-- The acknowledgements that an arriving packet brings about: every 16 packets (R439), a SACK at a gap (R456). -/
def Block.ackDue (b : Block) (via : Via) (src psn : Nat) : Block :=
  let p := b.peer src
  let b := if 16 ≤ p.unacked then b.sendAck src else b
  if via.isSome ∧ precedes 32 p.rxNext psn ∧ p.rxAhead ≠ [] ∧ p.sackT.all (fun t => decide (t + 2 * usec ≤ b.clk.t)) then b.sendSack src
  else b

/-- A packet's PSN is recorded: whether the packet is accepted. -/
def Block.takePsn (b : Block) (via : Via) (src psn : Nat) : Block × Bool :=
  let p := b.peer src
  let ok := p.takes via psn
  let dup := !ok && (precedes 32 psn p.rxNext || p.rxAhead.contains psn)
  if !ok && !dup then (b, false)
  else
    let p := { p with unacked := p.unacked + 1, firstT := if p.unacked = 0 then b.clk.t else p.firstT }
    let q := if ok then Peer.settle (p.rxAhead.length + 1) { p with rxAhead := p.rxAhead ++ [psn] } else p
    let b := b.setPeer src { q with sackT := if q.rxAhead = [] then none else q.sackT }
    (b.count .HOKUKE_RX_PACKETS_COUNT 0 (b2n ok), ok)

/-- The oldest RECV_POST of a queue that accepts a source (R442). -/
def Block.postedFor (b : Block) (src ctx queue : Nat) : Option Cmd :=
  b.cmds.find? (fun (c : Cmd) => decide (c.opcode = 0x0802) && decide (c.phase = .running) && decide (c.ctx = ctx) &&
    !b.net.inbound.any (fun x => decide (x.cmd = some c.id)) &&
    (match c.params with
     | .recvPost p => decide (p.queue = queue) && decide (p.src = 0xFFFF ∨ p.src = src)
     | _ => false))

/-- What the acknowledgements to a rank say of the last message on a queue: refused (`some none`), truncated, or nothing. -/
def Block.noteShort (b : Block) (src key psn : Nat) (x : Option (Option Nat)) : Block :=
  let p := b.peer src
  b.setPeer src { p with short := p.short.filter (fun y => !decide (y.1 = key)) ++ (x.map (fun y => (key, psn, y))).toList }

/-- The bytes of a packet are written at their place in the buffer. -/
def Block.recvWrite (b : Block) (c : Cmd) (p : RecvParams) (off : Nat) (body : List Byte) : Block × Bool :=
  match (writeVa (c.req p.hint 0) (p.bufVa + off) (body.take (p.bufBytes - off))) b with
  | (.ok _, b) => (b, true)
  | (.error x, b) => let r := x.status (0x0100, 0); (b.finish c.id r.1 r.2 0, false)

/-- A packet of a recipe message is taken by the message's RECV_POST, or passes by (R442). -/
def Block.recipeTake (b : Block) (x : Inbound) (psn off : Nat) (body : List Byte) : Block :=
  let key := x.ctx * 256 + x.queue
  let y := { x with got := x.got + body.length }
  let full := decide (y.length ≤ y.got)
  let put := fun (b : Block) (z : Inbound) =>
    let rest := b.net.inbound.filter (fun w => !decide (w.src = x.src ∧ w.ctx = x.ctx ∧ w.queue = x.queue ∧ w.num = x.num))
    { b with net := { b.net with inbound := if full then rest else rest ++ [z] } }
  match x.cmd.bind b.findCmd with
  | none => put b { y with cmd := none }
  | some c =>
    match c.params with
    | .recvPost p =>
      let r := b.recvWrite c p off body
      if !r.2 then put r.1 { y with cmd := none }
      else
        let b := put r.1 y
        if full then
          let n := min x.length p.bufBytes
          if p.bufBytes < x.length then (b.noteShort x.src key psn (some (some n))).finish c.id 0x8003 0 (halves n x.src)
          else (b.noteShort x.src key psn none).finish c.id 0 0 (halves n x.src)
        else b
    | _ => put b { y with cmd := none }

/-- A packet of a recipe message arrives (R442). -/
def Block.recipeArrives (b : Block) (src ctx queue num psn off len : Nat) (body : List Byte) : Block :=
  match b.net.inbound.find? (fun x => decide (x.src = src) && decide (x.ctx = ctx) && decide (x.queue = queue) && decide (x.num = num)) with
  | some x => b.recipeTake x psn off body
  | none =>
    let c := b.postedFor src ctx queue
    let b := if c.isNone then (b.noteShort src (ctx * 256 + queue) psn (some none)).sendAck src else b
    b.recipeTake ⟨src, ctx, queue, num, c.map (fun c => c.id), 0, len⟩ psn off body

/-- A lend is given to this module (R252): it takes the first free slot of DROVER_BORROW. -/
def Block.takeLend (b : Block) (src lend : Nat) (guarded : Bool) (pages : Nat) : Block :=
  match (List.range 16).find? (fun i => !b.flag .DROVER_BORROW_VALID i) with
  | some i =>
    let b := ((b.rset .DROVER_BORROW_RANK i src).rset .DROVER_BORROW_VALID i 1).rset .DROVER_BORROW_REVOKING i 0
    ((b.rset .DROVER_BORROW_GUARDED i (b2n guarded)).rset .DROVER_BORROW_LEND_ID i lend).rset .DROVER_BORROW_PAGES i pages
  | none => b

/-- The MPA of a byte that this module lends to a rank. -/
def Block.lentAt (b : Block) (src lend page off : Nat) : Option Nat :=
  (b.drover.lends.find? (fun l => decide (l.id = lend) && decide (l.rank = src))).bind (fun l =>
    (l.pages[page]?).map (fun p => p * pageBytes + off))

/-- Who the accesses of a borrower belong to on the lender: the Relay, which serves them (R249). -/
def lendWho : Req := ⟨⟨0x054, 0xFF, none, none⟩, 0, 0, 10⟩

/-- The borrower's access to a lent line is served (R249): a read is answered, unless its line is lost. -/
def Block.serveLend (b : Block) (src ctx : Nat) (a : Option Nat) (n : Nat) (data : Option (List Byte)) : Block :=
  match a with
  | none => b
  | some a =>
    match data with
    | some bs => b.runAct ((piecesOf a bs.length).forM (fun p => do
        let _ ← localAccess lendWho p.1 p.2 (some (fun _ => (bs.drop (p.1 - a)).take p.2)) false
        return ()))
    | none =>
      match ((piecesOf a n).mapM (fun p => localAccess lendWho p.1 p.2 none false) : Act (List (List Byte))) b with
      | (.ok l, b) => b.tell src 2 ctx (.lendData l.flatten)
      | (.error _, b) => b

/-- What an accepted packet brings; messages with a row of their own are delivered by it. -/
def Block.deliver (b : Block) (p : Packet) : Block :=
  match p.msg with
  | .recipe q n body => b.recipeArrives p.src p.ctx q n p.psn p.offset p.length body
  | .lendOffer l g n => b.takeLend p.src l g n
  | .lendRead l pg off n => b.serveLend p.src p.ctx (b.lentAt p.src l pg off) n none
  | .lendWrite l pg off body => b.serveLend p.src p.ctx (b.lentAt p.src l pg off) 0 (some body)
  | .refuse t => b.creditRefused p.src t
  | .again t leg i => b.unitAgain p.src t leg i
  | .revoke _ => b
  | .lendData _ => b
  | .credit _ _ _ => b
  | .unit _ _ _ _ _ => b
  | .cancel _ _ _ _ => b
  | .drained _ _ _ => b
  | .movesDone _ _ => b
  | .fillRequest _ _ _ => b
  | .fillReply _ _ _ _ _ => b
  | .fetchRequest _ _ _ _ _ => b
  | .fetchReply _ _ _ _ => b
  | .ack _ _ _ => b
  | .sack _ _ _ => b

/-- TRANSPORT_RECEIVE (R439, R441, R442, R456). -/
def execTransportReceive (via : Option (Fin 16)) (p : Packet) (s : State) : Host.Outcome State Fault Refusal :=
  s.run (fun b =>
    if b.net.silent then b
    else
      let r := b.takePsn via p.src p.psn
      let b := if r.2 then r.1.deliver p else r.1
      b.ackDue via p.src p.psn)

/-- ACK_TIMER (R439): 2 µs after the first packet not yet acknowledged. -/
def execAckTimer (src : Nat) (s : State) : Host.Outcome State Fault Refusal :=
  s.run (fun b =>
    if (b.peer src).unacked = 0 then b else (b.advanceTo ((b.peer src).firstT + 2 * usec)).sendAck src)

/-- SACK_REPEAT (R456): 2 µs after the last SACK, while the gap remains. -/
def execSackRepeat (src : Nat) (s : State) : Host.Outcome State Fault Refusal :=
  s.run (fun b =>
    match (b.peer src).sackT with
    | some t => if (b.peer src).rxAhead = [] then b else (b.advanceTo (t + 2 * usec)).sendSack src
    | none => b)

/-! ### SEND and RECV_POST (R442, R445, R446) -/

/-- The counter of the messages on a queue to a rank. -/
def queueKey (ctx queue dst : Nat) : Nat := (ctx * 256 + queue) * 16384 + dst

/-- Whether a SEND is the next of its queue (R441): no earlier one to the same rank and queue is under way (DESIGN CHOICE). -/
def sendTurn (p : SendParams) (c : Cmd) (b : Block) : Bool :=
  (b.cmds.takeWhile (fun (x : Cmd) => !decide (x.id = c.id))).all (fun (x : Cmd) =>
    decide (x.ctx ≠ c.ctx) || decide (x.phase = .queued) || decide (x.phase = .done) ||
      (match x.params with
       | .send q => decide (q.dest ≠ p.dest) || decide (q.queue ≠ p.queue)
       | _ => true))

/-- A SEND's message of bytes `bs` leaves with the next number of its queue (R441): the command runs until it is acknowledged; whether its
rank is reachable. -/
def Block.sendRecipe (b : Block) (c : Cmd) (p : SendParams) (bs : List Byte) : Block × Bool :=
  let k := queueKey c.ctx p.queue p.dest
  let n := Sparse.get (always 0) b.net.queueNum k
  let b := { b with net := { b.net with queueNum := Sparse.set (always 0) b.net.queueNum k (n + 1) } }
  (b.setRunning c.id).sendMsg p.dest 0 c.ctx (.recipe p.queue n bs) (some c.id)

/-- SEND at its start. -/
def Block.doSend (c : Cmd) (p : SendParams) (b : Block) : Block :=
  if p.bytes = 0 ∨ 67108864 < p.bytes then b.finish c.id 0x0100 0 0
  else
    match (readVa (c.req p.hint 0) p.srcVa p.bytes) b with
    | (.error x, b) => let r := x.status (0x0100, 0); b.finish c.id r.1 r.2 0
    | (.ok bs, b) =>
      let r := b.sendRecipe c p bs
      if r.2 then r.1 else r.1.finish c.id 0x8001 0 0

/-- SEND (R441, R442). -/
def execSend (id : Nat) (p : SendParams) (s : State) : Host.Outcome State Fault Refusal :=
  s.run (fun b => b.runCmd id (.send p) (sendTurn p) (fun c b => b.doSend c p))

/-- RECV_POST (R442): the buffer is offered until a message has been written into it. -/
def execRecvPost (id : Nat) (p : RecvParams) (s : State) : Host.Outcome State Fault Refusal :=
  s.run (fun b => b.runCmd id (.recvPost p) always2 (fun c b =>
    if p.bufBytes = 0 ∨ 67108864 < p.bufBytes ∨ (p.src ≠ 0xFFFF ∧ 16384 ≤ p.src) then b.finish c.id 0x0100 0 0 else b.setRunning c.id))

/-- A refused message goes again as new packets (R442). -/
def Block.sendAgain (b : Block) (f : Flight) : Block :=
  let p := b.peer f.out.dst
  let mac := b.macTo f.out.dst
  let g := { f with psn := p.txPsn, acked := [], sentT := b.clk.t, tries := 0, refused := false, rnrLast := b.clk.t, mac := mac
                    cut := if mac.isSome then 0 else f.count }
  let b := (b.setPeer f.out.dst { p with txPsn := (p.txPsn + f.count) % 2 ^ 32 }).onFlight f.id (fun _ => g)
  if mac.isSome then b else b.sendPackets g (List.range f.count)

/-- A refused message is tried again with new PSNs, or SEND ends with NO_RECEIVER (R442). -/
def Block.retry (b : Block) (f : Flight) : Block :=
  let b := b.advanceTo (f.rnrLast + 10 * usec)
  match f.rnr, f.cmd with
  | some t0, some id =>
    if t0 + b.rget .HOKUKE_CFG_RNR_US * usec ≤ b.clk.t then (b.dropFlight f.id).finish id 0x8002 0 (halves 0 f.resent)
    else if !b.reachable f.out.dst then b.flightFails f
    else b.sendAgain f
  | _, _ => b

/-- RNR_RETRY (R442), once the packets of the last try are acknowledged. -/
def execRnrRetry (flight : Nat) (s : State) : Host.Outcome State Fault Refusal :=
  s.run (fun b =>
    match b.net.flights.find? (fun f => decide (f.id = flight)) with
    | some f => if f.refused ∧ f.whole then b.retry f else b
    | none => b)

end Sys2Proof.Machine
end

