-- ==== Sys2Proof/Machine/Hokuke.lean ====
section
/-! DEFINITION. Lasers, links, flits, routing and time offsets (R422 to R438, R443 to R446). -/

namespace Sys2Proof.Machine

/-- The source number of an engine (R21). -/
def oeSource (n : Nat) : Nat := 0x60 + n

/-- The state of the Hokuke link of an engine. -/
def Block.linkState (b : Block) (n : Nat) : Nat := b.rget .OE_STATUS_STATE n

/-- Whether a link is ACTIVE or DEGRADED. -/
def Block.linkOpen (b : Block) (n : Nat) : Bool := decide (b.linkState n = 2 ∨ b.linkState n = 3)

/-- Whether an engine is present and runs a Hokuke link. -/
def Block.hokuke (b : Block) (n : Nat) : Bool := b.flag .CAPS_OE_PRESENT n && !b.ethRole n

/-- A link changes state, with the trace's LINK record (R526). -/
def Block.setLinkState (b : Block) (n st : Nat) : Block :=
  let b := (b.rset .OE_STATUS_STATE n st).setLink n { b.link n with since := b.clk.t }
  b.traceRec (oeSource n) 5 2 15 (n + st * 2 ^ 8) (b.rget .OE_PEER_RANK n) (b.rget .OE_STATUS_WIDTH n)

/-- A link enters TRAIN (R431): the reach setting takes effect, RANK_CLASH clears, and the link-level retry starts anew (DEDUCED,
in the log). -/
def Block.enterTrain (b : Block) (n : Nat) : Block :=
  let x := b.link n
  let b := b.count .OE_RETRAINS_COUNT n (b2n x.trained)
  let b := b.setLink n { x with tx := 0, rx := 0, replay := [], waiting := [], nakSent := false, naks := 0, trained := true }
  let b := ((b.rset .OE_STATUS_WIDTH n 0).rset .OE_STATUS_RANK_CLASH n 0).rset .OE_STATUS_LONG_REACH n (b.rget .OE_CFG_LONG_REACH n)
  let b := (List.range 8).foldl (fun b l => b.rset .OE_LANE_LOCK (n * 8 + l) 0) b
  b.setLinkState n 1

/-- The flights whose packets stand in a replay buffer or wait for it, with those packets, unacknowledged. -/
def Block.abandoned (b : Block) (x : LinkSt) : List (Flight × List Nat) :=
  (b.net.flights.map (fun f => (f, f.unacked.filter (fun i => (x.replay.map (fun h => h.owner) ++ x.waiting).contains (some (f.id, i)))))).filter (fun y => !y.2.isEmpty)

/-- The link of an engine enters FAILED (R434, R437): the transport resends the abandoned packets at once, or ends their messages.
Whether every message found another port. -/
def Block.enterFailed (b : Block) (n : Nat) : Block × Bool :=
  let x := b.link n
  let b := (b.rset .OE_STATUS_WIDTH n 0).setLink n { x with replay := [], waiting := [], dead := [] }
  let b := b.setLinkState n 5
  (b.abandoned x).foldl (fun a y =>
    if a.1.reachable y.1.out.dst then (a.1.resend y.1 y.2 y.1.tries, a.2) else (a.1.flightFails y.1, false)) (b, true)

/-- A link fails: a fault detection event of class 0x11 (R437, R495). -/
def Block.failLink (b : Block) (n : Nat) : Block :=
  let r := b.enterFailed n
  if r.2 then r.1.absorbed { source := oeSource n, cls := 0x11, outcome := 0, unit := n }
  else r.1.errLog { source := oeSource n, cls := 0x11, outcome := 1, unit := n }

/-! ### Lanes (R433, R434) -/

/-- A lane is dropped and retired (R433); below four lanes the link fails (R434). -/
def Block.dropLane (b : Block) (n l : Nat) : Block :=
  let b := b.rset .CAPS_OE_LANE_MASK n (clearBit (b.rget .CAPS_OE_LANE_MASK n) l)
  let b := (b.rset .OE_LANE_RETIRED (n * 8 + l) 1).rset .OE_LANE_LOCK (n * 8 + l) 0
  let b := b.count .OE_LANE_DROPS_COUNT n 1
  let w := b.rget .OE_STATUS_WIDTH n - 1
  if w < 4 then (b.failLink n).capsChanged
  else
    let b := ((b.rset .OE_STATUS_WIDTH n w).setLinkState n 3).putFlits n [none]
    b.capsChanged.absorbed { source := oeSource n, cls := 0x0F, outcome := 0, unit := l }

/-- LANE_DROP (R433): during HOLD the drop waits for its end. An Ethernet port retires no lane (R448). -/
def Block.doLaneDrop (b : Block) (n l : Nat) : Block :=
  if !b.hokuke n || !bitAt (b.rget .CAPS_OE_LANE_MASK n) l then b
  else if b.linkOpen n then b.dropLane n l
  else if b.linkState n = 4 ∧ !(b.link n).dead.contains l then b.setLink n { b.link n with dead := (b.link n).dead ++ [l] }
  else b

def execLaneDrop (engine lane : Fin 8) (s : State) : Host.Outcome State Fault Refusal :=
  s.run (fun b => b.doLaneDrop engine lane)

/-! ### HOLD (R424, R437) -/

/-- A link enters HOLD and remembers its state. -/
def Block.enterHold (b : Block) (n : Nat) : Block :=
  if b.hokuke n && b.linkOpen n then (b.setLink n { b.link n with before := b.linkState n }).setLinkState n 4 else b

/-- A link leaves HOLD for its previous state; lane drops that waited apply before traffic resumes. -/
def Block.leaveHold (b : Block) (n : Nat) : Block :=
  let x := b.link n
  let b := (b.setLink n { x with dead := [] }).setLinkState n x.before
  (x.dead.foldl (fun b l => if b.linkOpen n then b.dropLane n l else b) b).drainFlits n

/-- LOSS_OF_SIGNAL (R437): a link that carries traffic enters HOLD. -/
def execLossOfSignal (engine : Fin 8) (s : State) : Host.Outcome State Fault Refusal :=
  s.run (fun b => if b.hokuke engine then (b.setLink engine { b.link engine with light := false }).enterHold engine else b)

/-- SIGNAL_BACK within 50 µs (chapter 15's link states); a switch-over still under way keeps the link in HOLD. -/
def execSignalBack (engine : Fin 8) (s : State) : Host.Outcome State Fault Refusal :=
  s.run (fun b =>
    let x := b.link engine
    if b.linkState engine = 4 ∧ b.clk.t ≤ x.since + 50 * usec then
      let b := b.setLink engine { x with light := true }
      if x.switching.isSome then b else b.leaveHold engine
    else if b.hokuke engine then b.setLink engine { x with light := true }
    else b)

/-- HOLD_TIMEOUT: 50 µs without signal (chapter 15's link states). -/
def execHoldTimeout (engine : Fin 8) (s : State) : Host.Outcome State Fault Refusal :=
  s.run (fun b => if b.linkState engine = 4 then (b.advanceTo ((b.link engine).since + 50 * usec)).enterTrain engine else b)

/-! ### Laser inputs (R424 to R426) -/

/-- Input A (false) or B (true) of an engine: its OK bit and its power. -/
def inputOk (i : Bool) : Fld := if i then .OE_STATUS_B_OK else .OE_STATUS_A_OK
def inputPwr (i : Bool) : Fld := if i then .OE_LASER_B_PWR else .OE_LASER_A_PWR

/-- A switch-over to an input (R424, R425): the link is held until the modulators have locked. -/
def Block.switchTo (b : Block) (n : Nat) (i loss : Bool) : Block :=
  let b := (b.rset .OE_STATUS_INPUT n (b2n i)).count .OE_LASER_SWITCHES_COUNT n 1
  let b := b.enterHold n
  let b := b.setLink n { b.link n with switching := some (b.clk.t, loss) }
  if loss then b else b.errLog { source := oeSource n, cls := 0x10, outcome := 5, unit := n }

/-- An engine is lost (R426): it returns only at the next power-up. -/
def Block.loseEngine (b : Block) (n : Nat) : Block :=
  let b := b.rset .CAPS_OE_PRESENT n 0
  let b := b.rset .CAPS_COUNTS_ENGINES 0 (b.rget .CAPS_COUNTS_ENGINES - 1)
  let b := (b.rset .MAC_STATUS_LINK (2 * n) 0).rset .MAC_STATUS_LINK (2 * n + 1) 0
  ((b.setLink n { b.link n with switching := none }).failLink n).capsChanged

/-- LASER_INPUT_LOSS (R424, R426): the second low sample of an input, with its power in 0.01 dBm. -/
def Block.laserLoss (b : Block) (n : Nat) (i : Bool) (pwr : Nat) : Block :=
  if !b.flag .CAPS_OE_PRESENT n || !b.flag (inputOk i) n then b
  else
    let b := (b.rset (inputOk i) n 0).rset (inputPwr i) n pwr
    if !b.flag (inputOk (!i)) n then b.loseEngine n
    else if b.rget .OE_STATUS_INPUT n = b2n i then b.switchTo n (!i) true
    else b

def execLaserInputLoss (engine : Fin 8) (input : Bool) (power : BitVec 16) (s : State) : Host.Outcome State Fault Refusal :=
  s.run (fun b => b.laserLoss engine input power.toNat)

/-- LASER_INPUT_RETURN: an input rises above LOSS_DBM; a lost engine does not return (R426). -/
def execLaserInputReturn (engine : Fin 8) (input : Bool) (power : BitVec 16) (s : State) : Host.Outcome State Fault Refusal :=
  s.run (fun b =>
    if b.flag .CAPS_OE_PRESENT engine ∧ ((b.rget .OE_CFG_LOSS_DBM engine : Nat) : Int) * 100 ≤ power.toInt then
      (b.rset (inputOk input) engine 1).rset (inputPwr input) engine power.toNat
    else b)

/-- LASER_SWITCH_DONE (R424, R425, R502): transmission resumes; the entry of the loss is written with its interruption. -/
def Block.switchDone (b : Block) (n : Nat) : Block :=
  let x := b.link n
  match x.switching with
  | none => b
  | some (t, loss) =>
    let b := b.setLink n { x with switching := none }
    let b := if b.linkState n = 4 ∧ x.light then b.leaveHold n else b
    if loss then b.absorbed { source := oeSource n, cls := 0x10, outcome := 0, unit := n, interruptNs := (b.clk.t - t) / 16, time := some (b.now - (b.clk.t - t) / 16) } else b

def execLaserSwitchDone (engine : Fin 8) (s : State) : Host.Outcome State Fault Refusal :=
  s.run (fun b => b.switchDone engine)

/-! ### Training and time offsets (R431, R432, R443) -/

/-- The sums over the exchanges of (t2 − t1) − (t4 − t3) and of (t2 − t1) + (t4 − t3). -/
def exchangeSums (l : List Exchange) : Int × Int :=
  l.foldl (fun a e =>
    let x : Int := (e.t2 : Int) - e.t1
    let y : Int := (e.t4 : Int) - e.t3
    (a.1 + (x - y), a.2 + (x + y))) (0, 0)

/-- The mean of 64 halves, rounded to nearest. -/
def mean64 (s : Int) : Int := (s + 64) / 128

/-- The result of a measurement (R443), with its TIME_OFFSET record. -/
def Block.measureLink (b : Block) (n : Nat) (l : List Exchange) : Block :=
  let s := exchangeSums l
  let off := ofSigned 64 (mean64 s.1)
  let b := ((b.rset .OE_PEER_OFFSET_VALUE n off).rset .OE_PEER_DELAY_VALUE n (ofSigned 64 (mean64 s.2))).rset .OE_PEER_TIME_VALID n 1
  b.traceRec (oeSource n) 9 5 15 n (b.rget .OE_PEER_RANK n) off

/-- Whether a peer's rank clashes (R432): this module's own, or that of another link's peer with another serial number. -/
def Block.clash (b : Block) (n : Nat) (t : Trained) : Bool :=
  decide (t.rank = b.rank) ||
  (List.range 8).any (fun m => decide (m ≠ n) && b.hokuke m && (b.linkOpen m || decide (b.linkState m = 4)) &&
    decide (b.rget .OE_PEER_RANK m = t.rank) && decide ((b.link m).serial ≠ t.serial))

/-- TRAINING_DONE (R431 to R433, R443). -/
def Block.trained (b : Block) (n : Nat) (t : Trained) : Block :=
  let lanes := (List.range 8).filter (fun l => t.lanes.getLsbD l && bitAt (b.rget .CAPS_OE_LANE_MASK n) l)
  let w := lanes.length
  if !b.hokuke n || decide (b.linkState n ≠ 1) || decide (w < 4) then b
  else
    let clash := b.clash n t
    let b := (b.rset .OE_PEER_RANK n t.rank).rset .OE_PEER_ENGINE n t.engine
    let b := b.setLink n { b.link n with serial := t.serial, light := true }
    if clash then
      let b := (b.enterFailed n).1.rset .OE_STATUS_RANK_CLASH n 1
      b.errLog { source := oeSource n, cls := 0x11, outcome := 5, unit := t.rank }
    else
      let b := lanes.foldl (fun b l => b.rset .OE_LANE_LOCK (n * 8 + l) 1) b
      let b := (b.rset .OE_PEER_VALID n 1).rset .OE_STATUS_WIDTH n w
      let b := b.setLinkState n (if w = 8 then 2 else 3)
      if t.exchanges.length = 64 then b.measureLink n t.exchanges else b

def execTrainingDone (engine : Fin 8) (t : Trained) (s : State) : Host.Outcome State Fault Refusal :=
  s.run (fun b => b.trained engine t)

/-- TRAINING_TIMEOUT: 150 ms without lock (R431). -/
def execTrainingTimeout (engine : Fin 8) (s : State) : Host.Outcome State Fault Refusal :=
  s.run (fun b => if b.linkState engine = 1 then (b.advanceTo ((b.link engine).since + 150 * msec)).failLink engine else b)

/-- Whether a link may train: its engine is in the Hokuke role, the rank is set (R482), and it is not administratively down. -/
def Block.mayTrain (b : Block) (n : Nat) : Bool :=
  b.hokuke n && b.flag .HOKUKE_STATUS_RANK_VALID && !(b.link n).adminDown && !b.net.silent

/-- LIGHT_PRESENT (chapter 15's link states). -/
def execLightPresent (engine : Fin 8) (s : State) : Host.Outcome State Fault Refusal :=
  s.run (fun b =>
    let b := b.setLink engine { b.link engine with light := true }
    if b.linkState engine = 0 ∧ b.mayTrain engine ∧ b.flag .OSTLER_BOOT_STATUS_READY then b.enterTrain engine else b)

/-- The time of the last measurement is now. -/
def Block.remeasured (b : Block) : Block := { b with net := { b.net with measureT := b.clk.t } }

/-- TIME_REMEASURE (R443, R524's section): the links that have run their exchanges again. -/
def execTimeRemeasure (links : List (Fin 8 × List Exchange)) (s : State) : Host.Outcome State Fault Refusal :=
  s.run (fun b =>
    let ms := b.rget .GTIME_CFG_MEASURE_MS
    if ms = 0 then b
    else
      let b := (b.advanceTo (b.net.measureT + ms * msec)).remeasured
      links.foldl (fun b x => if b.hokuke x.1 && b.linkOpen x.1 && decide (x.2.length = 64) then b.measureLink x.1 x.2 else b) b)

/-! ### Flits (R428, R430, R436) -/

/-- The receiver asks for the next flit that it expects. -/
def Block.sendNak (b : Block) (n : Nat) : Block :=
  let b := b.putFlits n [none]
  b.setLink n { b.link n with nakSent := true }

/-- Flits before `seq` leave the replay buffer (R428), and flits that wait take their room (R429). -/
def Block.releaseFlits (b : Block) (n seq : Nat) : Block :=
  let x := b.link n
  (b.setLink n { x with replay := x.replay.filter (fun h => !precedes 24 h.seq seq) }).drainFlits n

/-- A flit for another rank is forwarded (R436), or dropped where no port qualifies. -/
def Block.forward (b : Block) (dst vc : Nat) : Block :=
  match b.portChoice dst with
  | none => b.count .HOKUKE_UNREACHABLE_COUNT 0 1
  | some (k, port) =>
    if port = 14 then b
    else
      let vc := if bitAt (b.rget .HOKUKE_ROUTE_ENTRY dst) (16 + k) then 1 else vc
      let b := b.count .HOKUKE_TRANSIT_FLITS_COUNT 0 1
      let b := { b with net := { b.net with forwarded := b.net.forwarded ++ [(port, vc, dst)] } }
      if b.ethRole port then b else b.sendFlits port [none]

/-- A flit arrives (R428). -/
def Block.flitArrives (b : Block) (n : Nat) (f : Flit) : Block :=
  if !f.crcOk then (b.count .OE_CRC_FAIL_COUNT n 1).sendNak n
  else
    let b := b.releaseFlits n f.ack
    let x := b.link n
    if precedes 24 x.rx f.seq then (if x.nakSent then b else b.sendNak n)
    else if f.seq ≠ x.rx ∨ f.kind = 1 then b
    else
      let b := b.setLink n { x with rx := (x.rx + 1) % 2 ^ 24, nakSent := false }
      let b := (b.count .OE_FLITS_RX_COUNT n 1).perf (oeSource n) 0x0D 0 0xFF 2
      if f.kind = 0 ∧ f.dst ≠ b.rank then b.forward f.dst f.vc else b

def execFlitReceive (engine : Fin 8) (f : Flit) (s : State) : Host.Outcome State Fault Refusal :=
  s.run (fun b => if b.hokuke engine && b.linkOpen engine && !b.net.silent then b.flitArrives engine f else b)

/-- A NAK arrives (R428, R430): replay from its SEQ. The eighth in a row for one SEQ is a fault detection event: lanes that the test
finds bad are dropped, and with none the link retrains. -/
def Block.nakArrives (b : Block) (n seq : Nat) (bad : List Nat) : Block :=
  let b := b.releaseFlits n seq
  let x := b.link n
  let k := if x.naks ≠ 0 ∧ x.nakSeq = seq then x.naks + 1 else 1
  let b := b.setLink n { x with nakSeq := seq, naks := if 8 ≤ k then 0 else k }
  let m := x.replay.length
  let b := ((b.count .OE_REPLAYS_COUNT n 1).count .OE_FLITS_TX_COUNT n m).perf (oeSource n) 0x0D 1 0xFF (2 * m)
  if k < 8 then b
  else if bad = [] then (b.enterTrain n).absorbed { source := oeSource n, cls := 0x11, outcome := 0, unit := n }
  else bad.foldl (fun b l => b.doLaneDrop n l) b

def execNak (engine : Fin 8) (seq : BitVec 24) (bad : List (Fin 8)) (s : State) : Host.Outcome State Fault Refusal :=
  s.run (fun b => if b.hokuke engine && b.linkOpen engine && !b.net.silent then b.nakArrives engine seq.toNat (bad.map Fin.val) else b)

/-! ### LINK_CONTROL (R431, R443 to R446) -/

/-- Whether a LINK_CONTROL completes with RANGE (R444). -/
def Block.linkRange (b : Block) (c : Cmd) (p : LinkParams) : Bool :=
  decide (c.ctx ≠ 0) || decide (7 < p.engine) || decide (5 < p.op) || (b.ethRole p.engine && decide (p.op < 4))

/-- LINK_CONTROL ends: its record holds OE_STATUS after the operation (R445). -/
def Block.linkEnd (b : Block) (id : Nat) (p : LinkParams) (status hi : Nat) : Block :=
  b.finish id status 0 (halves (b.word .OE_STATUS p.engine) hi)

/-- A LINK_CONTROL with its operation. -/
def Block.linkCmd (b : Block) (id : Nat) (p : LinkParams) (op : Bool) (go : Block → Block) : Block :=
  b.runCmd id (.linkControl p) (fun _ _ => op) (fun c b => if b.linkRange c p then b.finish id 0x0100 0 0 else go b)

/-- OP RETRAIN (and an OP that no table names). A link that is DOWN, or whose engine is lost, does not retrain: LINK_NOT_UP (DESIGN
CHOICE). -/
def execLinkRetrain (id : Nat) (p : LinkParams) (s : State) : Host.Outcome State Fault Refusal :=
  s.run (fun b => b.linkCmd id p (decide (p.op = 0 ∨ 5 < p.op)) (fun b =>
    if b.linkState p.engine ≠ 0 ∧ b.mayTrain p.engine then (b.enterTrain p.engine).linkEnd id p 0 0 else b.linkEnd id p 0x8004 0))

/-- OP DOWN: the link is administratively down, and its replay buffer is abandoned. -/
def execLinkDown (id : Nat) (p : LinkParams) (s : State) : Host.Outcome State Fault Refusal :=
  s.run (fun b => b.linkCmd id p (decide (p.op = 1)) (fun b =>
    let b := (b.rset .OE_STATUS_WIDTH p.engine 0).setLink p.engine { b.link p.engine with adminDown := true, replay := [], waiting := [], dead := [] }
    (b.setLinkState p.engine 0).linkEnd id p 0 0))

/-- OP UP: with light present the link enters TRAIN. -/
def execLinkUp (id : Nat) (p : LinkParams) (s : State) : Host.Outcome State Fault Refusal :=
  s.run (fun b => b.linkCmd id p (decide (p.op = 2)) (fun b =>
    let b := b.setLink p.engine { b.link p.engine with adminDown := false }
    let b := if b.linkState p.engine = 0 ∧ (b.link p.engine).light ∧ b.mayTrain p.engine then b.enterTrain p.engine else b
    b.linkEnd id p 0 0))

/-- OP MEASURE (R443): `ex` are the exchanges that end within 10 ms; fewer than 64 are no measurement. -/
def execMeasure (id : Nat) (p : LinkParams) (ex : List Exchange) (s : State) : Host.Outcome State Fault Refusal :=
  s.run (fun b => b.linkCmd id p (decide (p.op = 3)) (fun b =>
    if !b.hokuke p.engine || !b.linkOpen p.engine then b.linkEnd id p 0x8004 0
    else if ex.length ≠ 64 then (b.advanceTo (b.clk.t + 10 * msec)).linkEnd id p 0x8004 0
    else
      let b := b.measureLink p.engine ex
      b.linkEnd id p 0 (b.rget .OE_PEER_OFFSET_VALUE p.engine)))

/-- FORCE_B and RETURN_A (R425, R444). -/
def Block.forceInput (b : Block) (id : Nat) (p : LinkParams) (i : Bool) : Block :=
  if !b.flag (inputOk i) p.engine then b.linkEnd id p 0x8005 0
  else if b.rget .OE_STATUS_INPUT p.engine = b2n i then b.linkEnd id p 0 0
  else (b.switchTo p.engine i false).linkEnd id p 0 0

def execForceB (id : Nat) (p : LinkParams) (s : State) : Host.Outcome State Fault Refusal :=
  s.run (fun b => b.linkCmd id p (decide (p.op = 4)) (fun b => b.forceInput id p true))

def execReturnA (id : Nat) (p : LinkParams) (s : State) : Host.Outcome State Fault Refusal :=
  s.run (fun b => b.linkCmd id p (decide (p.op = 5)) (fun b => b.forceInput id p false))

/-! ### ROUTE_SET (R438, R444) -/

/-- Whether entry `e` for rank `r` breaks a rule of R444. -/
def Block.routeBad (b : Block) (r e : Nat) : Bool :=
  (List.range 4).any (fun k =>
    let p := bits e (4 * k) 4
    (decide (8 ≤ p) && decide (p < 14)) || (decide (p < 8) && !b.flag .CAPS_OE_PRESENT p)) ||
  (b.flag .HOKUKE_STATUS_RANK_VALID && decide (r = b.rank) && decide (bits e 0 4 ≠ 14))

/-- ROUTE_SET at its start: one commit of every entry. -/
def routeCmd (c : Cmd) (p : RouteParams) : Act (Nat × Nat × Nat) := do
  if c.ctx ≠ 0 ∨ p.count = 0 ∨ 16384 < p.first + p.count then rangeErr
  else
    let bs ← readVa (c.req 0 0) p.srcVa (8 * p.count)
    let b ← get
    let es := (List.range p.count).map (fun i => (p.first + i, field bs (8 * i) 8))
    if es.any (fun x => b.routeBad x.1 x.2) then rangeErr
    else
      act (fun b => (es.foldl (fun b x => b.rset .HOKUKE_ROUTE_ENTRY x.1 x.2) b).rset .HOKUKE_STATUS_ROUTES_SET 0 1)
      return (0, 0, halves p.count 0)

def execRouteSet (id : Nat) (p : RouteParams) (s : State) : Host.Outcome State Fault Refusal :=
  s.run (fun b => b.runCmd id (.routeSet p) always2 (fun c b => b.conclude id (0x0100, 0) (routeCmd c p)))

end Sys2Proof.Machine
end

