-- ==== Sys2Proof/Machine/Mac.lean ====
section
/-! DEFINITION. The frame MACs (chapter 16): classification, pause and its watchdog, preemption, raw queues, time-stamps, filters
and statistics. -/

namespace Sys2Proof.Machine

/-- The source number of a MAC (R21). -/
def macSource (m : Nat) : Nat := 0x70 + m

/-- Whether a MAC is in use (R447). -/
def Block.macUsed (b : Block) (m : Nat) : Bool := b.flag .MAC_STATUS_ACTIVE m && b.flag .CAPS_OE_PRESENT (m / 2)

/-- The base of a MAC's registers. -/
def macBase (m : Nat) : Nat := 0x1400000 + m * 0x40000

/-! ### Pause frames sent (R460, R461) -/

/-- A MAC Control frame that leaves (Annexes 31B and 31D): opcode, and what follows it. -/
def Block.sendControl (b : Block) (m op : Nat) (body : List Byte) : Block :=
  let l := closeFrame (bytesOf 6 0x0100_00C2_8001 ++ bytesOf 6 (b.rget .MAC_ADDR_ADDR m) ++ beBytes 2 0x8808 ++ beBytes 2 op ++ body)
  if b.macSends m then b.emit m l else b

/-- A pause of `q` quanta for a priority, or for the whole link in mode 1. -/
def Block.sendPause (b : Block) (m pri q : Nat) : Block :=
  if b.rget .MAC_FLOW_MODE m = 1 then (b.sendControl m 1 (beBytes 2 q)).macCount m true 8 (b2n (b.macSends m))
  else
    let b' := b.sendControl m 0x0101 (beBytes 2 (2 ^ pri) ++ (List.range 8).flatMap (fun i => beBytes 2 (if i = pri then q else 0)))
    let n := b2n (b.macSends m)
    (b'.macCount m true 9 n).macCount m true (10 + pri) n

/-- The bytes that count against the threshold of a priority: its own, or all of the buffer in mode 1. -/
def Block.occupied (b : Block) (m pri : Nat) : Nat :=
  if b.rget .MAC_FLOW_MODE m = 1 then (b.mac m).occ.foldl (fun n p => n + p.2) 0 else Sparse.get (always 0) (b.mac m).occ pri

/-- The receive buffer of a MAC in bytes (R461). -/
def Block.bufferBytes (b : Block) (m : Nat) : Nat := if b.rget .CAPS_OE_ROLE (m / 2) = 2 then 2097152 else 4194304

/-- Whether flow control acts on a priority: enabled in mode 2, the whole link in mode 1. -/
def Block.flowOn (b : Block) (m pri : Nat) : Bool :=
  let mode := b.rget .MAC_FLOW_MODE m
  (decide (mode = 1) && decide (pri = 0)) || (decide (mode = 2) && bitAt (b.rget .MAC_FLOW_PFC_EN m) pri)

/-- The occupancy has risen: above XOFF a pause is sent (R461), but not while the watchdog holds it off (R462). -/
def Block.checkXoff (b : Block) (m pri : Nat) : Block :=
  let p := if b.rget .MAC_FLOW_MODE m = 1 then 0 else pri
  let x := b.mac m
  if b.flowOn m p && decide (b.rget .MAC_XOFF_XOFF (m * 8 + p) * 4096 < b.occupied m p) && !x.xoffs.any (fun y => decide (y.pri = p)) &&
      !x.holdoffs.any (fun h => decide (h.pri = p) && !h.tx) then
    (b.onMac m (fun x => { x with xoffs := x.xoffs ++ [⟨p, b.clk.t, b.clk.t⟩] })).sendPause m p (b.rget .MAC_FLOW_PAUSE_QUANTA m)
  else b

/-- Half of PAUSE_QUANTA in sixteenths of a ns (R460). -/
def Block.quanta (b : Block) (m q : Nat) : Nat :=
  if b.rget .CAPS_OE_ROLE (m / 2) = 2 then ceilDiv (q * 1024) 100 else ceilDiv (q * 512) 100

/-- A priority's XOFF is sent again. -/
def Block.pauseAgain (b : Block) (mac pri : Nat) : Block :=
  let b := b.onMac mac (fun y => { y with xoffs := y.xoffs.map (fun z => if z.pri = pri then { z with last := b.clk.t } else z) })
  b.sendPause mac pri (b.rget .MAC_FLOW_PAUSE_QUANTA mac)

/-- PAUSE_REFRESH (R461). -/
def execPauseRefresh (mac : Fin 16) (pri : Fin 8) (s : State) : Host.Outcome State Fault Refusal :=
  s.run (fun b =>
    match (b.mac mac).xoffs.find? (fun x => decide (x.pri = pri.val)) with
    | some x => (b.advanceTo (x.last + b.quanta mac (b.rget .MAC_FLOW_PAUSE_QUANTA mac) / 2)).pauseAgain mac pri
    | none => b)

/-- The occupancy of a priority in XOFF falls to XON, and its XOFF ends. -/
def Block.xonAt (b : Block) (mac pri : Nat) : Block :=
  let n := min (b.rget .MAC_XOFF_XON (mac * 8 + pri) * 4096) (b.occupied mac pri)
  let one := decide (b.rget .MAC_FLOW_MODE mac = 1)
  b.onMac mac (fun x => { x with
    xoffs := x.xoffs.filter (fun y => !decide (y.pri = pri))
    occ := if one then Sparse.set (always 0) [] 0 n else Sparse.set (always 0) x.occ pri n })

/-- XON (R461): the occupancy falls to XON. -/
def execXon (mac : Fin 16) (pri : Fin 8) (s : State) : Host.Outcome State Fault Refusal :=
  s.run (fun b =>
    if (b.mac mac).xoffs.any (fun x => decide (x.pri = pri.val)) then (b.xonAt mac pri).sendPause mac pri 0 else b)

/-! ### Raw transmission (R458, R463, R465) -/

/-- Bytes of a raw queue in host memory or in module memory of context 0. -/
def Block.rawRead (b : Block) (loc : Bool) (a n : Nat) : Option (List Byte) × Block :=
  if loc then
    if b.cutActive then (none, b) else (some (b.host.readBytes a n), b.count .PERF_DEV_RD_COUNT 0 (ceilDiv n 64))
  else
    match (readVa ⟨⟨0x056, 0, none, none⟩, 0, 0, 10⟩ (a % 2 ^ 56) n) b with
    | (.ok l, b) => (some l, b)
    | (.error _, b) => (none, b)

/-- Bytes written to a raw queue; whether they could be. -/
def Block.rawWrite (b : Block) (loc : Bool) (a : Nat) (bs : List Byte) : Bool × Block :=
  if loc then
    if b.cutActive then (false, b) else (true, b.hostWrite a bs)
  else
    match (writeVa ⟨⟨0x056, 0, none, none⟩, 0, 0, 10⟩ (a % 2 ^ 56) bs) b with
    | (.ok _, b) => (true, b)
    | (.error _, b) => (false, b)

/-- The address of slot `n` of a raw queue. -/
def rawSlot (base size n : Nat) : Nat := base * 4096 + 16384 * (n % 2 ^ size)

/-- MAC_TXTS_NS and MAC_TXTS_POP show the oldest transmit time-stamp. -/
def Block.showTxts (b : Block) (m : Nat) : Block :=
  let r := (b.mac m).txts.headD (0, 0)
  let b := (b.rset .MAC_TXTS_NS_NS m (r.2 / 16)).rset .MAC_TXTS_POP_FRAC m (r.2 % 16)
  (b.rset .MAC_TXTS_POP_SLOT m r.1).rset .MAC_TXTS_POP_VALID m (b2n (!(b.mac m).txts.isEmpty))

/-- A time in sixteenths of a ns with a signed 32-bit correction. -/
def adjusted (g adj : Nat) : Nat := ((g + toSigned 32 adj) % (2 ^ 68 : Int)).toNat

/-- A transmit time-stamp enters MAC_TXTS, or is lost (R463). -/
def Block.stamp (b : Block) (m slot : Nat) : Block :=
  if 64 ≤ (b.mac m).txts.length then b.macCount m true 44 1
  else (b.onMac m (fun x => { x with txts := x.txts ++ [(slot, adjusted b.clk.g (b.rget .MAC_TS_CFG_TX_ADJ m))] })).showTxts m

/-- The priority of a frame (R458). -/
def Block.priOf (b : Block) (m : Nat) (l : List Byte) : Nat :=
  if frameTagged l then beField l 14 2 / 2 ^ 13 else b.rget .MAC_FLOW_UNTAGGED_PRI m

/-- The next raw frame leaves, if its priority may send; whether the queue goes on (R465). -/
def Block.rawOne (b : Block) (m : Nat) : Block × Bool :=
  let done := b.rget .MAC_RAWTX_DONE_SENT m
  let size := b.rget .MAC_RAWTX_CFG_SIZE_LOG2 m
  if done = b.rget .MAC_RAWTX_TAIL_POSTED m ∨ !b.macSends m ∨ !b.flag .MAC_RAWTX_CFG_EN m then (b, false)
  else
    let a := rawSlot (b.rget .MAC_RAWTX_BASE_ADDR m) size done
    let loc := b.flag .MAC_RAWTX_BASE_LOC m
    match b.rawRead loc a 64 with
    | (none, b) => (b, false)
    | (some d, b) =>
      let n := field d 0 2
      if n < 60 ∨ 9212 < n then ((b.macCount m true 32 1).count .MAC_RAWTX_DONE_SENT m 1, true)
      else
        match b.rawRead loc (a + 64) n with
        | (none, b) => (b, false)
        | (some l, b) =>
          if !b.notPaused m (b.priOf m l) then (b, false)
          else
            let b := (b.emit m (closeFrame l)).macCount m true 42 1
            let b := if bitAt (field d 2 1) 0 then b.stamp m (done % 2 ^ size) else b
            (b.count .MAC_RAWTX_DONE_SENT m 1, true)

/-- Raw frames leave in order as long as they may. -/
def Block.rawGo (m : Nat) : Nat → Block → Block
  | 0, b => b
  | fuel + 1, b => let r := b.rawOne m; if r.2 then Block.rawGo m fuel r.1 else r.1

/-- The posted raw frames leave (R465). -/
def Block.rawSend (b : Block) (m : Nat) : Block :=
  Block.rawGo m ((b.rget .MAC_RAWTX_TAIL_POSTED m + 2 ^ 32 - b.rget .MAC_RAWTX_DONE_SENT m) % 2 ^ 32) b

/-- MAC_RAWTX_TAIL (R465). -/
def execMacRawtxTail (mac : Fin 16) (value : BitVec 32) (s : State) : Host.Outcome State Fault Refusal :=
  s.run (fun b => b.barWrite (macBase mac + 0xF0) (fun b => (b.rset .MAC_RAWTX_TAIL_POSTED mac value.toNat).rawSend mac))

/-- MAC_RAWRX_HEAD (R465). -/
def execMacRawrxHead (mac : Fin 16) (value : BitVec 32) (s : State) : Host.Outcome State Fault Refusal :=
  s.run (fun b => b.barWrite (macBase mac + 0xD0) (fun b => b.rset .MAC_RAWRX_HEAD_CONSUMED mac value.toNat))

/-- MAC_TXTS_POP (R463): the read returns the oldest stamp's rest and removes it. -/
def execMacTxtsPop (mac : Fin 16) (s : State) : Host.Outcome State Fault Refusal :=
  s.run (fun b => b.barRead (macBase mac + 0xA0) 4 (fun b =>
    (b.word .MAC_TXTS_POP mac, (b.onMac mac (fun x => { x with txts := x.txts.drop 1 })).showTxts mac)))

/-! ### Pauses received and the watchdog (R460, R462) -/

/-- MAC_STATUS shows the priorities paused and those held off. -/
def Block.pauseRegs (b : Block) (m : Nat) : Block :=
  let x := b.mac m
  let b := b.rset .MAC_STATUS_PAUSED m (x.pauses.foldl (fun v p => setBit v p.pri) 0)
  b.rset .MAC_STATUS_WD_TRIPPED m (x.holdoffs.foldl (fun v h => setBit v h.pri) 0)

/-- A received pause of `q` quanta for a priority (R460): it replaces the remaining time, and 0 ends it. While the watchdog holds it
off only its end counts (R462, R468). -/
def Block.takePause (b : Block) (m pri q : Nat) : Block :=
  let x := b.mac m
  let rest := x.pauses.filter (fun p => !decide (p.pri = pri))
  if q = 0 then ((b.onMac m (fun x => { x with pauses := rest })).pauseRegs m).rawSend m
  else if x.holdoffs.any (fun h => decide (h.pri = pri) && h.tx) then b
  else
    let since := match x.pauses.find? (fun p => decide (p.pri = pri)) with
      | some p => p.since
      | none => b.clk.t
    (b.onMac m (fun x => { x with pauses := rest ++ [⟨pri, b.clk.t + b.quanta m q, since⟩] })).pauseRegs m

/-- PAUSE_EXPIRY (R460). -/
def execPauseExpiry (mac : Fin 16) (pri : Fin 8) (s : State) : Host.Outcome State Fault Refusal :=
  s.run (fun b =>
    match (b.mac mac).pauses.find? (fun p => decide (p.pri = pri.val)) with
    | some p => (b.advanceTo p.until_).takePause mac pri 0
    | none => b)

/-- The watchdog's period. -/
def Block.wdTime (b : Block) (m : Nat) : Nat := b.rget .MAC_FLOW_WD_MS m * msec

/-- A trip of the watchdog (R462): a fault detection event of class 0x13. -/
def Block.trip (b : Block) (m pri : Nat) (tx : Bool) : Block :=
  let b := b.onMac m (fun x => { x with holdoffs := x.holdoffs ++ [⟨pri, tx, b.clk.t + b.wdTime m⟩] })
  let b := (b.pauseRegs m).macCount m tx 40 1
  b.errLog { source := macSource m, cls := 0x13, outcome := 5 }

/-- The XOFF of a priority ends. -/
def Block.xoffEnds (b : Block) (mac pri : Nat) : Block :=
  b.onMac mac (fun y => { y with xoffs := y.xoffs.filter (fun z => !decide (z.pri = pri)) })

/-- PAUSE_WATCHDOG (R462) of the paused direction (`tx`) or of a priority kept in XOFF. -/
def execPauseWatchdog (mac : Fin 16) (pri : Fin 8) (tx : Bool) (s : State) : Host.Outcome State Fault Refusal :=
  s.run (fun b =>
    if tx then
      match (b.mac mac).pauses.find? (fun p => decide (p.pri = pri.val)) with
      | some p =>
        if p.since + b.wdTime mac ≤ max b.clk.t p.until_ then
          ((b.advanceTo (p.since + b.wdTime mac)).trip mac pri true).takePause mac pri 0
        else b
      | none => b
    else
      match (b.mac mac).xoffs.find? (fun x => decide (x.pri = pri.val)) with
      | some x => ((b.advanceTo (x.since + b.wdTime mac)).trip mac pri false).xoffEnds mac pri
      | none => b)

/-- WATCHDOG_HOLDOFF_END (R462): pause handling resumes. -/
def execWatchdogHoldoffEnd (mac : Fin 16) (pri : Fin 8) (tx : Bool) (s : State) : Host.Outcome State Fault Refusal :=
  s.run (fun b =>
    match (b.mac mac).holdoffs.find? (fun h => decide (h.pri = pri.val) && decide (h.tx = tx)) with
    | some h =>
      let b := (b.advanceTo h.until_).onMac mac (fun x => { x with holdoffs := x.holdoffs.filter (fun y => !decide (y = h)) })
      let b := b.pauseRegs mac
      if tx then b else b.checkXoff mac pri
    | none => b)

/-! ### Ports and preemption (R448, R459) -/

/-- MAC_STATUS.PREEMPT_ACTIVE (R459). -/
def Block.preemptRegs (b : Block) (m : Nat) : Block :=
  b.rset .MAC_STATUS_PREEMPT_ACTIVE m
    (b2n (b.flag .MAC_PREEMPT_EN m && (b.flag .MAC_PREEMPT_VERIFY_DIS m || (b.mac m).verified)))

/-- Verification starts anew: the first verify mPacket leaves. -/
def Block.startVerify (b : Block) (m : Nat) : Block :=
  let b := b.onMac m (fun x => { x with verifyN := 1, verifyT := b.clk.t, verified := false })
  (b.rset .MAC_STATUS_VERIFY_FAIL m 0).preemptRegs m

/-- Whether verification is under way. -/
def Block.verifying (b : Block) (m : Nat) : Bool :=
  b.flag .MAC_PREEMPT_EN m && !b.flag .MAC_PREEMPT_VERIFY_DIS m && !(b.mac m).verified && !b.flag .MAC_STATUS_VERIFY_FAIL m && b.flag .MAC_STATUS_LINK m

/-- The next verify mPacket leaves. -/
def Block.verifyAgain (b : Block) (mac : Nat) : Block :=
  b.onMac mac (fun x => { x with verifyN := x.verifyN + 1, verifyT := b.clk.t })

/-- VERIFY_TIMEOUT (R459): the next verify mPacket leaves, or after the third VERIFY_FAIL is set. -/
def execVerifyTimeout (mac : Fin 16) (s : State) : Host.Outcome State Fault Refusal :=
  s.run (fun b =>
    if b.verifying mac then
      let x := b.mac mac
      let b := b.advanceTo (x.verifyT + b.rget .MAC_PREEMPT_VERIFY_MS mac * msec)
      if 3 ≤ x.verifyN then (b.rset .MAC_STATUS_VERIFY_FAIL mac 1).preemptRegs mac
      else b.verifyAgain mac
    else b)

/-- A port's link comes up or goes down. A port comes up with its pauses and its verification anew. -/
def Block.portChanged (b : Block) (mac : Nat) (up : Bool) : Block :=
  let b := b.rset .MAC_STATUS_LINK mac (b2n up)
  let b := b.onMac mac (fun x => { x with pauses := [], xoffs := [], occ := if up then x.occ else [], verified := false })
  let b := b.pauseRegs mac
  if up then
    let b := if b.flag .MAC_PREEMPT_EN mac then b.startVerify mac else b.preemptRegs mac
    b.rawSend mac
  else b.preemptRegs mac

/-- PORT_LINK_CHANGE (R447, R448). -/
def execPortLinkChange (mac : Fin 16) (up : Bool) (s : State) : Host.Outcome State Fault Refusal :=
  s.run (fun b =>
    if !b.macUsed mac || decide (b.flag .MAC_STATUS_LINK mac = up) then b else b.portChanged mac up)

/-! ### Receive (R449 to R454, R463, R465) -/

/-- Where the IP header begins, and its version, when a frame carries one. -/
def ipAt (l : List Byte) : Option (Nat × Nat) :=
  let t := typeAt l
  let ty := beField l t 2
  if ty = 0x0800 then some (t + 2, 4) else if ty = 0x86DD then some (t + 2, 6) else none

/-- A UDP datagram in a frame (without options or fragments): where the UDP header begins, ECN bits, whether it is for this MAC's IP
address, whether its checksums hold. -/
structure Udp where
  off : Nat
  ecn : Nat
  mine : Bool
  good : Bool
  deriving DecidableEq, Repr

/-- The UDP datagram of a frame, FCS taken off (R454). -/
def Block.udpOf (b : Block) (m : Nat) (l : List Byte) : Option Udp :=
  match ipAt l with
  | none => none
  | some (o, v) =>
    if v = 4 then
      let n := beField l (o + 20 + 4) 2
      let h := sliceBytes l o 20
      let ps := sliceBytes l (o + 12) 8 ++ beBytes 2 17 ++ beBytes 2 n
      let sum := beField l (o + 26) 2
      if beField l o 1 ≠ 0x45 ∨ beField l (o + 6) 2 % 2 ^ 14 ≠ 0 ∨ beField l (o + 9) 1 ≠ 17 then none
      else some ⟨o + 20, beField l (o + 1) 1 % 4, decide (field l (o + 16) 4 = b.rget .MAC_IP4_ADDR m),
        decide (inetSum h = 0) && (decide (sum = 0) || decide (inetSum (ps ++ sliceBytes l (o + 20) n) = 0))⟩
    else
      let n := beField l (o + 40 + 4) 2
      let ps := sliceBytes l (o + 8) 32 ++ beBytes 4 n ++ beBytes 4 17
      if beField l (o + 6) 1 ≠ 17 then none
      else some ⟨o + 40, beField l o 2 / 16 % 4,
        decide (field l (o + 24) 8 = b.rget .MAC_IP6_ADDR_LO m) && decide (field l (o + 32) 8 = b.rget .MAC_IP6_ADDR_HI m),
        decide (inetSum (ps ++ sliceBytes l (o + 40) n) = 0)⟩

/-- The transport datagram of a frame (R454). -/
def Block.transportOf (b : Block) (m : Nat) (l : List Byte) : Option Udp :=
  match b.udpOf m l with
  | some u =>
    if u.mine ∧ beField l (u.off + 2) 2 = b.rget .MAC_L3_CFG_UDP_PORT m ∧ field l (u.off + 8) 1 / 16 = 1 then some u else none
  | none => none

/-- A transport datagram reaches the transport, or is dropped (R454, R457, R535). -/
def Block.takeDatagram (b : Block) (m : Nat) (l : List Byte) (u : Udp) : Block :=
  if !u.good then b.macCount m false 44 1
  else if field l (u.off + 12) 2 % 2 ^ 14 ≠ b.rank ∨ !b.flag .HOKUKE_STATUS_RANK_VALID then b.macCount m false 32 1
  else
    let b := b.macCount m false 43 1
    if u.ecn = 3 then
      let src := field l (u.off + 10) 2 % 2 ^ 14
      (b.macCount m false 41 1).setPeer src { b.peer src with ecn := true }
    else b

/-- Whether a frame is a PTP event message (R463). -/
def Block.ptpEvent (b : Block) (m : Nat) (l : List Byte) : Bool :=
  (decide (beField l (typeAt l) 2 = 0x88F7) && decide (field l (typeAt l + 2) 1 % 16 ≤ 3)) ||
    (match b.udpOf m l with
     | some u => decide (beField l (u.off + 2) 2 = 319)
     | none => false)

/-- A frame is written to the raw receive queue, with its descriptor last (R464, R465). -/
def Block.rawReceive (b : Block) (m : Nat) (l : List Byte) : Block :=
  let n := b.rget .MAC_RAWRX_TAIL_WRITTEN m
  let size := b.rget .MAC_RAWRX_CFG_SIZE_LOG2 m
  if !b.flag .MAC_RAWRX_CFG_EN m ∨ 2 ^ size ≤ (n + 2 ^ 32 - b.rget .MAC_RAWRX_HEAD_CONSUMED m) % 2 ^ 32 then b.macCount m false 33 1
  else
    let a := rawSlot (b.rget .MAC_RAWRX_BASE_ADDR m) size n
    let loc := b.flag .MAC_RAWRX_BASE_LOC m
    let ts := b.flag .MAC_CFG_TS_ALL m || b.ptpEvent m l
    let t := if ts then adjusted b.clk.g (b.rget .MAC_TS_CFG_RX_ADJ m) else 0
    let d := bytesOf 2 l.length ++ bytesOf 2 (b2n ts) ++ bytesOf 4 n ++ bytesOf 8 (t / 16) ++ bytesOf 1 (t % 16) ++ List.replicate 47 0
    match b.rawWrite loc (a + 64) l with
    | (false, b) => b.macCount m false 33 1
    | (true, b) =>
      match b.rawWrite loc a d with
      | (false, b) => b.macCount m false 33 1
      | (true, b) => (b.macCount m false 42 1).count .MAC_RAWRX_TAIL_WRITTEN m 1

/-- A MAC Control frame is acted on (R460). -/
def Block.takeControl (b : Block) (m : Nat) (l : List Byte) : Block :=
  let op := beField l 14 2
  let mode := b.rget .MAC_FLOW_MODE m
  if op = 1 then
    let b := b.macCount m false 8 1
    if mode = 1 then b.takePause m 0 (beField l 16 2) else b
  else if op = 0x0101 then
    let en := beField l 16 2
    (List.range 8).foldl (fun b p =>
      if bitAt en p then
        let b := b.macCount m false (10 + p) 1
        if mode = 2 ∧ bitAt (b.rget .MAC_FLOW_PFC_EN m) p then b.takePause m p (beField l (18 + 2 * p) 2) else b
      else b) (b.macCount m false 9 1)
  else b

/-- The receive buffer takes a frame of a priority, if it fits (R461). -/
def Block.bufferTake (b : Block) (m pri n drained : Nat) : Block × Bool :=
  let x := b.mac m
  let have_ := Sparse.get (always 0) x.occ pri - drained
  let b := b.onMac m (fun x => { x with occ := Sparse.set (always 0) x.occ pri have_ })
  let all := (b.mac m).occ.foldl (fun n p => n + p.2) 0
  if b.bufferBytes m < all + n then (b.macCount m false 33 1, false)
  else ((b.onMac m (fun x => { x with occ := Sparse.set (always 0) x.occ pri (have_ + n) })).checkXoff m pri, true)

/-- The outcome of a good frame (R450). -/
def Block.classify (b : Block) (m : Nat) (l : List Byte) (drained : Nat) : Block :=
  let body := l.take (l.length - 4)
  if beField l 12 2 = 0x8808 then b.takeControl m l
  else if !b.flag .MAC_CFG_PROMISC m && !b.filterPass m l then b.macCount m false 32 1
  else
    let u := b.transportOf m body
    if u.isNone ∧ !b.flag .MAC_CFG_RAW_EN m then b.macCount m false 32 1
    else
      match b.bufferTake m (b.priOf m l) l.length drained, u with
      | (b, false), _ => b
      | (b, true), some u => b.takeDatagram m body u
      | (b, true), none => b.rawReceive m body

/-- What a received frame counts before its classification, and whether it goes on (R449, R450, R466). -/
def Block.frameCounts (b : Block) (m : Nat) (f : FrameIn) : Block × Bool :=
  let l := f.bytes
  let n := l.length
  let b := (b.macCount m false 34 f.frags).macCount m false 37 f.smdErrs
  if f.asmErr then (b.macCount m false 36 1, false)
  else
    let b := b.macCount m false 35 (b2n (decide (f.frags ≠ 0)))
    let b := ((b.macCount m false 0 n).macCount m false 2 1).perf (macSource m) 0x0D 0 0xFF (ceilDiv n 128)
    let ok := decide (4 ≤ n) && decide (crc32 (l.take (n - 4)) = ofBytes (l.drop (n - 4)))
    if n < 64 then (b.macCount m false (if ok then 29 else 30) 1, false)
    else if 9216 < n then (b.macCount m false 31 1, false)
    else if !ok then (b.macCount m false 28 1, false)
    else (b.countGood m false l, true)

/-- A verify mPacket or its response (R459): the response makes preemption active; a verify mPacket is answered. -/
def Block.takeVerify (b : Block) (m k : Nat) : Block :=
  if k = 2 ∧ b.verifying m then (b.onMac m (fun x => { x with verified := true })).preemptRegs m else b

/-- FRAME_RECEIVE (R449 to R454, R459 to R465): an empty list of bytes is an mPacket without a frame. -/
def execFrameReceive (mac : Fin 16) (f : FrameIn) (s : State) : Host.Outcome State Fault Refusal :=
  s.run (fun b =>
    if !b.macUsed mac || !b.flag .MAC_STATUS_LINK mac || !b.flag .MAC_CFG_RX_EN mac then b
    else
      let b := b.takeVerify mac f.verify
      if f.bytes = [] ∧ !f.asmErr then b
      else
        let r := b.frameCounts mac f
        if r.2 then r.1.classify mac f.bytes f.drained else r.1)

/-- The rate toward a rank rises by RC_INC, up to the port's. -/
def Block.rateUp (b : Block) (mac : Nat) (r : Rate) : Block :=
  let y : Rate := ⟨r.rank, min (b.portRate mac) (r.rate + b.rget .MAC_RC_CFG_RC_INC mac), r.decT, b.clk.t⟩
  b.onMac mac (fun x => { x with rates := x.rates.map (fun z => if z.rank = r.rank then y else z) })

/-- RATE_INCREASE (R457): RC_INC_US since the last change. -/
def execRateIncrease (mac : Fin 16) (rank : Nat) (s : State) : Host.Outcome State Fault Refusal :=
  s.run (fun b =>
    match (b.mac mac).rates.find? (fun r => decide (r.rank = rank)) with
    | some r => (b.advanceTo (r.incT + b.rget .MAC_RC_CFG_RC_INC_US mac * usec)).rateUp mac r
    | none => b)

/-! ### MAC_FILTER_SET and STATS_READ (R452, R467, R469) -/

/-- MAC_FILTER_SET at its start: one commit of every entry or word. -/
def filterCmd (c : Cmd) (p : FilterParams) : Act (Nat × Nat × Nat) := do
  let b ← get
  if c.ctx ≠ 0 ∨ 15 < p.mac ∨ !b.macUsed p.mac ∨ 1 < p.table ∨ p.count = 0 ∨ 64 < p.first + p.count then rangeErr
  else
    let bs ← readVa (c.req 0 0) p.srcVa (8 * p.count)
    let es := (List.range p.count).map (fun i => (p.mac * 64 + p.first + i, field bs (8 * i) 8))
    if p.table = 0 ∧ es.any (fun x => bitAt x.2 48 && bitAt x.2 0) then rangeErr
    else if p.table = 0 then
      act (fun b => es.foldl (fun b x => (b.rset .MAC_UC_ADDR x.1 x.2).rset .MAC_UC_VALID x.1 (bits x.2 48 1)) b)
    else act (fun b => es.foldl (fun b x => b.rset .MAC_HASH_BITS x.1 x.2) b)
    return (0, 0, halves p.count 0)

def execMacFilterSet (id : Nat) (p : FilterParams) (s : State) : Host.Outcome State Fault Refusal :=
  s.run (fun b => b.runCmd id (.macFilterSet p) always2 (fun c b => b.conclude id (0x0100, 0) (filterCmd c p)))

/-- The 728 bytes of STATS_READ (R467). -/
def Block.statsBytes (b : Block) (m : Nat) : List Byte :=
  (List.range 45).flatMap (fun k => bytesOf 8 (b.rget .MAC_RX_COUNT (m * 45 + k))) ++
    (List.range 45).flatMap (fun k => bytesOf 8 (b.rget .MAC_TX_COUNT (m * 45 + k))) ++ bytesOf 8 b.now

/-- A STATS_READ's copy of the statistics of a port. -/
def statsCopy (c : Cmd) (p : StatsParams) : Act (Nat × Nat × Nat) := do
  let b ← get
  if c.ctx ≠ 0 ∨ 15 < p.mac ∨ !b.macUsed p.mac then rangeErr
  else
    writeVa (c.req 0 0) p.destVa (b.statsBytes p.mac)
    return (0, 0, halves 728 0)

/-- STATS_READ (R467, R469). -/
def execStatsRead (id : Nat) (p : StatsParams) (s : State) : Host.Outcome State Fault Refusal :=
  s.run (fun b => b.runCmd id (.statsRead p) always2 (fun c b => b.conclude id (0x0100, 0) (statsCopy c p)))

end Sys2Proof.Machine
end

