-- ==== Sys2Proof/Machine/Remount.lean ====
section
/-! DEFINITION. REMOUNT_PREPARE: ADOPT and FORGET (R506, R507, R512). -/

namespace Sys2Proof.Machine

/-- Whether ADOPT is refused (R506): a group or a lend is defined, or a SEND or RECV_POST is in progress. -/
def Block.remountBusy (b : Block) : Bool :=
  b.relay.groups.any (fun p => p.2.isSome) || !b.drover.lends.isEmpty ||
  (List.range 16).any (fun i => b.flag .DROVER_BORROW_VALID i) ||
  b.cmds.any (fun (c : Cmd) => decide (c.opcode = 0x0801 ∨ c.opcode = 0x0802) && decide (c.phase = .running))

/-- ADOPT's effects: rank, routing entry, links, sequence numbers. -/
def Block.adoptRank (b : Block) (r : Nat) : Block :=
  let b := if b.flag .HOKUKE_STATUS_RANK_VALID then b.rset .HOKUKE_ROUTE_ENTRY b.rank 0 else b
  let b := (b.rset .HOKUKE_STATUS_RANK 0 r).rset .HOKUKE_STATUS_RANK_VALID 0 1
  let b := b.rset .HOKUKE_ROUTE_ENTRY r (0xE + 2 ^ 20)
  let b := (List.range 8).foldl (fun b n =>
    if b.mayTrain n && (decide (b.linkState n ≠ 0) || (b.link n).light) then b.enterTrain n else b) b
  { b with net := { b.net with flights := [], inbound := [], peers := [] } }

/-- ADOPT (R506, R512). -/
def execAdopt (id : Nat) (p : RemountParams) (s : State) : Host.Outcome State Fault Refusal :=
  s.run (fun b => b.runCmd id (.remountPrepare p) (fun _ _ => decide (p.role ≠ 1)) (fun c b =>
    if c.ctx ≠ 0 ∨ 1 < p.role then b.finish id 0x0100 0 0
    else if b.remountBusy then b.finish id 0x7004 0 0
    else
      let old := if b.flag .HOKUKE_STATUS_RANK_VALID then b.rank else 0xFFFFFFFF
      (b.adoptRank p.rank).finish id 0 0 (halves old 0)))

/-- The member of a collective that has rank `r`, if the collective awaits it: it owes data, credit or a PERMUTE's report. -/
def Block.awaitsRank (b : Block) (x : Coll) (r : Nat) : Option Nat :=
  x.others.find? (fun i => decide (x.ranks.getD i 0 = r) &&
    ((b.awaited x).contains i || x.outq.any (fun u => decide (u.dst = i)) ||
      (decide (x.op = 0x0407) && (!x.drained.contains i || (decide (3 ≤ x.phase) && !x.moved.contains i)))))

/-- Collectives that await a rank end with PEER_TIMEOUT; how many. -/
def Block.endAwaiting (b : Block) (r : Nat) : Block × Nat :=
  b.relay.colls.foldl (fun a x =>
    match a.1.awaitsRank x r with
    | some i =>
      if !a.1.collRuns x then a
      else
        match x.cmd.bind a.1.findCmd with
        | some c => (if x.op / 256 = 2 then (a.1.beaterTimeout x c).beaterRegs else a.1.endColl x.tag 0x4003 i 0, a.2 + 1)
        | none => a
    | none => a) (b, 0)

/-- Messages to and from a rank end under R440; how many. -/
def Block.endMessages (b : Block) (r : Nat) : Block × Nat :=
  let out := b.net.flights.filter (fun f => decide (f.out.dst = r))
  let inn := b.net.inbound.filter (fun x => decide (x.src = r))
  let b := out.foldl (fun b f => b.flightFails f) b
  let b := { b with net := { b.net with inbound := b.net.inbound.filter (fun x => !decide (x.src = r)) } }
  let b := inn.foldl (fun b x => match x.cmd with
    | some id => b.finish id 0x8001 0 (halves x.got r)
    | none => b) b
  (b, out.length + inn.length)

/-- Lends to and from a rank end, their grace having run out; how many of a lend's pages the borrower had still in use is open
(free). -/
def Block.endLends (b : Block) (r : Nat) : Block :=
  let b := (b.drover.lends.filter (fun l => decide (l.rank = r))).foldl (fun b l =>
    let u := b.use
    u.2.endLend l (Config.freeNat u.1 % (l.pages.length + 1))) b
  (List.range 16).foldl (fun b i => if b.flag .DROVER_BORROW_VALID i ∧ b.rget .DROVER_BORROW_RANK i = r then b.endBorrow i else b) b

/-- A rank is forgotten (R507): what awaits it ends, with its messages and lends, and its sequence numbers start again; how many
messages and how many collectives ended. -/
def Block.forgetRank (b : Block) (r : Nat) : Block × Nat × Nat :=
  let x := b.endAwaiting r
  let y := x.1.endMessages r
  let b := y.1
  let b := { b with relay := { b.relay with pending := b.relay.pending.filter (fun q => !decide (q.1 = r)) } }
  ((b.endLends r).setPeer r Peer.init, y.2, x.2)

/-- FORGET (R507, R512). -/
def execForget (id : Nat) (p : RemountParams) (s : State) : Host.Outcome State Fault Refusal :=
  s.run (fun b => b.runCmd id (.remountPrepare p) (fun _ _ => decide (p.role = 1)) (fun c b =>
    if c.ctx ≠ 0 ∨ (b.flag .HOKUKE_STATUS_RANK_VALID ∧ p.rank = b.rank) then b.finish id 0x0100 0 0
    else
      let r := b.forgetRank p.rank
      r.1.finish id 0 0 (halves r.2.1 r.2.2)))

end Sys2Proof.Machine
end

