-- ==== Sys2Proof/Machine/Trace.lean ====
section
/-! DEFINITION. Trace control, the writing of quires (R525 to R532), global time (R523) and the clearing of performance
counters (R518). -/

namespace Sys2Proof.Machine

/-- The 32 bytes of a trace record (R525). -/
def TraceRec.encode (r : TraceRec) : List Byte :=
  bytesOf 8 r.time ++ bytesOf 2 (r.source % 2 ^ 10) ++ bytesOf 1 r.kind ++ bytesOf 1 (r.rank % 16 + r.ctx % 16 * 16) ++
    bytesOf 4 r.a ++ bytesOf 8 r.b ++ bytesOf 8 r.c

/-- The 2,048 bytes of a quire, its QUIRE record first (R525, R526). -/
def Quire.encode (q : Quire) (now : Nat) : List Byte :=
  (TraceRec.mk now 0x080 0 8 15 (q.num % 2 ^ 32) (q.drops % 2 ^ 64) ((q.recs.head?.map (fun r => r.time)).getD 0)).encode ++
    q.recs.flatMap TraceRec.encode

/-- A TRACE_CONTROL command ends: its record holds WRITTEN (R532). -/
def Block.traceEnd (b : Block) (id status : Nat) : Block := b.finish id status 0 (b.rget .TRACE_STATUS_WRITTEN)

/-- Capture begins (R532). -/
def Block.traceBegin (b : Block) : Block :=
  let b := (b.rset .TRACE_STATUS_RUNNING 0 1).rset .TRACE_STATUS_TRIGGERED 0 0
  let b := ((b.rset .TRACE_STATUS_WRITTEN 0 0).rset .TRACE_STATUS_TRIG_QUIRE 0 0).rset .TRACE_STATUS_WRAPS 0 0
  let b := b.rset .TRACE_DROPPED_DROPPED 0 0
  { b with trace := { b.trace with opened := [], staged := [], next := 0, episode := none, stopAfter := none, held := [],
                                   tickRecs := 0, entered := false } }

/-- A TRACE_CONTROL operation that only context 0 may order (R532). -/
def Block.traceOp (b : Block) (id : Nat) (p : TraceParams) (ok : Bool) (go : Block → Block × Nat) : Block :=
  b.runCmd id (.traceControl p) (fun _ _ => ok) (fun c b =>
    if c.ctx ≠ 0 then b.traceEnd id 0x0100
    else
      let r := go b
      r.1.traceEnd id r.2)

/-- TRACE_START (R532); an operation code above 4 is a reserved value (R8). -/
def execTraceStart (id : Nat) (p : TraceParams) (s : State) : Host.Outcome State Fault Refusal :=
  s.run (fun b => b.traceOp id p (decide (p.op = 0 ∨ 4 < p.op)) (fun b =>
    if 4 < p.op then (b, 0x0100)
    else if b.rget .TRACE_BUF_CFG_SIZE = 0 then (b, 0x7006)
    else if b.flag .TRACE_STATUS_RUNNING then (b, 0)
    else (b.traceBegin, 0)))

/-- TRACE_STOP (R531, R532). -/
def execTraceStop (id : Nat) (p : TraceParams) (s : State) : Host.Outcome State Fault Refusal :=
  s.run (fun b => b.traceOp id p (decide (p.op = 1)) (fun b => (b.traceSettle.traceHalt, 0)))

/-- TRACE_TRIGGER (R530). -/
def execTraceTrigger (id : Nat) (p : TraceParams) (s : State) : Host.Outcome State Fault Refusal :=
  s.run (fun b => b.traceOp id p (decide (p.op = 2)) (fun b => (b.trigger 1, 0)))

/-- TRACE_MARK (R526), from every context. -/
def execTraceMark (id : Nat) (p : TraceParams) (s : State) : Host.Outcome State Fault Refusal :=
  s.run (fun b => b.runCmd id (.traceControl p) (fun _ _ => decide (p.op = 3)) (fun c b =>
    (b.traceRec 0x058 7 6 c.ctx p.marker p.value 0).traceEnd id 0))

/-- TRACE_FLUSH (R529): the open quire is filled and goes to the buffer. -/
def execTraceFlush (id : Nat) (p : TraceParams) (s : State) : Host.Outcome State Fault Refusal :=
  s.run (fun b => b.traceOp id p (decide (p.op = 4)) (fun b => (b.traceSettle.traceFlush, 0)))

/-- The counts of a written quire (R531, R532). -/
def Block.quireDone (b : Block) (q : Quire) : Block :=
  let b := b.count .TRACE_STATUS_WRITTEN 0 1
  if b.rget .TRACE_BUF_CFG_SIZE ≤ q.num then b.countSat .TRACE_STATUS_WRAPS 0 1 else b

/-- Who writes quires to device memory: the trace unit, with the STREAM hint (R529). -/
def quireReq : Req := { who := ⟨0x080, 0, none, none⟩, hint := 1 }

/-- QUIRE_WRITE (R529, R531): the oldest staged quire is written to its slot, through the Hitch or through the Vat with the
STREAM hint. In a cut a buffer in host memory waits; an access that fails ends with an access error, and the quire is not
written. -/
def execQuireWrite (s : State) : Host.Outcome State Fault Refusal :=
  s.run (fun b =>
    match b.trace.staged with
    | [] => b
    | q :: rest =>
      let size := b.rget .TRACE_BUF_CFG_SIZE
      let a := b.rget .TRACE_BUF_BASE_ADDR * 4096 + q.num % size * 2048
      let b' := { b with trace := { b.trace with staged := rest } }
      if size = 0 then b
      else if b.flag .TRACE_BUF_BASE_LOC then
        if b.cutActive then b else (b'.hostWrite a (q.encode b.now)).quireDone q
      else
        match writeVa quireReq a (q.encode b.now) b' with
        | (.ok _, b) => b.quireDone q
        | (.error _, b) => b.accessError 0x080 none 0 a 0)

/-- TRACE_CTL_TRIGGER (R530): a write of TRACE_CTL with TRIGGER set. -/
def execTraceCtlTrigger (s : State) : Host.Outcome State Fault Refusal :=
  s.run (fun b => b.barWrite 0x1800020 (fun b => b.trigger 2))

/-- A step of global time (R523): it takes effect from the next tick, and the TIME_STEP record is written (R526). -/
def Block.gtimeStep (b : Block) (step : BitVec 64) : Block :=
  let b := { b with clk := { b.clk with step := b.clk.step + step.toInt } }
  b.traceRec 0x080 8 7 15 0 step.toNat (b.now + step.toNat)

/-- GTIME_STEP. -/
def execGtimeStep (step : BitVec 64) (s : State) : Host.Outcome State Fault Refusal :=
  s.run (fun b => b.barWrite 0x1800108 (fun b => b.gtimeStep step))

/-- Performance counters cleared by their bits (R518). -/
def Block.perfClear (b : Block) (v : Nat) : Block := (setPositions 64 v).foldl (fun b k => b.rset .PERF_CTR_COUNT k 0) b

/-- PERF_CTL_CLEAR (R518). -/
def execPerfCtlClear (clear : BitVec 64) (s : State) : Host.Outcome State Fault Refusal :=
  s.run (fun b => b.barWrite 0x1801600 (fun b => b.perfClear clear.toNat))

end Sys2Proof.Machine
end

