-- ==== Sys2Proof/Machine/VxScalar.lean ====
section
/-! DEFINITION. The control, scalar and memory instructions of VX (chapter 06). -/

namespace Sys2Proof.Machine

/-- A branch target: a value modulo 2^13. -/
def vxTarget (v : BitVec 64) : Nat := v.toNat % 8192

/-- A taken branch or JMP costs two further cycles (R170). -/
def Vx.jump (x : Vx) (t : Nat) : Vx := { x with pc := t, cyc := x.cyc + 2 }

/-- A conditional branch on S[D] and S[B], to IMM (or S0 + IMM). -/
def vxBranch (f : VxFields) (cond : BitVec 64 → BitVec 64 → Bool) (x : Vx) : Vx :=
  if cond (x.sreg f.rd) (x.sreg f.rb) then x.jump (vxTarget f.imm64) else x

/-- A scalar operation on S[A] and S[B]. -/
def vxScalar (f : VxFields) (g : BitVec 64 → BitVec 64 → BitVec 64) (x : Vx) : Vx :=
  x.setS f.rd (g (x.sreg f.ra) (x.sreg f.rb))

/-- NOP. -/
def execVxNop (tile : Fin 64) (f : VxFields) (s : State) : Host.Outcome State Fault Refusal :=
  s.vx tile 0x00 f 0 (vxPure id)

/-- The cycle at which a HALT ends: every earlier instruction has completed. -/
def Vx.haltEnd (x : Vx) : Nat := max x.cyc (max x.laneFree (max x.portFree x.done))

/-- Whether the HALT that a kernel reaches would end past MAX_CYCLES. -/
def Block.haltLate (b : Block) (n : Nat) : Bool :=
  match b.kernel n with
  | some (_, p) =>
    let x := (b.tile n).vx
    decide (p.maxCycles ≠ 0 ∧ p.maxCycles < ({ x with cyc := x.cyc + 1 } : Vx).haltEnd)
  | none => false

/-- HALT (R184, R195). -/
def execHalt (tile : Fin 64) (f : VxFields) (s : State) : Host.Outcome State Fault Refusal :=
  s.run (fun b =>
    if b.haltLate tile then b
    else b.vxRow tile 0x01 f 0 (fun _ _ x _ =>
      .error (.status 0 0 (f.immU % 2 ^ 16 + (b2n x.special + 2 * b2n x.replayed) * 2 ^ 16 + min 0xFFFFFFFF x.haltEnd * 2 ^ 32))))

/-- JMP. -/
def execJmp (tile : Fin 64) (f : VxFields) (s : State) : Host.Outcome State Fault Refusal :=
  s.vx tile 0x02 f 0 (vxPure (fun x => x.jump (vxTarget (x.sreg f.ra + f.imm64))))

/-- BEQ. -/
def execBeq (tile : Fin 64) (f : VxFields) (s : State) : Host.Outcome State Fault Refusal :=
  s.vx tile 0x03 f 0 (vxPure (vxBranch f (fun a b => decide (a = b))))

/-- BNE. -/
def execBne (tile : Fin 64) (f : VxFields) (s : State) : Host.Outcome State Fault Refusal :=
  s.vx tile 0x04 f 0 (vxPure (vxBranch f (fun a b => decide (a ≠ b))))

/-- BLT. -/
def execBlt (tile : Fin 64) (f : VxFields) (s : State) : Host.Outcome State Fault Refusal :=
  s.vx tile 0x05 f 0 (vxPure (vxBranch f (fun a b => a.slt b)))

/-- BLTU. -/
def execBltu (tile : Fin 64) (f : VxFields) (s : State) : Host.Outcome State Fault Refusal :=
  s.vx tile 0x06 f 0 (vxPure (vxBranch f (fun a b => a.ult b)))

/-- LOOP: a taken one costs no further cycle (R170). -/
def execLoop (tile : Fin 64) (f : VxFields) (s : State) : Host.Outcome State Fault Refusal :=
  s.vx tile 0x07 f 0 (vxPure (fun x =>
    let y := x.setS f.rd (x.sreg f.rd - 1)
    if y.sreg f.rd ≠ 0 then { y with pc := vxTarget f.imm64 } else y))

/-- SETVL. -/
def execSetvl (tile : Fin 64) (f : VxFields) (s : State) : Host.Outcome State Fault Refusal :=
  s.vx tile 0x08 f 0 (vxPure (fun x =>
    let v := min (x.sreg f.ra).toNat 512
    { x.setS f.rd (BitVec.ofNat 64 v) with vl := v }))

/-- SADD. -/
def execSadd (tile : Fin 64) (f : VxFields) (s : State) : Host.Outcome State Fault Refusal :=
  s.vx tile 0x10 f 0 (vxPure (vxScalar f (fun a b => a + b)))

/-- SSUB. -/
def execSsub (tile : Fin 64) (f : VxFields) (s : State) : Host.Outcome State Fault Refusal :=
  s.vx tile 0x11 f 0 (vxPure (vxScalar f (fun a b => a - b)))

/-- SMUL. -/
def execSmul (tile : Fin 64) (f : VxFields) (s : State) : Host.Outcome State Fault Refusal :=
  s.vx tile 0x12 f 0 (vxPure (vxScalar f (fun a b => a * b)))

/-- SAND. -/
def execSand (tile : Fin 64) (f : VxFields) (s : State) : Host.Outcome State Fault Refusal :=
  s.vx tile 0x13 f 0 (vxPure (vxScalar f (fun a b => a &&& b)))

/-- SSHL: by bits [5:0] of S[B]. -/
def execSshl (tile : Fin 64) (f : VxFields) (s : State) : Host.Outcome State Fault Refusal :=
  s.vx tile 0x14 f 0 (vxPure (vxScalar f (fun a b => a <<< (b.toNat % 64))))

/-- SSHR. -/
def execSshr (tile : Fin 64) (f : VxFields) (s : State) : Host.Outcome State Fault Refusal :=
  s.vx tile 0x15 f 0 (vxPure (vxScalar f (fun a b => a >>> (b.toNat % 64))))

/-- SSRA. -/
def execSsra (tile : Fin 64) (f : VxFields) (s : State) : Host.Outcome State Fault Refusal :=
  s.vx tile 0x16 f 0 (vxPure (vxScalar f (fun a b => a.sshiftRight (b.toNat % 64))))

/-- SADDI. -/
def execSaddi (tile : Fin 64) (f : VxFields) (s : State) : Host.Outcome State Fault Refusal :=
  s.vx tile 0x17 f 0 (vxPure (fun x => x.setS f.rd (x.sreg f.ra + f.imm64)))

/-- SLI. -/
def execSli (tile : Fin 64) (f : VxFields) (s : State) : Host.Outcome State Fault Refusal :=
  s.vx tile 0x18 f 0 (vxPure (fun x => x.setS f.rd f.imm64))

/-- SLUI. -/
def execSlui (tile : Fin 64) (f : VxFields) (s : State) : Host.Outcome State Fault Refusal :=
  s.vx tile 0x19 f 0 (vxPure (fun x => x.setS f.rd ((x.sreg f.rd <<< 24) ||| f.imm.zeroExtend 64)))

/-- SMOVV. -/
def execSmovv (tile : Fin 64) (f : VxFields) (s : State) : Host.Outcome State Fault Refusal :=
  s.vx tile 0x1A f 0 (vxPure (fun x => x.setS f.rd (BitVec.ofNat 64 (x.word f.ra (f.immU % 512)))))

/-! ### Memory -/

/-- Whether an access of `n` bytes at `a` lies in a window; one with LO above HI is empty (R181). -/
def inWindow (lo hi a n : Nat) : Bool := decide (lo ≤ hi ∧ lo ≤ a ∧ a + n ≤ hi + 1)

/-- Whether a kernel may access `n` bytes at `a` (R171). -/
def vxMay (p : VkernParams) (a n : Nat) (write : Bool) : Bool :=
  inWindow p.wrLo p.wrHi a n || (!write && inWindow p.rdLo p.rdHi a n)

/-- Why an access at `a` ends the kernel, if it does: VX_BOUNDS with its PC, bit 15 for a misaligned one (R171, R194). -/
def vxBad (p : VkernParams) (pc a n : Nat) (write : Bool) : Option VxStop :=
  if a % n ≠ 0 then some (.status 0x1006 (pc + 0x8000) (a % 2 ^ 32))
  else if vxMay p a n write then none
  else some (.status 0x1006 pc (a % 2 ^ 32))

/-- The address x = S[A] + IMM. -/
def Vx.addr (x : Vx) (f : VxFields) : BitVec 64 := x.sreg f.ra + f.imm64

/-- The addresses of the words of a vector access below VL, from the address of word `w`. -/
def Vx.addrs (x : Vx) (at_ : Nat → BitVec 64) : List Nat := (List.range x.vl).map (fun w => (at_ w).toNat)

/-- Consecutive words. -/
def Vx.seqAddrs (x : Vx) (f : VxFields) : List Nat := x.addrs (fun w => x.addr f + BitVec.ofNat 64 (4 * w))
/-- Words S[B] apart. -/
def Vx.strideAddrs (x : Vx) (f : VxFields) : List Nat := x.addrs (fun w => x.addr f + BitVec.ofNat 64 w * x.sreg f.rb)
/-- Words at unsigned byte offsets from V[B]. -/
def Vx.indexAddrs (x : Vx) (f : VxFields) : List Nat := x.addrs (fun w => x.addr f + BitVec.ofNat 64 (x.word f.rb w))

/-- The port cycles of an indexed or strided access: per cycle each bank serves the words of one of its 128-byte lines. -/
def bankCycles (as : List Nat) : Nat :=
  let lines := (as.map (· / 128)).eraseDups
  (lines.map (fun l => (lines.filter (fun k => decide (k % 32 = l % 32))).length)).foldl max 0

/-- The port is taken for `n` cycles; the access has completed 8 cycles after its last word. -/
def Vx.takePort (x : Vx) (n : Nat) (dest : Option Nat) : Vx :=
  let t := x.cyc - 1
  let d := t + n + 7
  { x with
    portFree := t + n
    done := max x.done d
    ready := match dest with
      | some k => Sparse.set (always 0) x.ready k (max (Sparse.get (always 0) x.ready k) d)
      | none => x.ready }

/-- The first address that ends the kernel. -/
def vxFirstBad (p : VkernParams) (pc n : Nat) (write : Bool) (as : List Nat) : Option VxStop := as.findSome? (fun a => vxBad p pc a n write)

/-- The parity error that a read meets. -/
def vxParity (as : List Nat) (n : Nat) (par : Option Nat) : Option VxStop :=
  par.bind (fun q => if as.any (fun a => decide (a ≤ q ∧ q < a + n)) then some (.parity q) else none)

/-- A vector load from the addresses of its words (R155, R169, R171). -/
def vxLoad (f : VxFields) (par : Option Nat) (cycles : List Nat → Nat) (as : Vx → List Nat) : VxBody := fun c p x b =>
  let l := as x
  match vxFirstBad p (x.pc - 1) 4 false l, vxParity l 4 par with
  | some e, _ => .error e
  | none, some e => .error e
  | none, none =>
    let st := (b.tile c.tile).store
    .ok ((x.setElems f.rd 7 0 (l.map (fun a => st.readNat a 4))).takePort (cycles l) (some f.rd), b)

/-- The words of V[D] go to their addresses in order, so that the highest of two with one address is written (R172). -/
def vxStoreWords (x : Vx) (d : Nat) : Nat → List Nat → Memory → Memory
  | _, [], m => m
  | w, a :: as, m => vxStoreWords x d (w + 1) as (m.writeNat a 4 (x.word d w))

/-- A vector store. -/
def vxStore (f : VxFields) (cycles : List Nat → Nat) (as : Vx → List Nat) : VxBody := fun c p x b =>
  let l := as x
  match vxFirstBad p (x.pc - 1) 4 true l with
  | some e => .error e
  | none =>
    .ok (x.takePort (cycles l) none, b.onTile c.tile (fun t => { t with store := vxStoreWords x f.rd 0 l t.store }))

/-- VLD and VST take the port for 2 cycles. -/
def portTwo : List Nat → Nat := fun _ => 2

/-- VLD. -/
def execVld (tile : Fin 64) (f : VxFields) (par : Option Nat) (s : State) : Host.Outcome State Fault Refusal :=
  s.vx tile 0x30 f 0 (vxLoad f par portTwo (fun x => x.seqAddrs f))

/-- VST. -/
def execVst (tile : Fin 64) (f : VxFields) (s : State) : Host.Outcome State Fault Refusal :=
  s.vx tile 0x31 f 0 (vxStore f portTwo (fun x => x.seqAddrs f))

/-- VLDS. -/
def execVlds (tile : Fin 64) (f : VxFields) (par : Option Nat) (s : State) : Host.Outcome State Fault Refusal :=
  s.vx tile 0x32 f 0 (vxLoad f par bankCycles (fun x => x.strideAddrs f))

/-- VSTS. -/
def execVsts (tile : Fin 64) (f : VxFields) (s : State) : Host.Outcome State Fault Refusal :=
  s.vx tile 0x33 f 0 (vxStore f bankCycles (fun x => x.strideAddrs f))

/-- VLDX. -/
def execVldx (tile : Fin 64) (f : VxFields) (par : Option Nat) (s : State) : Host.Outcome State Fault Refusal :=
  s.vx tile 0x34 f 0 (vxLoad f par bankCycles (fun x => x.indexAddrs f))

/-- VSTX. -/
def execVstx (tile : Fin 64) (f : VxFields) (s : State) : Host.Outcome State Fault Refusal :=
  s.vx tile 0x35 f 0 (vxStore f bankCycles (fun x => x.indexAddrs f))

/-- SLD. -/
def execSld (tile : Fin 64) (f : VxFields) (par : Option Nat) (s : State) : Host.Outcome State Fault Refusal :=
  s.vx tile 0x36 f 0 (fun c p x b =>
    let a := (x.addr f).toNat
    match vxBad p (x.pc - 1) a 8 false, vxParity [a] 8 par with
    | some e, _ => .error e
    | none, some e => .error e
    | none, none => .ok (x.setS f.rd (BitVec.ofNat 64 ((b.tile c.tile).store.readNat a 8)), b))

/-- SST. -/
def execSst (tile : Fin 64) (f : VxFields) (s : State) : Host.Outcome State Fault Refusal :=
  s.vx tile 0x37 f 0 (fun c p x b =>
    let a := (x.addr f).toNat
    match vxBad p (x.pc - 1) a 8 true with
    | some e => .error e
    | none => .ok (x, b.onTile c.tile (fun t => { t with store := t.store.writeNat a 8 (x.sreg f.rd).toNat })))

end Sys2Proof.Machine
end

