-- ==== Sys2Proof/Machine/VxRun.lean ====
section
/-! DEFINITION. Loading, launching, stopping and replaying kernels (R181 to R184, R190 to R194), service bursts (R185 to R188,
R193), TILE_VX_CFG (R189). -/

namespace Sys2Proof.Machine

/-- The engine at the start of execution (R183): vector registers, instruction memory and service work stay. -/
def Vx.start (x : Vx) (id : Nat) (p : VkernParams) (base : Nat) (replay : Option Nat) : Vx :=
  { x with
    cmd := some id
    s := (List.range p.nargs).foldl (fun m i => Sparse.set (always 0) m (i + 1) (BitVec.ofNat 64 (p.args.getD i 0))) []
    vl := 512, pc := p.entry, special := false, replayed := replay.isSome, det := replay, sat := 0, ufl := 0
    busy := if replay.isSome then x.busy else 0
    cyc := 0, laneFree := 0, portFree := 0, done := 0, ready := [], base := base }

/-- Code words into instruction memory from word `i`. -/
def loadImem (m : Sparse (BitVec 64)) (bs : List Byte) : Nat → Nat → Nat → Sparse (BitVec 64)
  | 0, _, _ => m
  | k + 1, i, o => loadImem (Sparse.set (always 0) m i (BitVec.ofNat 64 (field bs o 8))) bs k (i + 1) (o + 8)

/-- The code load (R182): it reads the code through the tile's port with the STREAM hint, and writes its words. -/
def codeLoad (c : Cmd) (p : VkernParams) : Act Unit := do
  if p.codeWords ≠ 0 then
    let bs ← readVa (c.port 1 0) p.codeVa (8 * p.codeWords)
    act (fun b => b.onTile c.tile (fun t => { t with vx := { t.vx with imem := loadImem t.vx.imem bs p.codeWords p.imemAddr 0 } }))

/-- The tile's cycle count at a time, modulo 8: 2.5 GHz. -/
def tileCycle (t : Nat) : Nat := t * 10 / 64 % 8

/-- A kernel begins at ENTRY, or begins again after a detection at time `replay`. -/
def Block.vxBegin (b : Block) (c : Cmd) (p : VkernParams) (replay : Option Nat) : Block :=
  match codeLoad c p |>.run b with
  | (.ok _, b) => (b.setVx c.tile ((b.tile c.tile).vx.start c.id p (tileCycle b.clk.t) replay)).vxSettle c.tile
  | (.error x, b) =>
    let b := if replay.isSome then (b.vxAbsorbed c 0x1003).vxOver c else b
    b.tileConclude c.id (throw x)

/-- VKERN (R181 to R183). -/
def execVkern (id : Nat) (p : VkernParams) (s : State) : Host.Outcome State Fault Refusal :=
  s.run (fun b => b.tileCmd id (.vkern p) (fun c b =>
    (if p.resetBusy then b.rset .TILE_VEC_BUSY_COUNT c.tile 0 else b).vxBegin c p none))

/-- The form and fields of the word that a kernel reaches next. -/
def Vx.next (x : Vx) : VxForm × VxFields :=
  let w := Sparse.get (always 0) x.imem x.pc
  (vxForm (vxOpcode w) (vxDecode w), vxDecode w)

/-- VX_TIMEOUT (R184, R194): the next instruction would issue at or past MAX_CYCLES. -/
def execVxTimeout (tile : Fin 64) (stall : Nat) (s : State) : Host.Outcome State Fault Refusal :=
  s.run (fun b =>
    match b.kernel tile with
    | some (c, p) =>
      let x := (b.tile tile).vx
      let m := x.next
      let t := if m.1.legal m.2 then
          (x.issueAt m.1 m.2 (b.rget .TILE_VX_CFG_SHARE tile) (if b.flag .CURB_STATUS_VGAP && !x.replayed then stall else 0)).1
        else x.cyc
      if pastMax p t ∨ (m.1.op = 0x01 ∧ b.haltLate tile) then
        (b.advanceTo (c.startT + ceilDiv (p.maxCycles * 32) 5)).vxEnd c 0x1008 x.pc (p.maxCycles % 2 ^ 32 * 2 ^ 32)
      else b
    | none => b)

/-- Whether a kernel is replayable (R190). -/
def replayable (p : VkernParams) : Bool :=
  !p.vregIn && !(decide (p.rdLo ≤ p.rdHi ∧ p.wrLo ≤ p.wrHi ∧ p.rdLo ≤ p.wrHi ∧ p.wrLo ≤ p.rdHi))

/-- A tile-store range whose contents are undefined. -/
def Block.tsUndefined (b : Block) (n lo hi : Nat) : Block :=
  if hi < lo then b
  else
    let r := b.freeBytes (hi + 1 - lo)
    r.2.tsWrite n lo r.1

/-- A detection ends the kernel with LOST_DATA or VX_PERSISTENT (R191, R192). -/
def Block.vxLost (b : Block) (c : Cmd) (status detail engine : Nat) (det : Nat) : Block :=
  let b := (b.errLog (vxEntry c 1 status b.now (some det))).perf c.tile 0x0C 0 c.ctx 1
  (b.vxOver c).finish c.id status detail engine

/-- VX_DETECTION (R191, R192): `imem` for an instruction-memory parity error. -/
def execVxDetection (tile : Fin 64) (imem : Bool) (s : State) : Host.Outcome State Fault Refusal :=
  s.run (fun b =>
    match b.kernel tile with
    | some (c, p) =>
      let b := b.count .TILE_VX_DETECT_COUNT tile 1
      let x := (b.tile tile).vx
      let t := x.det.getD b.now
      if imem && decide (p.codeWords = 0) then b.vxLost c 0x0300 2 0 t
      else if !replayable p then (b.tsUndefined tile p.wrLo p.wrHi).vxLost c 0x0300 1 0 t
      else if x.replayed then
        let b := b.vxLost c 0x1009 x.pc (min 0xFFFFFFFF x.cyc * 2 ^ 32) t
        b.updCmd c.id (fun c => { c with detTile := some tile.val })
      else
        let b := b.count .TILE_VX_REPLAYS_COUNT tile 1
        let y := if imem then p else { p with codeWords := 0 }
        (b.vxBegin c y (some b.now))
    | none => b)

/-- SERVICE_BURST (R185 to R187, R193): `cycles` lane cycles of work with `data` as its operands; `det` when a detection makes
the tile run it again. A kernel that runs shares the lanes; otherwise the burst has every cycle. -/
def execServiceBurst (tile : Fin 64) (cycles : Nat) (data : List (BitVec 8)) (det : Bool) (s : State) :
    Host.Outcome State Fault Refusal :=
  s.run (fun b =>
    if b.faulted || !b.tileWorks tile || !b.flag .TILE_VX_CFG_SVC_EN tile || decide (16384 < data.length) then b
    else
      let n := if det then 2 * cycles else cycles
      let x := (b.tile tile).vx
      let b := b.setVx tile { x with svc := x.svc.writeBytes 0 data, svcWait := x.svcWait + n }
      let b := if det then
          let b := (b.count .TILE_VX_DETECT_COUNT tile 1).count .TILE_VX_REPLAYS_COUNT tile 1
          b.absorbed { source := tile, cls := 0x02, outcome := 0, interruptNs := ceilDiv (cycles * 2) 5 }
        else b
      if x.cmd.isSome then b else b.setVx tile { (b.tile tile).vx with svcWait := 0 })

/-- TILE_VX_CFG written (R189): SHARE above 8 is stored as 8. -/
def Block.vxCfg (b : Block) (n v : Nat) : Block :=
  let die := b.dieTiles (n / 32)
  if !bitAt v 0 && b.flag .TILE_VX_CFG_SVC_EN n && !die.any (fun t => decide (t ≠ n) && b.flag .TILE_VX_CFG_SVC_EN t) then
    b.rset .TILE_STATUS_CFG_REJECT n 1
  else (b.rset .TILE_VX_CFG_SVC_EN n (v % 2)).rset .TILE_VX_CFG_SHARE n (min 8 (bits v 1 4))

/-- TILE_VX_CFG_WRITE. -/
def execTileVxCfgWrite (tile : Fin 64) (value : BitVec 32) (s : State) : Host.Outcome State Fault Refusal :=
  s.run (fun b => b.barWrite (tileOffset tile 0x60) (fun b => b.vxCfg tile value.toNat))

end Sys2Proof.Machine
end

