-- ==== Sys2Proof/Machine/Regwrite.lean ====
section
/-! DEFINITION. A host write to a register of BAR0 (R5 to R7, R26 to R28): the access codes and storage ranges of the
register tables, and the registers whose chapter says more. A register with a command of its own is written by the
operation of that command. -/

namespace Sys2Proof.Machine

/-- What a field holds after a write (R5): `old` it held, `new` is written, both in its place. An RW field keeps to the
range that its table gives. -/
def Fld.stored (f : Fld) (old new : Nat) : Nat :=
  match f.acc with
  | .RW => max f.smin (min f.smax new)
  | .W1C => old - (old &&& new)
  | .W1S => old ||| new
  | .RO | .WO | .RC => old

/-- Whether a write of `n` bytes at byte `p` of an element reaches field `f`. -/
def Fld.reached (f : Fld) (p n : Nat) : Bool := decide (f.lo < 8 * (p + n)) && decide (8 * p < f.lo + f.width)

/-- A field written by its access code: `new` is its word as the write leaves it, `mask` the bits that the write carries. -/
def Block.writeField (b : Block) (f : Fld) (i new mask : Nat) : Block :=
  let v := match f.acc with
    | .RW => new
    | _ => new &&& mask
  b.rset f i (f.stored (b.rget f i) (bits v (f.lo % 64) f.width))

/-- `n` bytes `v` at byte `p` of element `i` of a register, each field by its access code (R5, R6). -/
def Block.storeReg (b : Block) (r : RegId) (i p n v : Nat) : Block :=
  let w := i * r.words + p / 8
  let new := setBits (b.word r w) (8 * (p % 8)) (8 * n) v
  let mask := (2 ^ (8 * n) - 1) * 2 ^ (8 * (p % 8))
  r.info.fields.foldl (fun b f => if f.reached p n then b.writeField f i new mask else b) b

/-- A window whose alignment is broken is not enabled (R59). -/
def Block.windowAligned (b : Block) (w : Nat) : Block :=
  if b.rget .HITCH_WIN_BASE_ADDR w % 4096 = 0 ∧ (b.rget .HITCH_WIN_LIMIT_ADDR w + 1) % 4096 = 0 then b
  else b.rset .HITCH_WIN_CTL_ENABLE w 0

/-- CURB_CFG.CAP_W keeps to 300 to the envelope, and the limit follows it (R544). -/
def Block.capRange (b : Block) : Block :=
  let top := if b.rget .CAPS_LAYOUT_ENVELOPE = 0 then 1150 else 780
  (b.rset .CURB_CFG_CAP_W 0 (max 300 (min top (b.rget .CURB_CFG_CAP_W)))).setLimit

/-- TRACE_BUF_CFG's storage rules: SIZE 0 or 16 to 4,194,304, MODE 3 as 1, POST up to SIZE − 1. -/
def Block.traceBufRange (b : Block) : Block :=
  let z := b.rget .TRACE_BUF_CFG_SIZE
  let z := if z = 0 then 0 else max 16 (min 4194304 z)
  let b := b.rset .TRACE_BUF_CFG_SIZE 0 z
  let b := if b.rget .TRACE_BUF_CFG_MODE = 3 then b.rset .TRACE_BUF_CFG_MODE 0 1 else b
  b.rset .TRACE_BUF_CFG_POST 0 (min (z - 1) (b.rget .TRACE_BUF_CFG_POST))

/-- GTIME_SLEW.RATE_PPB keeps to ±200,000 (R524). -/
def Block.slewRange (b : Block) : Block :=
  let r := toSigned 32 (b.rget .GTIME_SLEW_RATE_PPB)
  let r := max (-200000) (min 200000 r)
  b.rset .GTIME_SLEW_RATE_PPB 0 (r % (2 ^ 32 : Int)).toNat

/-- PERF_SEL.VALID (R516). -/
def Block.perfValid (b : Block) (k : Nat) : Block :=
  b.rset .PERF_SEL_VALID k (b2n (perfListed (b.rget .PERF_SEL_SOURCE k) (b.rget .PERF_SEL_EVENT k)))

/-- A GPIO that OUT drives has OUT's level. -/
def Block.gpioLevels (b : Block) : Block :=
  let d := b.rget .OSTLER_GPIO_DIR
  let i := b.rget .OSTLER_GPIO_IN
  b.rset .OSTLER_GPIO_IN 0 ((i - (i &&& d)) ||| (b.rget .OSTLER_GPIO_OUT &&& d))

/-- A write of MAC_PREEMPT (R459): verification starts when preemption is enabled with it on a port that is up. -/
def Block.preemptWritten (old b : Block) (m : Nat) : Block :=
  let wants := fun (b : Block) => b.flag .MAC_PREEMPT_EN m && !b.flag .MAC_PREEMPT_VERIFY_DIS m
  if wants b && !wants old && b.flag .MAC_STATUS_LINK m then b.startVerify m else b.preemptRegs m

/-- Whether a class 0x05 command of context `c` is in progress. -/
def Block.blinkBusy (b : Block) (c : Nat) : Bool :=
  b.cmds.any (fun (x : Cmd) => decide (x.opcode / 256 = 5) && decide (x.ctx = c) && decide (x.phase ≠ .queued))

/-- Whether a replica slot of context `c` is in use (R303). -/
def Block.sbInUse (b : Block) (c : Nat) : Bool :=
  b.beater.book.any (fun p => p.2.slotted && decide (p.2.ctx = c)) || !(b.sbReserved c).isEmpty

/-- A register that is written while it may be: `plain` when `ok`, `b` otherwise. -/
def Block.writable (b : Block) (ok : Bool) (plain : Block) : Block := if ok then plain else b

/-- `n` bytes `v` written at byte `p` of element `i` of register `r`. -/
def Block.writeReg (b : Block) (r : RegId) (i p n v : Nat) : Block :=
  let new := setBits (b.word r (i * r.words + p / 8)) (8 * (p % 8)) (8 * n) v
  let plain := b.storeReg r i p n v
  match r with
  | .HITCH_CFG => if b.cutActive then { b with hitch := { b.hitch with cfgNext := some new } } else plain
  | .HITCH_RESUME => if bitAt new 0 && b.cutActive then b.resume else b
  | .HITCH_WIN_BASE | .HITCH_WIN_LIMIT | .HITCH_WIN_TARGET | .HITCH_WIN_CTL => plain.windowAligned i
  | .MSIX_CTL => plain.sendPending
  | .MBX_MSG => b.mbxPut i new
  | .MBX_LOCK => b.mbxRelease i 1
  | .MBX_LOCK_AS => if hostAgent (i % 64) then b.mbxRelease (i / 64) (i % 64) else b
  | .MBX_DB => b.mbxRing i (v % 2 ^ 32)
  | .MBX_DB_ACK => b.mbxAck i (v % 2 ^ 32)
  | .MBX_DB_MASK => b.mbxMask i new
  | .MBX_ROUTE => b.writable (decide (bits new 0 2 ≠ 3)) plain
  | .SPAOG_DB => (b.count .PERF_DOORBELLS_COUNT 0 1).doorbell i new
  | .SPAOG_CQ_DB => b.cqConsume i new
  | .SPAOG_SQ_BASE => b.writable (!b.flag .SPAOG_SQ_CFG_ENABLE i) plain
  | .SPAOG_SQ_CFG => b.writeSqCfg i new
  | .SPAOG_SQ_HEAD => b.writeSqHead i new
  | .SPAOG_CQ_BASE | .SPAOG_CQ_TAILWB =>
    if plain = b then b else if b.cqLocked i then b.accessError 0x056 none 0 (r.offset i) else plain
  | .SPAOG_CQ_CFG => b.writeCqCfg i new
  | .SPAOG_GATE => b.writeGate i new
  | .TILE_CFG => b.writeTileCfg i new
  | .TILE_CTL =>
    let b := if bitAt new 1 then b.tileFlush i else b
    if bitAt new 0 then b.tileRelease i else b
  | .TILE_VX_CFG => b.vxCfg i new
  | .STACK_CTL => if bitAt new 5 then b.mapoutPcs i [bits new 0 5] else b
  | .VAT_KEEP_RELEASE => if bitAt new 4 then b.keepRelease (bits new 0 4) else b
  | .DROVER_HOSTPOOL =>
    b.writable (decide (p < 8) || (b.hostPages i).isEmpty) plain
  | .BEATER_SB_POOL_VA => b.writable (!b.sbInUse i) plain
  | .BEATER_SB_POOL_CFG => if b.sbInUse i then b.rset .BEATER_SB_POOL_CFG_SLOT_UNITS i (plain.rget .BEATER_SB_POOL_CFG_SLOT_UNITS i) else plain
  | .BEATER_SB_PEEK_IDX => b.sbPeek (bits new 0 17)
  | .FARRIER_CLIP_CFG =>
    if p = 0 then (plain.rset .FARRIER_CLIP_CFG_VALID i 0).rset .FARRIER_CLIP_CFG_PREV_VALID i 0 else plain
  | .BLINK_PTAB => b.writable (!b.blinkBusy i) plain
  | .MAC_CFG => plain.rawSend i
  | .MAC_FLOW => if plain.rget .MAC_FLOW_MODE i = 3 then plain.rset .MAC_FLOW_MODE i 0 else plain
  | .MAC_XOFF => plain.rset .MAC_XOFF_XON i (min (plain.rget .MAC_XOFF_XOFF i) (plain.rget .MAC_XOFF_XON i))
  | .MAC_PREEMPT => b.preemptWritten plain i
  | .MAC_RAWRX_CFG => b.writable (decide (4 ≤ bits new 1 4 ∧ bits new 1 4 ≤ 12)) plain
  | .MAC_RAWTX_CFG => (b.writable (decide (4 ≤ bits new 1 4 ∧ bits new 1 4 ≤ 12)) plain).rawSend i
  | .MAC_RAWRX_HEAD => b.rset .MAC_RAWRX_HEAD_CONSUMED i new
  | .MAC_RAWTX_TAIL => (b.rset .MAC_RAWTX_TAIL_POSTED i new).rawSend i
  | .OSTLER_BOOT_CTL => if bitAt new 0 then b.go else b
  | .OSTLER_DEBUG_CTL => if bitAt new 0 then b.submit else b
  | .OSTLER_GPIO => plain.gpioLevels
  | .CURB_CFG => plain.capRange
  | .TRACE_CFG | .TRACE_BUF_BASE => b.writable (!b.flag .TRACE_STATUS_RUNNING) plain
  | .TRACE_BUF_CFG => b.writable (!b.flag .TRACE_STATUS_RUNNING) plain.traceBufRange
  | .TRACE_CTL => if bitAt new 0 then b.trigger 2 else b
  | .GTIME_STEP => b.gtimeStep (BitVec.ofNat 64 new)
  | .GTIME_SLEW => plain.slewRange
  | .GTIME_CFG => { plain with net := { plain.net with measureT := plain.clk.t } }
  | .PERF_SEL => plain.perfValid i
  | .PERF_CTL => b.perfClear (v % 2 ^ (8 * n) * 2 ^ (8 * p))
  | _ => plain

/-- A write of `n` bytes at an offset: ignored where no register stands (R28). A 4-byte register in an 8-byte access
takes its own 4 bytes. -/
def Block.writeAt (b : Block) (off n v : Nat) : Block :=
  match regAt off with
  | some (r, i, p) => b.writeReg r i p n v
  | none => b

/-- Whether an 8-byte access at `off` reaches one register whole. -/
def wideAt (off : Nat) : Bool :=
  match regAt off with
  | some (r, _, _) => decide (64 ≤ r.info.width)
  | none => false

/-- A write of 4 or 8 bytes that reached BAR0: the staging window, one register, or two halves in ascending order. -/
def Block.bar0Write (b : Block) (off n v : Nat) : Block :=
  if 0x2000000 ≤ off then b.writeStaging (off - 0x2000000) (bytesOf n v)
  else if n = 8 && !wideAt off then (b.writeAt off 4 (v % 2 ^ 32)).writeAt (off + 4) 4 (v / 2 ^ 32)
  else b.writeAt off n v

/-- REGISTER_WRITE (R5, R26, R27): an access of another size or alignment is dropped and recorded. -/
def execRegisterWrite (offset size : Nat) (value : BitVec 64) (s : State) : Host.Outcome State Fault Refusal :=
  if 0x4000000 ≤ offset then .fault .bar0Range
  else
    s.run (fun b =>
      if (size = 4 ∨ size = 8) ∧ offset % size = 0 then
        b.barWrite offset (fun b => b.bar0Write offset size (value.toNat % 2 ^ (8 * size)))
      else if b.flag .HITCH_STATUS_LINK_UP then b.accessError 0x056 none 0 offset
      else b)

end Sys2Proof.Machine
end

