-- ==== Sys2Proof/Machine/Snapshot.lean ====
section
/-! DEFINITION. SNAPSHOT and TIER_TIMEOUT (R251, R262, R266 to R269, R346). -/

namespace Sys2Proof.Machine

/-- A destination of a SNAPSHOT (chapter 09): the byte address of its first byte and its size in 2 MiB pages; none where
the tier or the lend cannot hold it. -/
def Block.snapDest (b : Block) (ctx : Nat) (p : SnapshotParams) : Option (Nat × Nat) :=
  if p.tier = 2 then some (b.rget .DROVER_HOSTPOOL_BASE ctx * pageBytes, b.rget .DROVER_HOSTPOOL_PAGES ctx)
  else if p.tier = 1 ∧ p.lend < 16 ∧ b.flag .DROVER_BORROW_VALID p.lend then
    some (neighbourAddr (b.rget .DROVER_BORROW_RANK p.lend) (b.rget .DROVER_BORROW_LEND_ID p.lend) 0 0,
      b.rget .DROVER_BORROW_PAGES p.lend)
  else none

/-- A range that a SNAPSHOT copies: its object, address and bytes. It starts at a 2 MiB boundary counted from DEST. -/
structure SnapPart where
  obj : Nat
  va : Nat
  size : Nat
  deriving DecidableEq, Repr

/-- The owned shards of a context whose slot arrays begin in an object, in ascending number (R346). -/
def Block.shardsIn (b : Block) (o : Obj) : List (Nat × Shard) :=
  (b.shardsOf o.ctx).filter (fun s => s.2.owned && decide (o.va ≤ s.2.p.baseVa) && decide (s.2.p.baseVa < o.va + o.size))

/-- What a SNAPSHOT copies of an object (R266, R346), and whether it copies the object as it is. -/
def Block.snapParts (b : Block) (p : SnapshotParams) (o : Obj) : List SnapPart × Bool :=
  let ss := b.shardsIn o
  if p.version = 0xFFFFFFFF ∨ ss = [] then ([⟨o.obj, o.va, o.size⟩], true)
  else (ss.map (fun s => ⟨o.obj, s.2.slotVa p.version, s.2.p.slotBytes⟩), false)

/-- The objects that a SNAPSHOT names, none where one does not exist. -/
def Block.snapObjs (b : Block) (ctx : Nat) (p : SnapshotParams) : Option (List Obj) :=
  (List.range p.count).mapM (fun i => b.obj ctx (p.obj + i))

/-- Bytes written at an address of a destination (R249, R251, R254): a host write during a cut is cut. -/
def snapWrite (q : Req) (tier a : Nat) (bs : List Byte) : Act Unit := do
  let b ← get
  if tier = 1 then
    if b.lendUp a then
      tierCheck q 1
      act (fun b => { (b.count .HOKUKE_TX_PACKETS_COUNT 0 (ceilDiv bs.length 4096)) with
        mem := { b.mem with lent := b.mem.lent.writeBytes a bs } })
    else tierFail 1
  else if b.cutActive then act (fun b => b.noteCut (q.who.id.getD 0) a bs.length)
  else
    tierCheck q 2
    act (fun b => b.hostWrite a bs)

/-- One unit is copied: its entry of the manifest (R266). -/
def snapUnit (q : Req) (tier dst : Nat) (part : SnapPart) (i page : Nat) : Act (List Byte) := do
  let n := min pageBytes (part.size - i * pageBytes)
  let bs ← readVa q (part.va + i * pageBytes) n
  snapWrite q tier dst bs
  let b ← get
  return bytesOf 2 part.obj ++ bytesOf 2 0 ++ bytesOf 4 page ++ bytesOf 4 (crc32c bs) ++ bytesOf 4 (b.now / 1000000)

/-- The units of the parts in order: part, unit within the part, unit within the object, unit of the destination. -/
def snapUnits : List SnapPart → Nat → Nat → Nat → List (SnapPart × Nat × Nat × Nat)
  | [], _, _, _ => []
  | x :: l, obj, page, dst =>
    let n := ceilDiv x.size pageBytes
    let p0 := if x.obj = obj then page else 0
    (List.range n).map (fun i => (x, i, p0 + i, dst + i)) ++ snapUnits l x.obj (p0 + n) (dst + n)

/-- The bytes that a list of units covers, from DEST. -/
def snapSpan (l : List (SnapPart × Nat × Nat × Nat)) : Nat :=
  match l.getLast? with
  | some u => u.2.2.2 * pageBytes + min pageBytes (u.1.size - u.2.1 * pageBytes)
  | none => 0

/-- Whether destination and manifest lie in the destination's pages and apart from each other (R268). -/
def snapFits (p : SnapshotParams) (pages span entries : Nat) : Bool :=
  decide (p.dest + span ≤ pages * pageBytes) && decide (p.manifest + 16 * entries ≤ pages * pageBytes) &&
    !rangesMeet p.dest span p.manifest (16 * entries)

/-- The slots that a SNAPSHOT of a version holds until it completes (R345, R346). -/
def Block.snapHolds (b : Block) (c : Cmd) (p : SnapshotParams) (os : List Obj) : List SlotHold :=
  if p.version = 0xFFFFFFFF then []
  else (os.flatMap b.shardsIn).map (fun s => ⟨c.id, c.ctx, s.1, p.version⟩)

/-- SNAPSHOT (R266 to R269, R346). The number of torn pages is added at its completion. -/
def snapshotCmd (c : Cmd) (p : SnapshotParams) : Act (Nat × Nat × Nat) := do
  let b ← get
  match b.snapObjs c.ctx p, b.snapDest c.ctx p with
  | some os, some (base, pages) =>
    let parts := os.map (b.snapParts p)
    let units := snapUnits (parts.flatMap (fun x => x.1)) 0x10000 0 0
    let kept := decide (p.version = 0xFFFFFFFF) ||
      (os.flatMap b.shardsIn).all (fun s => b.retained c.ctx s.1 s.2 p.version)
    if p.count = 0 ∨ !kept ∨ !snapFits p pages (snapSpan units) units.length then rangeErr
    else
      let q := c.req 0 0
      let es ← units.mapM (fun u => snapUnit q p.tier (base + p.dest + u.2.2.2 * pageBytes) u.1 u.2.1 u.2.2.1)
      snapWrite q p.tier (base + p.manifest) es.flatten
      let plain := ((os.zip parts).filter (fun x => x.2.2)).map (fun x => x.1.obj)
      act (fun b => { b with drover := { b.drover with snaps := b.drover.snaps ++ [⟨c.id, c.ctx, p.obj, p.count, plain, []⟩] }
                             farrier := { b.farrier with holds := b.farrier.holds ++ b.snapHolds c p os } })
      return (0, 0, halves 0 units.length)
  | _, _ => rangeErr

def execSnapshot (id : Nat) (p : SnapshotParams) (s : State) : Host.Outcome State Fault Refusal :=
  s.run (fun b => b.runCmd id (.snapshot p) always2 (fun c b => b.conclude id (0x0100, 0) (snapshotCmd c p)))

/-- A MIGRATE whose copying is late or fails ends with its object at the source (R262). -/
def Block.migTierEnd (b : Block) (id : Nat) (late : Bool) : Block :=
  match b.drover.objs.find? (fun o => o.mig.any (fun m => decide (m.cmd = some id))) with
  | some o =>
    match o.mig with
    | some m =>
      if m.tier = 0 ∧ o.tier = 0 then b
      else
        let b := if late then b.advanceTo (b.clk.t + b.tierWait (if m.tier = 0 then o.tier else m.tier)) else b
        let b := b.count .DROVER_TIER_FAIL_COUNT 0 1
        (b.endMigCmd o 0x0200 (if late then 2 else 1)).endMig o
    | none => b
  | none => { b with drover := { b.drover with late := b.drover.late.filter (fun x => decide (x.1 ≠ id)) ++ [(id, late)] } }

/-- TIER_TIMEOUT (R251, R262): the next lower-tier access of command `id` gets no answer within DROVER_TIMEOUT (`late`), or
its link returns an error. A running MIGRATE ends at once. -/
def execTierTimeout (id : Nat) (late : Bool) (s : State) : Host.Outcome State Fault Refusal :=
  s.run (fun b => if (b.findCmd id).isSome then b.migTierEnd id late else b)

end Sys2Proof.Machine
end

