-- ==== Sys2Proof/Machine/Dispatch.lean ====
section
/-! DEFINITION. The one match from a command to its meaning. -/

namespace Sys2Proof.Machine

def exec (i : Instr) (s : State) : Host.Outcome State Fault Refusal :=
  match i with
  | .load id p => Sys2Proof.Machine.execLoad id p s
  | .store id p par => Sys2Proof.Machine.execStore id p par s
  | .matmul id p par upset => Sys2Proof.Machine.execMatmul id p par upset s
  | .vkern id p => Sys2Proof.Machine.execVkern id p s
  | .accOpen id p par => Sys2Proof.Machine.execAccOpen id p par s
  | .accClose id p upset => Sys2Proof.Machine.execAccClose id p upset s
  | .fence id p => Sys2Proof.Machine.execFence id p s
  | .signal id p => Sys2Proof.Machine.execSignal id p s
  | .wait id p => Sys2Proof.Machine.execWait id p s
  | .waitTimeout id => Sys2Proof.Machine.execWaitTimeout id s
  | .mbxAccessLock id p => Sys2Proof.Machine.execMbxAccessLock id p s
  | .mbxAccessRelease id p => Sys2Proof.Machine.execMbxAccessRelease id p s
  | .mbxAccessWrite id p => Sys2Proof.Machine.execMbxAccessWrite id p s
  | .mbxAccessTake id p => Sys2Proof.Machine.execMbxAccessTake id p s
  | .mbxAccessAck id p => Sys2Proof.Machine.execMbxAccessAck id p s
  | .mbxAccessPeek id p => Sys2Proof.Machine.execMbxAccessPeek id p s
  | .vxNop tile f => Sys2Proof.Machine.execVxNop tile f s
  | .halt tile f => Sys2Proof.Machine.execHalt tile f s
  | .jmp tile f => Sys2Proof.Machine.execJmp tile f s
  | .beq tile f => Sys2Proof.Machine.execBeq tile f s
  | .bne tile f => Sys2Proof.Machine.execBne tile f s
  | .blt tile f => Sys2Proof.Machine.execBlt tile f s
  | .bltu tile f => Sys2Proof.Machine.execBltu tile f s
  | .loop tile f => Sys2Proof.Machine.execLoop tile f s
  | .setvl tile f => Sys2Proof.Machine.execSetvl tile f s
  | .sadd tile f => Sys2Proof.Machine.execSadd tile f s
  | .ssub tile f => Sys2Proof.Machine.execSsub tile f s
  | .smul tile f => Sys2Proof.Machine.execSmul tile f s
  | .sand tile f => Sys2Proof.Machine.execSand tile f s
  | .sshl tile f => Sys2Proof.Machine.execSshl tile f s
  | .sshr tile f => Sys2Proof.Machine.execSshr tile f s
  | .ssra tile f => Sys2Proof.Machine.execSsra tile f s
  | .saddi tile f => Sys2Proof.Machine.execSaddi tile f s
  | .sli tile f => Sys2Proof.Machine.execSli tile f s
  | .slui tile f => Sys2Proof.Machine.execSlui tile f s
  | .smovv tile f => Sys2Proof.Machine.execSmovv tile f s
  | .vld tile f par => Sys2Proof.Machine.execVld tile f par s
  | .vst tile f => Sys2Proof.Machine.execVst tile f s
  | .vlds tile f par => Sys2Proof.Machine.execVlds tile f par s
  | .vsts tile f => Sys2Proof.Machine.execVsts tile f s
  | .vldx tile f par => Sys2Proof.Machine.execVldx tile f par s
  | .vstx tile f => Sys2Proof.Machine.execVstx tile f s
  | .sld tile f par => Sys2Proof.Machine.execSld tile f par s
  | .sst tile f => Sys2Proof.Machine.execSst tile f s
  | .vadd tile f stall => Sys2Proof.Machine.execVadd tile f stall s
  | .vsub tile f stall => Sys2Proof.Machine.execVsub tile f stall s
  | .vmul tile f stall => Sys2Proof.Machine.execVmul tile f stall s
  | .vfma tile f stall => Sys2Proof.Machine.execVfma tile f stall s
  | .vfms tile f stall => Sys2Proof.Machine.execVfms tile f stall s
  | .vmin tile f stall => Sys2Proof.Machine.execVmin tile f stall s
  | .vmax tile f stall => Sys2Proof.Machine.execVmax tile f stall s
  | .vabs tile f stall => Sys2Proof.Machine.execVabs tile f stall s
  | .vneg tile f stall => Sys2Proof.Machine.execVneg tile f stall s
  | .vand tile f stall => Sys2Proof.Machine.execVand tile f stall s
  | .vor tile f stall => Sys2Proof.Machine.execVor tile f stall s
  | .vxor tile f stall => Sys2Proof.Machine.execVxor tile f stall s
  | .vshl tile f stall => Sys2Proof.Machine.execVshl tile f stall s
  | .vshr tile f stall => Sys2Proof.Machine.execVshr tile f stall s
  | .vsra tile f stall => Sys2Proof.Machine.execVsra tile f stall s
  | .vcmpeq tile f stall => Sys2Proof.Machine.execVcmpeq tile f stall s
  | .vcmplt tile f stall => Sys2Proof.Machine.execVcmplt tile f stall s
  | .vcmple tile f stall => Sys2Proof.Machine.execVcmple tile f stall s
  | .vcmpun tile f stall => Sys2Proof.Machine.execVcmpun tile f stall s
  | .vsel tile f stall => Sys2Proof.Machine.execVsel tile f stall s
  | .vmov tile f stall => Sys2Proof.Machine.execVmov tile f stall s
  | .viota tile f stall => Sys2Proof.Machine.execViota tile f stall s
  | .vclass tile f stall => Sys2Proof.Machine.execVclass tile f stall s
  | .vrsum tile f stall => Sys2Proof.Machine.execVrsum tile f stall s
  | .vrmax tile f stall => Sys2Proof.Machine.execVrmax tile f stall s
  | .vramax tile f stall => Sys2Proof.Machine.execVramax tile f stall s
  | .vrsumg tile f stall => Sys2Proof.Machine.execVrsumg tile f stall s
  | .vramaxg tile f stall => Sys2Proof.Machine.execVramaxg tile f stall s
  | .vperm tile f stall => Sys2Proof.Machine.execVperm tile f stall s
  | .vslide tile f stall => Sys2Proof.Machine.execVslide tile f stall s
  | .vziplo tile f stall => Sys2Proof.Machine.execVziplo tile f stall s
  | .vziphi tile f stall => Sys2Proof.Machine.execVziphi tile f stall s
  | .vunzipe tile f stall => Sys2Proof.Machine.execVunzipe tile f stall s
  | .vunzipo tile f stall => Sys2Proof.Machine.execVunzipo tile f stall s
  | .vbcast tile f stall => Sys2Proof.Machine.execVbcast tile f stall s
  | .vexp2 tile f stall => Sys2Proof.Machine.execVexp2 tile f stall s
  | .vlog2 tile f stall => Sys2Proof.Machine.execVlog2 tile f stall s
  | .vrcp tile f stall => Sys2Proof.Machine.execVrcp tile f stall s
  | .vrsqrt tile f stall => Sys2Proof.Machine.execVrsqrt tile f stall s
  | .vtanh tile f stall => Sys2Proof.Machine.execVtanh tile f stall s
  | .vsigm tile f stall => Sys2Proof.Machine.execVsigm tile f stall s
  | .vcvt tile f stall => Sys2Proof.Machine.execVcvt tile f stall s
  | .vseed tile f stall => Sys2Proof.Machine.execVseed tile f stall s
  | .vqnt tile f stall => Sys2Proof.Machine.execVqnt tile f stall s
  | .vdqnt tile f stall => Sys2Proof.Machine.execVdqnt tile f stall s
  | .vxTimeout tile stall => Sys2Proof.Machine.execVxTimeout tile stall s
  | .vxDetection tile imem => Sys2Proof.Machine.execVxDetection tile imem s
  | .serviceBurst tile cycles data det => Sys2Proof.Machine.execServiceBurst tile cycles data det s
  | .groupReplay id par upset => Sys2Proof.Machine.execGroupReplay id par upset s
  | .lookupPool id p det bad => Sys2Proof.Machine.execLookupPool id p det bad s
  | .sortDedup id p det => Sys2Proof.Machine.execSortDedup id p det s
  | .exchange id p bad => Sys2Proof.Machine.execExchange id p bad s
  | .scatterUpdate id p det bad => Sys2Proof.Machine.execScatterUpdate id p det bad s
  | .tableDefine id p => Sys2Proof.Machine.execTableDefine id p s
  | .promote id p bad => Sys2Proof.Machine.execPromote id p bad s
  | .demote id p bad => Sys2Proof.Machine.execDemote id p bad s
  | .refresh id p bad => Sys2Proof.Machine.execRefresh id p bad s
  | .fillRequest src ctx group slot key => Sys2Proof.Machine.execFillRequest src ctx group slot key s
  | .fillReply ctx group slot key version record => Sys2Proof.Machine.execFillReply ctx group slot key version record s
  | .shardDefine id p => Sys2Proof.Machine.execShardDefine id p s
  | .update id p => Sys2Proof.Machine.execUpdate id p s
  | .updateStart id det => Sys2Proof.Machine.execUpdateStart id det s
  | .laggedPostcheck id det => Sys2Proof.Machine.execLaggedPostcheck id det s
  | .clipTimeout id => Sys2Proof.Machine.execClipTimeout id s
  | .fetch id p => Sys2Proof.Machine.execFetch id p s
  | .fetchTimeout id => Sys2Proof.Machine.execFetchTimeout id s
  | .revert id p det => Sys2Proof.Machine.execRevert id p det s
  | .normReduce id p => Sys2Proof.Machine.execNormReduce id p s
  | .groupDefine id p => Sys2Proof.Machine.execGroupDefine id p s
  | .allReduce id p => Sys2Proof.Machine.execAllReduce id p s
  | .reduceScatter id p => Sys2Proof.Machine.execReduceScatter id p s
  | .allGather id p => Sys2Proof.Machine.execAllGather id p s
  | .broadcast id p => Sys2Proof.Machine.execBroadcast id p s
  | .allToAllV id p => Sys2Proof.Machine.execAllToAllV id p s
  | .permute id p => Sys2Proof.Machine.execPermute id p s
  | .drained src group epoch small => Sys2Proof.Machine.execDrained src group epoch small s
  | .bucketCancel id p => Sys2Proof.Machine.execBucketCancel id p s
  | .cancelArrival group epoch bucket all => Sys2Proof.Machine.execCancelArrival group epoch bucket all s
  | .heldCollectiveStart id => Sys2Proof.Machine.execHeldCollectiveStart id s
  | .creditGrant src tag digest units => Sys2Proof.Machine.execCreditGrant src tag digest units s
  | .creditRetry dst tag => Sys2Proof.Machine.execCreditRetry dst tag s
  | .relayUnitArrival src tag leg index last body det => Sys2Proof.Machine.execRelayUnitArrival src tag leg index last body det s
  | .peerTimeout tag => Sys2Proof.Machine.execPeerTimeout tag s
  | .beaterPeerTimeout tag => Sys2Proof.Machine.execBeaterPeerTimeout tag s
  | .attend id p => Sys2Proof.Machine.execAttend id p s
  | .attentionJob id tile units det => Sys2Proof.Machine.execAttentionJob id tile units det s
  | .pageEditSet id p => Sys2Proof.Machine.execPageEditSet id p s
  | .pageEditTruncate id p => Sys2Proof.Machine.execPageEditTruncate id p s
  | .pageEditClear id p => Sys2Proof.Machine.execPageEditClear id p s
  | .map id p => Sys2Proof.Machine.execMap id p s
  | .unmap id p => Sys2Proof.Machine.execUnmap id p s
  | .migrate id p => Sys2Proof.Machine.execMigrate id p s
  | .migrationPassEnd ctx obj kept flipNs => Sys2Proof.Machine.execMigrationPassEnd ctx obj kept flipNs s
  | .flipAbandon ctx obj => Sys2Proof.Machine.execFlipAbandon ctx obj s
  | .pin id p => Sys2Proof.Machine.execPin id p s
  | .unpin id p => Sys2Proof.Machine.execUnpin id p s
  | .lend id p => Sys2Proof.Machine.execLend id p s
  | .revoke id p => Sys2Proof.Machine.execRevoke id p s
  | .graceExpiry lender n revoked => Sys2Proof.Machine.execGraceExpiry lender n revoked s
  | .lenderPathLoss slot => Sys2Proof.Machine.execLenderPathLoss slot s
  | .snapshot id p => Sys2Proof.Machine.execSnapshot id p s
  | .tierTimeout id late => Sys2Proof.Machine.execTierTimeout id late s
  | .tlbWalk cache ctx va write => Sys2Proof.Machine.execTlbWalk cache ctx va write s
  | .frameRebuild page flipNs => Sys2Proof.Machine.execFrameRebuild page flipNs s
  | .pageRemap page flipNs => Sys2Proof.Machine.execPageRemap page flipNs s
  | .nop id => Sys2Proof.Machine.execNop id s
  | .contextCreate id p => Sys2Proof.Machine.execContextCreate id p s
  | .contextDestroy id p => Sys2Proof.Machine.execContextDestroy id p s
  | .configRead id p => Sys2Proof.Machine.execConfigRead id p s
  | .telemetryRead id p => Sys2Proof.Machine.execTelemetryRead id p s
  | .errlogRead id p => Sys2Proof.Machine.execErrlogRead id p s
  | .traceStart id p => Sys2Proof.Machine.execTraceStart id p s
  | .traceStop id p => Sys2Proof.Machine.execTraceStop id p s
  | .traceTrigger id p => Sys2Proof.Machine.execTraceTrigger id p s
  | .traceMark id p => Sys2Proof.Machine.execTraceMark id p s
  | .traceFlush id p => Sys2Proof.Machine.execTraceFlush id p s
  | .tileRetire id p => Sys2Proof.Machine.execTileRetire id p s
  | .adopt id p => Sys2Proof.Machine.execAdopt id p s
  | .forget id p => Sys2Proof.Machine.execForget id p s
  | .send id p => Sys2Proof.Machine.execSend id p s
  | .recvPost id p => Sys2Proof.Machine.execRecvPost id p s
  | .rnrRetry flight => Sys2Proof.Machine.execRnrRetry flight s
  | .routeSet id p => Sys2Proof.Machine.execRouteSet id p s
  | .linkRetrain id p => Sys2Proof.Machine.execLinkRetrain id p s
  | .linkDown id p => Sys2Proof.Machine.execLinkDown id p s
  | .linkUp id p => Sys2Proof.Machine.execLinkUp id p s
  | .measure id p ex => Sys2Proof.Machine.execMeasure id p ex s
  | .forceB id p => Sys2Proof.Machine.execForceB id p s
  | .returnA id p => Sys2Proof.Machine.execReturnA id p s
  | .macFilterSet id p => Sys2Proof.Machine.execMacFilterSet id p s
  | .statsRead id p => Sys2Proof.Machine.execStatsRead id p s
  | .packetFetch ring fail => Sys2Proof.Machine.execPacketFetch ring fail s
  | .earlyDoorbellRepoll ring fail => Sys2Proof.Machine.execEarlyDoorbellRepoll ring fail s
  | .earlyDoorbell ring => Sys2Proof.Machine.execEarlyDoorbell ring s
  | .dispatch ring => Sys2Proof.Machine.execDispatch ring s
  | .commandCompletion id fail => Sys2Proof.Machine.execCommandCompletion id fail s
  | .coalTimeExpiry ring => Sys2Proof.Machine.execCoalTimeExpiry ring s
  | .spaogDb ring value => Sys2Proof.Machine.execSpaogDb ring value s
  | .spaogCqDb ring value => Sys2Proof.Machine.execSpaogCqDb ring value s
  | .sqEnableSet ring value => Sys2Proof.Machine.execSqEnableSet ring value s
  | .sqEnableClear ring value => Sys2Proof.Machine.execSqEnableClear ring value s
  | .spaogSqHead ring value => Sys2Proof.Machine.execSpaogSqHead ring value s
  | .cqEnableWrite ring value => Sys2Proof.Machine.execCqEnableWrite ring value s
  | .spaogGate gate value => Sys2Proof.Machine.execSpaogGate gate value s
  | .mbxLockRead mbx agent => Sys2Proof.Machine.execMbxLockRead mbx agent s
  | .mbxLockWrite mbx agent => Sys2Proof.Machine.execMbxLockWrite mbx agent s
  | .mbxLockForce mbx agent release => Sys2Proof.Machine.execMbxLockForce mbx agent release s
  | .mbxMsg mbx agent msg => Sys2Proof.Machine.execMbxMsg mbx agent msg s
  | .mbxTake mbx agent => Sys2Proof.Machine.execMbxTake mbx agent s
  | .mbxDb mbx agent v => Sys2Proof.Machine.execMbxDb mbx agent v s
  | .mbxDbAck mbx agent v => Sys2Proof.Machine.execMbxDbAck mbx agent v s
  | .mbxDbMask mbx agent v => Sys2Proof.Machine.execMbxDbMask mbx agent v s
  | .msixUnmask vector => Sys2Proof.Machine.execMsixUnmask vector s
  | .hitchResume => Sys2Proof.Machine.execHitchResume s
  | .tileCfgWrite tile value => Sys2Proof.Machine.execTileCfgWrite tile value s
  | .tileCtlRelease tile => Sys2Proof.Machine.execTileCtlRelease tile s
  | .tileCtlFlush tile => Sys2Proof.Machine.execTileCtlFlush tile s
  | .tileFlagWrite tile flag value => Sys2Proof.Machine.execTileFlagWrite tile flag value s
  | .tileVxCfgWrite tile value => Sys2Proof.Machine.execTileVxCfgWrite tile value s
  | .forceMapout stack pc => Sys2Proof.Machine.execForceMapout stack pc s
  | .vatKeepRelease ctx => Sys2Proof.Machine.execVatKeepRelease ctx s
  | .beaterSbPeekIdx value => Sys2Proof.Machine.execBeaterSbPeekIdx value s
  | .go => Sys2Proof.Machine.execGo s
  | .submit => Sys2Proof.Machine.execSubmit s
  | .stagingWrite offset data => Sys2Proof.Machine.execStagingWrite offset data s
  | .gtimeStep step => Sys2Proof.Machine.execGtimeStep step s
  | .perfCtlClear clear => Sys2Proof.Machine.execPerfCtlClear clear s
  | .traceCtlTrigger => Sys2Proof.Machine.execTraceCtlTrigger s
  | .macRawrxHead mac value => Sys2Proof.Machine.execMacRawrxHead mac value s
  | .macRawtxTail mac value => Sys2Proof.Machine.execMacRawtxTail mac value s
  | .macTxtsPop mac => Sys2Proof.Machine.execMacTxtsPop mac s
  | .droverFlipMaxNs => Sys2Proof.Machine.execDroverFlipMaxNs s
  | .curbPowerPeakRead => Sys2Proof.Machine.execCurbPowerPeakRead s
  | .ostlerInterruptMaxNs => Sys2Proof.Machine.execOstlerInterruptMaxNs s
  | .registerWrite offset size value => Sys2Proof.Machine.execRegisterWrite offset size value s
  | .bar2HdmAccess w => Sys2Proof.Machine.execBar2HdmAccess w s
  | .peerWrite addr requester data => Sys2Proof.Machine.execPeerWrite addr requester data s
  | .peerRead addr requester n => Sys2Proof.Machine.execPeerRead addr requester n s
  | .hotReset => Sys2Proof.Machine.execHotReset s
  | .surpriseLinkDown => Sys2Proof.Machine.execSurpriseLinkDown s
  | .perstNAssert => Sys2Proof.Machine.execPerstNAssert s
  | .perstNDeassert => Sys2Proof.Machine.execPerstNDeassert s
  | .functionLevelReset => Sys2Proof.Machine.execFunctionLevelReset s
  | .cxlReset => Sys2Proof.Machine.execCxlReset s
  | .d3hotEntry => Sys2Proof.Machine.execD3hotEntry s
  | .ideCheckFailure => Sys2Proof.Machine.execIdeCheckFailure s
  | .ideRekeyComplete => Sys2Proof.Machine.execIdeRekeyComplete s
  | .linkUpHost width gen cxl => Sys2Proof.Machine.execLinkUpHost width gen cxl s
  | .hostLinkRetrain width gen => Sys2Proof.Machine.execHostLinkRetrain width gen s
  | .pgAuxAssert => Sys2Proof.Machine.execPgAuxAssert s
  | .pgMainAssert => Sys2Proof.Machine.execPgMainAssert s
  | .pgStackAssert => Sys2Proof.Machine.execPgStackAssert s
  | .pgOptAssert => Sys2Proof.Machine.execPgOptAssert s
  | .powerGoodFall pg => Sys2Proof.Machine.execPowerGoodFall pg s
  | .romTestDone pass => Sys2Proof.Machine.execRomTestDone pass s
  | .initDone report => Sys2Proof.Machine.execInitDone report s
  | .avsAckTimeout rail => Sys2Proof.Machine.execAvsAckTimeout rail s
  | .curbSample mw g v => Sys2Proof.Machine.execCurbSample mw g v s
  | .thermalSample temps g v => Sys2Proof.Machine.execThermalSample temps g v s
  | .thermalTrip => Sys2Proof.Machine.execThermalTrip s
  | .ostlerWatchdog core => Sys2Proof.Machine.execOstlerWatchdog core s
  | .vatAccess a => Sys2Proof.Machine.execVatAccess a s
  | .vatAtomic a => Sys2Proof.Machine.execVatAtomic a s
  | .parityDelta mpa fillFails => Sys2Proof.Machine.execParityDelta mpa fillFails s
  | .sliceRetirement slice => Sys2Proof.Machine.execSliceRetirement slice s
  | .stackFill mpa fails chkBad cmd => Sys2Proof.Machine.execStackFill mpa fails chkBad cmd s
  | .reconstruction mpa ok cmd => Sys2Proof.Machine.execReconstruction mpa ok cmd s
  | .parityRebuild mpa => Sys2Proof.Machine.execParityRebuild mpa s
  | .rowRepair mpa spare => Sys2Proof.Machine.execRowRepair mpa spare s
  | .mapout stack pcs cause hit => Sys2Proof.Machine.execMapout stack pcs cause hit s
  | .scrubRead stack mismatch => Sys2Proof.Machine.execScrubRead stack mismatch s
  | .laserInputLoss engine input power => Sys2Proof.Machine.execLaserInputLoss engine input power s
  | .laserSwitchDone engine => Sys2Proof.Machine.execLaserSwitchDone engine s
  | .trainingDone engine t => Sys2Proof.Machine.execTrainingDone engine t s
  | .trainingTimeout engine => Sys2Proof.Machine.execTrainingTimeout engine s
  | .lossOfSignal engine => Sys2Proof.Machine.execLossOfSignal engine s
  | .holdTimeout engine => Sys2Proof.Machine.execHoldTimeout engine s
  | .laneDrop engine lane => Sys2Proof.Machine.execLaneDrop engine lane s
  | .flitReceive engine f => Sys2Proof.Machine.execFlitReceive engine f s
  | .nak engine seq bad => Sys2Proof.Machine.execNak engine seq bad s
  | .transportReceive via p => Sys2Proof.Machine.execTransportReceive via p s
  | .ack via src apsn ecn short => Sys2Proof.Machine.execAck via src apsn ecn short s
  | .ackTimer src => Sys2Proof.Machine.execAckTimer src s
  | .sack mac src apsn marks ecn => Sys2Proof.Machine.execSack mac src apsn marks ecn s
  | .sackRepeat src => Sys2Proof.Machine.execSackRepeat src s
  | .rtoExpiry flight => Sys2Proof.Machine.execRtoExpiry flight s
  | .rateIncrease mac rank => Sys2Proof.Machine.execRateIncrease mac rank s
  | .timeRemeasure links => Sys2Proof.Machine.execTimeRemeasure links s
  | .portLinkChange mac up => Sys2Proof.Machine.execPortLinkChange mac up s
  | .frameReceive mac f => Sys2Proof.Machine.execFrameReceive mac f s
  | .pauseExpiry mac pri => Sys2Proof.Machine.execPauseExpiry mac pri s
  | .pauseRefresh mac pri => Sys2Proof.Machine.execPauseRefresh mac pri s
  | .xon mac pri => Sys2Proof.Machine.execXon mac pri s
  | .pauseWatchdog mac pri tx => Sys2Proof.Machine.execPauseWatchdog mac pri tx s
  | .verifyTimeout mac => Sys2Proof.Machine.execVerifyTimeout mac s
  | .transportSegmentSend flight cuts => Sys2Proof.Machine.execTransportSegmentSend flight cuts s
  | .quireWrite => Sys2Proof.Machine.execQuireWrite s
  | .lightPresent engine => Sys2Proof.Machine.execLightPresent engine s
  | .signalBack engine => Sys2Proof.Machine.execSignalBack engine s
  | .laserInputReturn engine input power => Sys2Proof.Machine.execLaserInputReturn engine input power s
  | .watchdogHoldoffEnd mac pri tx => Sys2Proof.Machine.execWatchdogHoldoffEnd mac pri tx s
  | .verifyDone => Sys2Proof.Machine.execVerifyDone s
  | .tokenVerifyDone => Sys2Proof.Machine.execTokenVerifyDone s
  | .spdmRequest req => Sys2Proof.Machine.execSpdmRequest req s
  | .sidebandTransfer x => Sys2Proof.Machine.execSidebandTransfer x s
  | .movesComplete src group epoch => Sys2Proof.Machine.execMovesComplete src group epoch s
  | .latchEnd id => Sys2Proof.Machine.execLatchEnd id s
  | .fetchRequest src ctx tag shard parts version wait => Sys2Proof.Machine.execFetchRequest src ctx tag shard parts version wait s
  | .revocationNotice src lend => Sys2Proof.Machine.execRevocationNotice src lend s
  | .configurationRequest r => Sys2Proof.Machine.execConfigurationRequest r s

end Sys2Proof.Machine
end

