-- ==== Sys2Proof/Machine/Tick.lean ====
section
/-! DEFINITION. What passes with no command: the tick (R16, R17). -/

namespace Sys2Proof.Machine

/-- An idle step: one tick of 4 ns passes. -/
def Block.idle (b : Block) : Block := b.tick

end Sys2Proof.Machine
end

