-- ==== Sys2Proof/Machine/Order.lean ====
section
/-! DEFINITION. Simultaneous events (R19 to R21): the rank of each command's event, its source number, and the order
in which the events of one tick enter the queue. The spec gives the ranks by class of event; which class a command falls in
is read from what the command is (DEDUCED, in the log). -/

namespace Sys2Proof.Machine

/-- The rank of a command's event (R19). -/
def eventRank (i : Instr) : Nat :=
  match i with
  | .powerGoodFall .. | .avsAckTimeout .. | .curbSample .. | .thermalSample .. | .thermalTrip => 1
  | .vxDetection .. | .groupReplay .. | .peerTimeout .. | .beaterPeerTimeout .. | .lenderPathLoss ..
  | .tierTimeout .. | .ideCheckFailure | .ostlerWatchdog .. | .sliceRetirement .. | .stackFill ..
  | .reconstruction .. | .parityRebuild .. | .rowRepair .. | .mapout .. | .scrubRead .. | .laserInputLoss ..
  | .trainingTimeout .. | .lossOfSignal .. | .laneDrop .. | .pauseWatchdog .. => 2
  | .hotReset | .surpriseLinkDown | .perstNAssert | .functionLevelReset | .cxlReset | .d3hotEntry => 3
  | .waitTimeout .. | .vxTimeout .. | .serviceBurst .. | .fillRequest .. | .fillReply .. | .laggedPostcheck ..
  | .clipTimeout .. | .fetchTimeout .. | .drained .. | .cancelArrival .. | .creditGrant .. | .creditRetry ..
  | .relayUnitArrival .. | .migrationPassEnd .. | .flipAbandon .. | .graceExpiry .. | .tlbWalk .. | .frameRebuild ..
  | .pageRemap .. | .rnrRetry .. | .earlyDoorbell .. | .commandCompletion .. | .coalTimeExpiry ..
  | .perstNDeassert | .ideRekeyComplete | .linkUpHost .. | .hostLinkRetrain .. | .pgAuxAssert | .pgMainAssert
  | .pgStackAssert | .pgOptAssert | .romTestDone .. | .initDone .. | .vatAccess .. | .vatAtomic .. | .parityDelta ..
  | .laserSwitchDone .. | .trainingDone .. | .holdTimeout .. | .flitReceive .. | .nak .. | .transportReceive ..
  | .ack .. | .ackTimer .. | .sack .. | .sackRepeat .. | .rtoExpiry .. | .rateIncrease .. | .timeRemeasure ..
  | .portLinkChange .. | .frameReceive .. | .pauseExpiry .. | .pauseRefresh .. | .xon .. | .verifyTimeout ..
  | .transportSegmentSend .. | .quireWrite | .lightPresent .. | .signalBack .. | .laserInputReturn ..
  | .watchdogHoldoffEnd .. | .verifyDone | .tokenVerifyDone | .spdmRequest .. | .sidebandTransfer ..
  | .movesComplete .. | .latchEnd .. | .fetchRequest .. | .revocationNotice .. => 4
  | .telemetryRead .. | .statsRead .. => 5
  | .load .. | .store .. | .matmul .. | .vkern .. | .accOpen .. | .accClose .. | .fence .. | .signal .. | .wait ..
  | .vxNop .. | .halt .. | .jmp .. | .beq .. | .bne .. | .blt .. | .bltu .. | .loop ..
  | .setvl .. | .sadd .. | .ssub .. | .smul .. | .sand .. | .sshl .. | .sshr .. | .ssra .. | .saddi .. | .sli ..
  | .slui .. | .smovv .. | .vld .. | .vst .. | .vlds .. | .vsts .. | .vldx .. | .vstx .. | .sld .. | .sst ..
  | .vadd .. | .vsub .. | .vmul .. | .vfma .. | .vfms .. | .vmin .. | .vmax .. | .vabs .. | .vneg .. | .vand ..
  | .vor .. | .vxor .. | .vshl .. | .vshr .. | .vsra .. | .vcmpeq .. | .vcmplt .. | .vcmple .. | .vcmpun ..
  | .vsel .. | .vmov .. | .viota .. | .vclass .. | .vrsum .. | .vrmax .. | .vramax .. | .vrsumg .. | .vramaxg ..
  | .vperm .. | .vslide .. | .vziplo .. | .vziphi .. | .vunzipe .. | .vunzipo .. | .vbcast .. | .vexp2 .. | .vlog2 ..
  | .vrcp .. | .vrsqrt .. | .vtanh .. | .vsigm .. | .vcvt .. | .vseed .. | .vqnt .. | .vdqnt .. | .lookupPool ..
  | .sortDedup .. | .exchange .. | .scatterUpdate .. | .tableDefine .. | .promote .. | .demote .. | .refresh ..
  | .shardDefine .. | .update .. | .updateStart .. | .fetch .. | .revert .. | .normReduce .. | .groupDefine ..
  | .allReduce .. | .reduceScatter .. | .allGather .. | .broadcast .. | .allToAllV .. | .permute ..
  | .bucketCancel .. | .heldCollectiveStart .. | .attend .. | .attentionJob .. | .pageEditSet ..
  | .pageEditTruncate .. | .pageEditClear .. | .map .. | .unmap .. | .migrate .. | .pin .. | .unpin .. | .lend ..
  | .revoke .. | .snapshot .. | .nop .. | .contextCreate .. | .contextDestroy .. | .configRead .. | .errlogRead ..
  | .traceStart .. | .traceStop .. | .traceMark .. | .traceFlush .. | .tileRetire .. | .adopt .. | .forget ..
  | .send .. | .recvPost .. | .routeSet .. | .linkRetrain .. | .linkDown .. | .linkUp .. | .measure .. | .forceB ..
  | .returnA .. | .macFilterSet .. | .packetFetch .. | .earlyDoorbellRepoll .. | .dispatch .. => 6
  | .spaogDb .. | .spaogCqDb .. | .sqEnableSet .. | .sqEnableClear .. | .spaogSqHead .. | .cqEnableWrite ..
  | .spaogGate .. | .mbxLockRead .. | .mbxLockWrite .. | .mbxLockForce .. | .mbxMsg .. | .mbxTake .. | .mbxDb ..
  | .mbxDbAck .. | .mbxDbMask .. | .msixUnmask .. | .hitchResume | .tileCfgWrite .. | .tileCtlRelease ..
  | .tileCtlFlush .. | .tileFlagWrite .. | .tileVxCfgWrite .. | .forceMapout .. | .vatKeepRelease ..
  | .beaterSbPeekIdx .. | .go | .submit | .stagingWrite .. | .gtimeStep .. | .perfCtlClear .. | .macRawrxHead ..
  | .macRawtxTail .. | .macTxtsPop .. | .droverFlipMaxNs | .curbPowerPeakRead | .ostlerInterruptMaxNs
  | .registerWrite .. | .bar2HdmAccess .. | .peerWrite .. | .peerRead .. | .configurationRequest ..
  | .mbxAccessLock .. | .mbxAccessRelease .. | .mbxAccessWrite .. | .mbxAccessTake .. | .mbxAccessAck ..
  | .mbxAccessPeek .. => 7
  | .traceTrigger .. | .traceCtlTrigger => 8

/-- The source number of a dispatched command. -/
def Block.sourceOfId (b : Block) (id : Nat) : Nat :=
  match b.cmds.find? (fun (c : Cmd) => decide (c.id = id)) with
  | some c => sourceOf c.opcode c.tile
  | none => 0

/-- The stack of an MPA. -/
def Block.stackOf (b : Block) (mpa : Nat) : Nat :=
  match b.place mpa with
  | some p => p.slot.s
  | none => 0

/-- The source number of a command's event (R21). Rank 7 keeps the order in which the Hitch accepted the writes. -/
def Block.eventSource (b : Block) (i : Instr) : Nat :=
  match i with
  | .load id .. | .store id .. | .matmul id .. | .vkern id .. | .accOpen id .. | .accClose id .. | .fence id ..
  | .signal id .. | .wait id .. | .waitTimeout id | .mbxAccessLock id .. | .mbxAccessRelease id ..
  | .mbxAccessWrite id .. | .mbxAccessTake id .. | .mbxAccessAck id .. | .mbxAccessPeek id .. | .groupReplay id ..
  | .lookupPool id .. | .sortDedup id .. | .exchange id .. | .scatterUpdate id .. | .tableDefine id ..
  | .promote id .. | .demote id .. | .refresh id .. | .shardDefine id .. | .update id .. | .updateStart id ..
  | .laggedPostcheck id .. | .clipTimeout id | .fetch id .. | .fetchTimeout id | .revert id .. | .normReduce id ..
  | .groupDefine id .. | .allReduce id .. | .reduceScatter id .. | .allGather id .. | .broadcast id ..
  | .allToAllV id .. | .permute id .. | .bucketCancel id .. | .heldCollectiveStart id | .attend id ..
  | .attentionJob id .. | .pageEditSet id .. | .pageEditTruncate id .. | .pageEditClear id .. | .map id ..
  | .unmap id .. | .migrate id .. | .pin id .. | .unpin id .. | .lend id .. | .revoke id .. | .snapshot id ..
  | .tierTimeout id .. | .nop id | .contextCreate id .. | .contextDestroy id .. | .configRead id ..
  | .telemetryRead id .. | .errlogRead id .. | .traceStart id .. | .traceStop id .. | .traceTrigger id ..
  | .traceMark id .. | .traceFlush id .. | .tileRetire id .. | .adopt id .. | .forget id .. | .send id ..
  | .recvPost id .. | .routeSet id .. | .linkRetrain id .. | .linkDown id .. | .linkUp id .. | .measure id ..
  | .forceB id .. | .returnA id .. | .macFilterSet id .. | .statsRead id .. | .commandCompletion id .. | .latchEnd id => b.sourceOfId id
  | .vxNop n .. | .halt n .. | .jmp n .. | .beq n .. | .bne n .. | .blt n .. | .bltu n .. | .loop n .. | .setvl n ..
  | .sadd n .. | .ssub n .. | .smul n .. | .sand n .. | .sshl n .. | .sshr n .. | .ssra n .. | .saddi n ..
  | .sli n .. | .slui n .. | .smovv n .. | .vld n .. | .vst n .. | .vlds n .. | .vsts n .. | .vldx n .. | .vstx n ..
  | .sld n .. | .sst n .. | .vadd n .. | .vsub n .. | .vmul n .. | .vfma n .. | .vfms n .. | .vmin n .. | .vmax n ..
  | .vabs n .. | .vneg n .. | .vand n .. | .vor n .. | .vxor n .. | .vshl n .. | .vshr n .. | .vsra n ..
  | .vcmpeq n .. | .vcmplt n .. | .vcmple n .. | .vcmpun n .. | .vsel n .. | .vmov n .. | .viota n .. | .vclass n ..
  | .vrsum n .. | .vrmax n .. | .vramax n .. | .vrsumg n .. | .vramaxg n .. | .vperm n .. | .vslide n ..
  | .vziplo n .. | .vziphi n .. | .vunzipe n .. | .vunzipo n .. | .vbcast n .. | .vexp2 n .. | .vlog2 n ..
  | .vrcp n .. | .vrsqrt n .. | .vtanh n .. | .vsigm n .. | .vcvt n .. | .vseed n .. | .vqnt n .. | .vdqnt n ..
  | .vxTimeout n .. | .vxDetection n .. | .serviceBurst n .. | .tileCfgWrite n .. | .tileCtlRelease n
  | .tileCtlFlush n | .tileFlagWrite n .. | .tileVxCfgWrite n .. => n.val
  | .mapout n .. | .scrubRead n .. => 0x040 + n.val
  | .sack n .. | .rateIncrease n .. | .portLinkChange n .. | .frameReceive n .. | .pauseExpiry n ..
  | .pauseRefresh n .. | .xon n .. | .pauseWatchdog n .. | .verifyTimeout n | .watchdogHoldoffEnd n .. => 0x070 + n.val
  | .laserInputLoss n .. | .laserSwitchDone n | .trainingDone n .. | .trainingTimeout n | .lossOfSignal n
  | .holdTimeout n | .flitReceive n .. | .nak n .. | .lightPresent n | .signalBack n | .laserInputReturn n .. => 0x060 + n.val
  | .laneDrop n _ => 0x060 + n.val
  | .vatAccess a => 0x048 + b.stackOf a.mpa
  | .vatAtomic a => 0x048 + b.stackOf a.mpa
  | .sliceRetirement n => 0x048 + n.val / 16
  | .parityDelta a .. | .stackFill a .. | .reconstruction a .. | .parityRebuild a | .rowRepair a .. => 0x040 + b.stackOf a
  | .migrationPassEnd .. | .flipAbandon .. | .graceExpiry .. | .lenderPathLoss .. | .tlbWalk .. | .frameRebuild ..
  | .pageRemap .. | .revocationNotice .. => 0x050
  | .beaterPeerTimeout .. => 0x051
  | .fillRequest .. | .fillReply .. => 0x052
  | .fetchRequest .. => 0x053
  | .drained .. | .cancelArrival .. | .creditGrant .. | .creditRetry .. | .relayUnitArrival .. | .peerTimeout ..
  | .rnrRetry .. | .movesComplete .. | .transportReceive .. | .ack .. | .ackTimer .. | .sackRepeat .. | .rtoExpiry ..
  | .transportSegmentSend .. => 0x054
  | .packetFetch .. | .earlyDoorbellRepoll .. | .earlyDoorbell .. | .dispatch .. | .coalTimeExpiry .. | .hotReset
  | .surpriseLinkDown | .perstNAssert | .perstNDeassert | .functionLevelReset | .cxlReset | .d3hotEntry
  | .ideCheckFailure | .ideRekeyComplete | .linkUpHost .. | .hostLinkRetrain .. => 0x056
  | .curbSample .. | .thermalSample .. | .thermalTrip | .avsAckTimeout .. => 0x057
  | .ostlerWatchdog core => 0x058 + core.val
  | .pgAuxAssert | .pgMainAssert | .pgStackAssert | .pgOptAssert | .powerGoodFall .. | .romTestDone .. | .initDone ..
  | .verifyDone | .tokenVerifyDone | .spdmRequest .. | .sidebandTransfer .. => 0x058
  | .timeRemeasure .. => 0x060
  | .quireWrite | .traceCtlTrigger => 0x080
  | .spaogDb .. | .spaogCqDb .. | .sqEnableSet .. | .sqEnableClear .. | .spaogSqHead .. | .cqEnableWrite ..
  | .spaogGate .. | .mbxLockRead .. | .mbxLockWrite .. | .mbxLockForce .. | .mbxMsg .. | .mbxTake .. | .mbxDb ..
  | .mbxDbAck .. | .mbxDbMask .. | .msixUnmask .. | .hitchResume | .forceMapout .. | .vatKeepRelease ..
  | .beaterSbPeekIdx .. | .go | .submit | .stagingWrite .. | .gtimeStep .. | .perfCtlClear .. | .macRawrxHead ..
  | .macRawtxTail .. | .macTxtsPop .. | .droverFlipMaxNs | .curbPowerPeakRead | .ostlerInterruptMaxNs
  | .registerWrite .. | .bar2HdmAccess .. | .peerWrite .. | .peerRead .. | .configurationRequest .. => 0

/-- What orders the mailbox accesses of one tick (R95): host accesses and every other write keep the order in which the Hitch accepted
them, and the accesses of cores and tiles follow by owner number (R92). -/
def Block.ownerPlace (b : Block) (i : Instr) : Nat :=
  match i with
  | .mbxLockRead _ a | .mbxLockWrite _ a | .mbxLockForce _ a _ | .mbxMsg _ a _ | .mbxTake _ a | .mbxDb _ a _ | .mbxDbAck _ a _
  | .mbxDbMask _ a _ => if hostAgent a then 0 else a
  | .mbxAccessLock id .. | .mbxAccessRelease id .. | .mbxAccessWrite id .. | .mbxAccessTake id .. | .mbxAccessAck id ..
  | .mbxAccessPeek id .. =>
    match b.cmds.find? (fun (c : Cmd) => decide (c.id = id)) with
    | some c => 128 + c.tile
    | none => 0
  | _ => 0

/-- The place of a command's event among those of its rank (R21, R95). -/
def Block.eventPlace (b : Block) (i : Instr) : Nat := if eventRank i = 7 then b.ownerPlace i else b.eventSource i

/-- Whether `x` may come before `y` in one tick: ascending rank, and within a rank ascending place (R19, R21). -/
def Block.eventBefore (b : Block) (x y : Instr) : Bool :=
  decide (eventRank x < eventRank y) || (decide (eventRank x = eventRank y) && decide (b.eventPlace x ≤ b.eventPlace y))

/-- The events of one tick in the order in which they apply; those of one rank and place keep their order. -/
def Block.orderTick (b : Block) (cs : List Instr) : List Instr := orderBy b.eventBefore cs

/-- The simultaneous events `cs` enter the queue. -/
def State.offer (s : State) (cs : List Instr) : State := { s with pending := s.pending ++ s.blk.orderTick cs }

end Sys2Proof.Machine
end

