-- ==== Sys2Proof/WellFormed.lean ====
section
/-! DEFINITION. Well-formed commands: a packet's parameters fit the bits that its chapter's "Command encodings" give
them (chapters 05 to 19), and the operands of the other rows keep to the sizes that their rules give. -/

namespace Sys2Proof

/-- Each value fits its number of bits. -/
def fits (l : List (Nat × Nat)) : Bool := l.all (fun x => decide (x.1 < 2 ^ x.2))

def CopyParams.wf (p : CopyParams) : Bool :=
  fits [(p.va, 56), (p.tsAddr, 32), (p.rowBytes, 32), (p.rows, 32), (p.tsStride, 32), (p.vaStride, 56),
    (p.hint, 2), (p.useCount, 8)]

def MatmulParams.wf (p : MatmulParams) : Bool :=
  fits [(p.aAddr, 32), (p.bAddr, 32), (p.saAddr, 32), (p.sbAddr, 32), (p.m, 16), (p.n, 16), (p.k, 32), (p.fmtA, 4),
    (p.fmtB, 4), (p.sfmtA, 4), (p.sfmtB, 4), (p.g, 2), (p.group, 3), (p.rowOff, 16), (p.aStride, 32),
    (p.bStride, 32)]

def VkernParams.wf (p : VkernParams) : Bool :=
  fits [(p.codeVa, 56), (p.codeWords, 16), (p.imemAddr, 16), (p.entry, 16), (p.nargs, 8), (p.rdLo, 32),
    (p.rdHi, 32), (p.wrLo, 32), (p.wrHi, 32), (p.maxCycles, 32)]
    && decide (p.args.length ≤ p.nargs) && p.args.all (fun a => decide (a < 2 ^ 64))

def AccOpenParams.wf (p : AccOpenParams) : Bool :=
  fits [(p.group, 3), (p.entry, 8), (p.init, 8), (p.firstRow, 16), (p.rows, 16), (p.initAddr, 32)]

def AccCloseParams.wf (p : AccCloseParams) : Bool :=
  fits [(p.group, 3), (p.slot, 16), (p.dest, 32), (p.destStride, 32)]

def FenceParams.wf (p : FenceParams) : Bool := fits [(p.mask, 8)]

def SignalParams.wf (p : SignalParams) : Bool :=
  fits [(p.kind, 8), (p.index, 8), (p.flag, 8)]

def WaitParams.wf (p : WaitParams) : Bool :=
  fits [(p.flag, 8), (p.value, 32), (p.timeoutUs, 32)]

def MbxAccessParams.wf (p : MbxAccessParams) : Bool :=
  fits [(p.op, 8), (p.mbx, 8), (p.value, 32), (p.resultAddr, 32)]

def LookupParams.wf (p : LookupParams) : Bool :=
  fits [(p.listVa, 56), (p.count, 16), (p.hint, 2), (p.group, 14), (p.epoch, 8), (p.bucket, 16), (p.workVa, 56),
    (p.workBytes, 64), (p.statsVa, 56)]

def SortParams.wf (p : SortParams) : Bool :=
  fits [(p.listVa, 56), (p.count, 16), (p.mode, 8), (p.outVa, 56), (p.outBytes, 64), (p.invVa, 56), (p.workVa, 56),
    (p.workBytes, 64), (p.statsVa, 56)]

def ExchangeParams.wf (p : ExchangeParams) : Bool :=
  fits [(p.inVa, 56), (p.outVa, 56), (p.outBytes, 64), (p.group, 14), (p.epoch, 8), (p.bucket, 16)]

def ScatterParams.wf (p : ScatterParams) : Bool :=
  fits [(p.inVa, 56), (p.workVa, 56), (p.workBytes, 64), (p.hint, 2), (p.statsVa, 56)]

def TableParams.wf (p : TableParams) : Bool :=
  fits [(p.table, 12), (p.fmt, 8), (p.stateFmt, 8), (p.width, 16), (p.rule, 8), (p.rows, 64), (p.baseVa, 56),
    (p.localRows, 64), (p.group, 14), (p.shard, 8), (p.owner, 16), (p.hyperVa, 56)]

def PromoteParams.wf (p : PromoteParams) : Bool :=
  fits [(p.group, 14), (p.epoch, 8), (p.bucket, 16), (p.cand, 32), (p.maxNew, 32), (p.heat, 32), (p.keys, 32),
    (p.keyVa, 56), (p.outVa, 56), (p.statsVa, 56)]

def RefreshParams.wf (p : RefreshParams) : Bool :=
  fits [(p.group, 14), (p.epoch, 8), (p.bucket, 16), (p.statsVa, 56)]

def ShardParams.wf (p : ShardParams) : Bool :=
  fits [(p.shard, 16), (p.wfmt, 8), (p.stateFmt, 8), (p.rule, 8), (p.mode, 8), (p.depth, 8), (p.elems, 64),
    (p.baseVa, 56), (p.hyperVa, 56), (p.tgroup, 16), (p.group, 14), (p.owner, 16), (p.seedFmt, 8), (p.seedG, 2),
    (p.trustElems, 32), (p.seedSrc, 16)]

def UpdateParams.wf (p : UpdateParams) : Bool :=
  fits [(p.listVa, 56), (p.count, 16), (p.clip, 8), (p.clipSlot, 4), (p.cstep, 32), (p.group, 14), (p.epoch, 8),
    (p.bucket, 16)]

def FetchParams.wf (p : FetchParams) : Bool :=
  fits [(p.shard, 16), (p.parts, 8), (p.version, 32), (p.destVa, 56), (p.timeoutUs, 32), (p.hint, 2),
    (p.useCount, 8)]

def RevertParams.wf (p : RevertParams) : Bool :=
  fits [(p.shard, 16), (p.version, 32)]

def GroupParams.wf (p : GroupParams) : Bool :=
  fits [(p.group, 14), (p.epoch, 8), (p.members, 16), (p.listVa, 56)]

def CollParams.wf (p : CollParams) : Bool :=
  fits [(p.group, 14), (p.epoch, 8), (p.bucket, 16), (p.algo, 8), (p.fmt, 4), (p.outFmt, 4), (p.bytes, 32),
    (p.pass, 8), (p.passes, 8), (p.srcFmt, 8), (p.hint, 2), (p.bucketVa, 56), (p.srcVa, 64), (p.outVa, 56),
    (p.useCount, 8), (p.root, 16)]

def A2aParams.wf (p : A2aParams) : Bool :=
  fits [(p.group, 14), (p.epoch, 8), (p.bucket, 16), (p.sendCountsVa, 56), (p.sendVa, 56), (p.recvVa, 56),
    (p.recvBytes, 64), (p.recvCountsVa, 56)]

def PermuteParams.wf (p : PermuteParams) : Bool :=
  fits [(p.group, 14), (p.epoch, 8), (p.moves, 32), (p.movesVa, 56), (p.baseVa, 56), (p.workVa, 56),
    (p.workBytes, 64)]

def CancelParams.wf (p : CancelParams) : Bool :=
  fits [(p.group, 14), (p.epoch, 8), (p.bucket, 16)]

def AttendParams.wf (p : AttendParams) : Bool :=
  fits [(p.mode, 8), (p.qFmt, 4), (p.kvFmt, 4), (p.outFmt, 4), (p.d, 16), (p.rDim, 16), (p.gqa, 8), (p.hPage, 8),
    (p.head0, 8), (p.hCmd, 8), (p.scale, 32), (p.window, 32), (p.nseq, 16), (p.seqVa, 56), (p.ropeVa, 56),
    (p.tiles, 64), (p.tsLo, 32), (p.workVa, 56), (p.workBytes, 64)]

def PageEditParams.wf (p : PageEditParams) : Bool :=
  fits [(p.slot, 16), (p.op, 8), (p.first, 32), (p.count, 32), (p.srcVa, 56)]

def MapParams.wf (p : MapParams) : Bool :=
  fits [(p.va, 56), (p.size, 64), (p.obj, 16), (p.tier, 8), (p.lend, 8)]

def ObjParams.wf (p : ObjParams) : Bool :=
  fits [(p.obj, 16)]

def MigrateParams.wf (p : MigrateParams) : Bool :=
  fits [(p.obj, 16), (p.tier, 8), (p.lend, 8)]

def LendParams.wf (p : LendParams) : Bool :=
  fits [(p.rank, 14), (p.lendId, 8), (p.guarded, 8), (p.pages, 32)]

def RevokeParams.wf (p : RevokeParams) : Bool :=
  fits [(p.lendId, 8)]

def SnapshotParams.wf (p : SnapshotParams) : Bool :=
  fits [(p.obj, 16), (p.count, 16), (p.tier, 8), (p.lend, 8), (p.version, 32), (p.dest, 64), (p.manifest, 64)]

def CtxCreateParams.wf (p : CtxCreateParams) : Bool :=
  fits [(p.ctx, 8), (p.tiles, 64)]

def CtxDestroyParams.wf (p : CtxDestroyParams) : Bool :=
  fits [(p.ctx, 8)]

def ConfigReadParams.wf (p : ConfigReadParams) : Bool :=
  fits [(p.item, 8), (p.destVa, 56), (p.capacity, 32)]

def TelemetryParams.wf (p : TelemetryParams) : Bool :=
  fits [(p.blocks, 32), (p.destVa, 56), (p.capacity, 32)]

def ErrlogReadParams.wf (p : ErrlogReadParams) : Bool :=
  fits [(p.firstSeq, 32), (p.count, 32), (p.destVa, 56)]

def TraceParams.wf (p : TraceParams) : Bool :=
  fits [(p.op, 8), (p.marker, 32), (p.value, 64)]

def TileRetireParams.wf (p : TileRetireParams) : Bool :=
  fits [(p.tile, 8)]

def RemountParams.wf (p : RemountParams) : Bool :=
  fits [(p.role, 8), (p.rank, 14)]

def SendParams.wf (p : SendParams) : Bool :=
  fits [(p.dest, 14), (p.queue, 8), (p.hint, 2), (p.srcVa, 56), (p.bytes, 32)]

def RecvParams.wf (p : RecvParams) : Bool :=
  fits [(p.src, 16), (p.queue, 8), (p.hint, 2), (p.bufVa, 56), (p.bufBytes, 32)]

def RouteParams.wf (p : RouteParams) : Bool :=
  fits [(p.first, 16), (p.count, 32), (p.srcVa, 56)]

def LinkParams.wf (p : LinkParams) : Bool :=
  fits [(p.engine, 8), (p.op, 8)]

def FilterParams.wf (p : FilterParams) : Bool :=
  fits [(p.mac, 8), (p.table, 8), (p.first, 16), (p.count, 16), (p.srcVa, 56)]

def StatsParams.wf (p : StatsParams) : Bool :=
  fits [(p.mac, 8), (p.destVa, 56)]

/-- The parameters of a packet fit their encoding. -/
def Params.wf (p : Params) : Bool :=
  match p with
  | .load p => p.wf
  | .store p => p.wf
  | .matmul p => p.wf
  | .vkern p => p.wf
  | .accOpen p => p.wf
  | .accClose p => p.wf
  | .fence p => p.wf
  | .signal p => p.wf
  | .wait p => p.wf
  | .mbxAccess p => p.wf
  | .lookupPool p => p.wf
  | .sortDedup p => p.wf
  | .exchange p => p.wf
  | .scatterUpdate p => p.wf
  | .promote p => p.wf
  | .demote p => p.wf
  | .refresh p => p.wf
  | .tableDefine p => p.wf
  | .shardDefine p => p.wf
  | .update p => p.wf
  | .fetch p => p.wf
  | .revert p => p.wf
  | .normReduce p => p.wf
  | .groupDefine p => p.wf
  | .allReduce p => p.wf
  | .reduceScatter p => p.wf
  | .allGather p => p.wf
  | .broadcast p => p.wf
  | .allToAllV p => p.wf
  | .permute p => p.wf
  | .bucketCancel p => p.wf
  | .attend p => p.wf
  | .pageEdit p => p.wf
  | .map p => p.wf
  | .unmap p => p.wf
  | .migrate p => p.wf
  | .pin p => p.wf
  | .unpin p => p.wf
  | .lend p => p.wf
  | .revoke p => p.wf
  | .snapshot p => p.wf
  | .nop => true
  | .contextCreate p => p.wf
  | .contextDestroy p => p.wf
  | .configRead p => p.wf
  | .telemetryRead p => p.wf
  | .errlogRead p => p.wf
  | .traceControl p => p.wf
  | .tileRetire p => p.wf
  | .remountPrepare p => p.wf
  | .send p => p.wf
  | .recvPost p => p.wf
  | .routeSet p => p.wf
  | .linkControl p => p.wf
  | .macFilterSet p => p.wf
  | .statsRead p => p.wf
  | .bad => true

/-- A command is well-formed: its parameters fit; a register access is a naturally aligned one of 4 or 8 bytes within
BAR0 (R26, R27); a staging write stays in the window (R26); a Vat access stays in one line (R228). -/
def Instr.wf (i : Instr) : Bool :=
  match i with
  | .load _ p => p.wf
  | .store _ p _ => p.wf
  | .matmul _ p _ _ => p.wf
  | .vkern _ p => p.wf
  | .accOpen _ p _ => p.wf
  | .accClose _ p _ => p.wf
  | .fence _ p => p.wf
  | .signal _ p => p.wf
  | .wait _ p => p.wf
  | .mbxAccessLock _ p => p.wf
  | .mbxAccessRelease _ p => p.wf
  | .mbxAccessWrite _ p => p.wf
  | .mbxAccessTake _ p => p.wf
  | .mbxAccessAck _ p => p.wf
  | .mbxAccessPeek _ p => p.wf
  | .lookupPool _ p _ _ => p.wf
  | .sortDedup _ p _ => p.wf
  | .exchange _ p _ => p.wf
  | .scatterUpdate _ p _ _ => p.wf
  | .tableDefine _ p => p.wf
  | .promote _ p _ => p.wf
  | .demote _ p _ => p.wf
  | .refresh _ p _ => p.wf
  | .shardDefine _ p => p.wf
  | .update _ p => p.wf
  | .fetch _ p => p.wf
  | .revert _ p _ => p.wf
  | .normReduce _ p => p.wf
  | .groupDefine _ p => p.wf
  | .allReduce _ p => p.wf
  | .reduceScatter _ p => p.wf
  | .allGather _ p => p.wf
  | .broadcast _ p => p.wf
  | .allToAllV _ p => p.wf
  | .permute _ p => p.wf
  | .bucketCancel _ p => p.wf
  | .attend _ p => p.wf
  | .pageEditSet _ p => p.wf
  | .pageEditTruncate _ p => p.wf
  | .pageEditClear _ p => p.wf
  | .map _ p => p.wf
  | .unmap _ p => p.wf
  | .migrate _ p => p.wf
  | .pin _ p => p.wf
  | .unpin _ p => p.wf
  | .lend _ p => p.wf
  | .revoke _ p => p.wf
  | .snapshot _ p => p.wf
  | .contextCreate _ p => p.wf
  | .contextDestroy _ p => p.wf
  | .configRead _ p => p.wf
  | .telemetryRead _ p => p.wf
  | .errlogRead _ p => p.wf
  | .traceStart _ p => p.wf
  | .traceStop _ p => p.wf
  | .traceTrigger _ p => p.wf
  | .traceMark _ p => p.wf
  | .traceFlush _ p => p.wf
  | .tileRetire _ p => p.wf
  | .adopt _ p => p.wf
  | .forget _ p => p.wf
  | .send _ p => p.wf
  | .recvPost _ p => p.wf
  | .routeSet _ p => p.wf
  | .linkRetrain _ p => p.wf
  | .linkDown _ p => p.wf
  | .linkUp _ p => p.wf
  | .measure _ p _ => p.wf
  | .forceB _ p => p.wf
  | .returnA _ p => p.wf
  | .macFilterSet _ p => p.wf
  | .statsRead _ p => p.wf
  | .registerWrite offset size _ => (decide (size = 4) || decide (size = 8)) && decide (offset % size = 0) && decide (offset < 2 ^ 26)
  | .stagingWrite offset data => decide (offset + data.length ≤ 2 ^ 25)
  | .vatAccess a => decide (0 < a.size) && decide (a.mpa % 128 + a.size ≤ 128) && fits [(a.hint, 2), (a.uses, 8), (a.ctx, 4)]
  | .vatAtomic a => decide (0 < a.value.length) && decide (a.mpa % 128 + a.value.length ≤ 128) && fits [(a.hint, 2), (a.uses, 8), (a.ctx, 4)]
  | .waitTimeout .. | .vxNop .. | .halt .. | .jmp .. | .beq .. | .bne .. | .blt .. | .bltu .. | .loop .. | .setvl ..
  | .sadd .. | .ssub .. | .smul .. | .sand .. | .sshl .. | .sshr .. | .ssra .. | .saddi .. | .sli .. | .slui ..
  | .smovv .. | .vld .. | .vst .. | .vlds .. | .vsts .. | .vldx .. | .vstx .. | .sld .. | .sst .. | .vadd ..
  | .vsub .. | .vmul .. | .vfma .. | .vfms .. | .vmin .. | .vmax .. | .vabs .. | .vneg .. | .vand .. | .vor ..
  | .vxor .. | .vshl .. | .vshr .. | .vsra .. | .vcmpeq .. | .vcmplt .. | .vcmple .. | .vcmpun .. | .vsel ..
  | .vmov .. | .viota .. | .vclass .. | .vrsum .. | .vrmax .. | .vramax .. | .vrsumg .. | .vramaxg .. | .vperm ..
  | .vslide .. | .vziplo .. | .vziphi .. | .vunzipe .. | .vunzipo .. | .vbcast .. | .vexp2 .. | .vlog2 .. | .vrcp ..
  | .vrsqrt .. | .vtanh .. | .vsigm .. | .vcvt .. | .vseed .. | .vqnt .. | .vdqnt .. | .vxTimeout ..
  | .vxDetection .. | .serviceBurst .. | .groupReplay .. | .fillRequest .. | .fillReply .. | .updateStart ..
  | .laggedPostcheck .. | .clipTimeout .. | .fetchTimeout .. | .drained .. | .cancelArrival ..
  | .heldCollectiveStart .. | .creditGrant .. | .creditRetry .. | .relayUnitArrival .. | .peerTimeout ..
  | .beaterPeerTimeout .. | .attentionJob .. | .migrationPassEnd .. | .flipAbandon .. | .graceExpiry ..
  | .lenderPathLoss .. | .tierTimeout .. | .tlbWalk .. | .frameRebuild .. | .pageRemap .. | .nop .. | .rnrRetry ..
  | .packetFetch .. | .earlyDoorbellRepoll .. | .earlyDoorbell .. | .dispatch .. | .commandCompletion ..
  | .coalTimeExpiry .. | .spaogDb .. | .spaogCqDb .. | .sqEnableSet .. | .sqEnableClear .. | .spaogSqHead ..
  | .cqEnableWrite .. | .spaogGate .. | .mbxLockRead .. | .mbxLockWrite .. | .mbxLockForce .. | .mbxMsg ..
  | .mbxTake .. | .mbxDb .. | .mbxDbAck .. | .mbxDbMask .. | .msixUnmask .. | .hitchResume .. | .tileCfgWrite ..
  | .tileCtlRelease .. | .tileCtlFlush .. | .tileFlagWrite .. | .tileVxCfgWrite .. | .forceMapout ..
  | .vatKeepRelease .. | .beaterSbPeekIdx .. | .go .. | .submit .. | .gtimeStep .. | .perfCtlClear ..
  | .traceCtlTrigger .. | .macRawrxHead .. | .macRawtxTail .. | .macTxtsPop .. | .droverFlipMaxNs ..
  | .curbPowerPeakRead .. | .ostlerInterruptMaxNs .. | .bar2HdmAccess .. | .peerWrite .. | .peerRead ..
  | .hotReset .. | .surpriseLinkDown .. | .perstNAssert .. | .perstNDeassert .. | .functionLevelReset ..
  | .cxlReset .. | .d3hotEntry .. | .ideCheckFailure .. | .ideRekeyComplete .. | .linkUpHost .. | .hostLinkRetrain ..
  | .pgAuxAssert .. | .pgMainAssert .. | .pgStackAssert .. | .pgOptAssert .. | .powerGoodFall .. | .romTestDone ..
  | .initDone .. | .avsAckTimeout .. | .curbSample .. | .thermalSample .. | .thermalTrip .. | .ostlerWatchdog ..
  | .parityDelta .. | .sliceRetirement .. | .stackFill .. | .reconstruction .. | .parityRebuild .. | .rowRepair ..
  | .mapout .. | .scrubRead .. | .laserInputLoss .. | .laserSwitchDone .. | .trainingDone .. | .trainingTimeout ..
  | .lossOfSignal .. | .holdTimeout .. | .laneDrop .. | .flitReceive .. | .nak .. | .transportReceive .. | .ack ..
  | .ackTimer .. | .sack .. | .sackRepeat .. | .rtoExpiry .. | .rateIncrease .. | .timeRemeasure ..
  | .portLinkChange .. | .frameReceive .. | .pauseExpiry .. | .pauseRefresh .. | .xon .. | .pauseWatchdog ..
  | .verifyTimeout .. | .transportSegmentSend .. | .quireWrite .. | .lightPresent .. | .signalBack ..
  | .laserInputReturn .. | .watchdogHoldoffEnd .. | .verifyDone .. | .tokenVerifyDone .. | .spdmRequest ..
  | .sidebandTransfer .. | .movesComplete .. | .latchEnd .. | .fetchRequest .. | .revocationNotice ..
  | .configurationRequest .. => true

end Sys2Proof
end

