-- ==== Sys2Proof/Safety.lean ====
section
/-! DEFINITION. The terms in which claims about the block are stated: when the module acts at all, when a command of an engine
may start, when a host access reaches its register, when an instruction of a kernel is the next to issue, when a collective
enters flight, and what a change may touch. -/

namespace Sys2Proof.Machine

/-! ### The module acts -/

/-- The module takes actions: no power-good fall, thermal trip or silent regulator has stopped it (R472, R543, R548). -/
def State.live (s : State) : Prop := s.blk.boot.stopped = false

/-- `s` with another block, its queue as it stands. -/
def State.withBlk (s : State) (b : Block) : State := { s with blk := b }

/-! ### Commands of an engine -/

/-- Command `id` is `c`, carries the parameters `p`, waits at its engine, and nothing holds engines back: no module fault, no
power-good fall, no cut in pause mode (R52, R472, R501), and no earlier command of its ring and engine (R80). -/
structure Block.Starts (b : Block) (id : Nat) (p : Params) (c : Cmd) : Prop where
  found : b.findCmd id = some c
  params : c.params = p
  waits : c.phase = .waiting
  free : b.mayStart = true
  turn : b.inRingOrder c = true

/-- The block in which a command that starts has its start time. -/
def Block.launched (b : Block) (id : Nat) : Block := b.updCmd id (fun c => { c with startT := b.clk.t })

/-- Command `i` of number `id` and parameters `p` completes: wherever it starts (on a ring of context 0, if `ctx0`) and its action `m`
succeeds, its record has the action's status, detail and engine value. -/
def Concludes (i : Instr) (id : Nat) (p : Params) (ctx0 : Bool) (m : Cmd → Act (Nat × Nat × Nat)) : Prop :=
  ∀ (s : State) (c : Cmd) (r : Nat × Nat × Nat) (b : Block), s.live → s.blk.Starts id p c → (ctx0 = true → c.ctx = 0) →
    m c (s.blk.launched id) = (.ok r, b) → exec i s = .next (s.withBlk (b.finish id r.1 r.2.1 r.2.2))

/-- A command of a tile that starts: the sequencer's conditions hold (R128, R129) and no field is out of range (R127). -/
structure Block.TileStarts (b : Block) (id : Nat) (p : Params) (c : Cmd) : Prop where
  starts : b.Starts id p c
  ready : b.tileReady c = true
  inRange : ((b.launched id).plan c).bad = none

/-- The block in which a command of a tile runs, its tile-store ranges held (R129). -/
def Block.entered (b : Block) (id : Nat) (c : Cmd) : Block :=
  (b.launched id).updCmd id (fun x => { x with spans := ((b.launched id).plan c).spans, phase := .running })

/-- A collective of tag (group, epoch, bucket) may go on in group `gs`: the group is defined for the command's context, its epoch is
current, and the tag is not cancelled (R361, R385, R389). -/
structure Block.CollOpen (b : Block) (c : Cmd) (g e k : Nat) (gs : GroupSt) : Prop where
  defined : b.groupErr c.ctx g = none
  group : b.group? g = some gs
  epoch : c.opcode = 0x0407 ∨ epochState e gs.epoch = 0
  open_ : b.cancelled (tagOf g e k) = false

/-- A collective that enters flight: its tag is not in flight, and there is room (R364, R365). -/
structure Block.CollEnters (b : Block) (c : Cmd) (g e k : Nat) (gs : GroupSt) : Prop extends b.CollOpen c g e k gs where
  fresh : b.coll (tagOf g e k) = none
  room : b.collRoom c.ctx = true
  turn : b.isHeld c.id = true ∨ b.roomHeld c.ctx c.id = false

/-! ### Host accesses -/

/-- The block in which a host write has been counted (PERF_HOST_WR). -/
def Block.hostWrote (b : Block) : Block := b.count .PERF_HOST_WR_COUNT 0 1

/-- A host write to BAR0 offset `off` that reaches its register: the link is up (R56), the security mode admits it (R486), BAR0
serves the offset (R473), and its unit is there (R28). -/
structure Block.HostWrites (b : Block) (off : Nat) : Prop where
  up : b.flag .HITCH_STATUS_LINK_UP = true
  secure : b.hostWrote.secureOk off = true
  served : b.hostWrote.flag .OSTLER_BOOT_STATUS_READY = true ∨ earlyOffset off = true
  there : b.hostWrote.unitGone off = false

/-- A host read of BAR0 offset `off` that reaches its register. -/
structure Block.HostReads (b : Block) (off : Nat) : Prop where
  up : b.flag .HITCH_STATUS_LINK_UP = true
  secure : b.secureOk off = true
  served : b.flag .OSTLER_BOOT_STATUS_READY = true ∨ earlyOffset off = true
  there : b.unitGone off = false

/-- Command `i`, a host write to BAR0 offset `off`, completes: wherever it reaches its register, its effect is `f`. -/
def HostDoes (i : Instr) (off : Nat) (f : Block → Block) : Prop :=
  ∀ s : State, s.live → s.blk.HostWrites off → exec i s = .next (s.withBlk (f s.blk.hostWrote))

/-- Command `i`, a host read of `n` bytes at BAR0 offset `off`, completes: wherever it reaches its register, it is answered with the value
that `f` gives, and leaves the block that `f` gives. -/
def HostGets (i : Instr) (off n : Nat) (f : Block → Nat × Block) : Prop :=
  ∀ s : State, s.live → s.blk.HostReads off → exec i s = .next (s.withBlk ((f s.blk).2.answer (bytesOf n (f s.blk).1)))

/-- A mailbox access of agent `a` that reaches its register: a host agent's over the link, an Ostler core's at once (R92, chapter 03). -/
def Block.Reaches (b : Block) (a off : Nat) : Prop := (hostAgent a = true ∧ b.HostWrites off) ∨ coreAgent a = true

/-- The BAR0 offset of a host write, for the rows that are one. -/
def hostWriteOf (i : Instr) : Option Nat :=
  match i with
  | .spaogDb n _ => some (0x100000 + 64 * n.val)
  | .spaogCqDb n _ => some (0x104000 + 64 * n.val)
  | .sqEnableSet n _ | .sqEnableClear n _ => some (sqOffset n 8)
  | .spaogSqHead n _ => some (sqOffset n 16)
  | .cqEnableWrite n _ => some (0x112010 + 32 * n.val)
  | .spaogGate g _ => some (0x120000 + 8 * g.val)
  | .mbxLockWrite n a => if hostAgent a then some (lockOffset n a) else none
  | .mbxLockForce n a _ => if hostAgent a then some (mbxOffset n 0x1C) else none
  | .mbxMsg n a _ => if hostAgent a then some (mbxOffset n 0) else none
  | .mbxDb n a _ => if hostAgent a then some (mbxOffset n 0x20) else none
  | .mbxDbAck n a _ => if hostAgent a then some (mbxOffset n 0x24) else none
  | .mbxDbMask n a _ => if hostAgent a then some (mbxOffset n 0x28) else none
  | .msixUnmask n => some (0x24000C + 16 * n.val)
  | .hitchResume => some 0x200018
  | .tileCfgWrite n _ => some (tileOffset n 8)
  | .tileCtlRelease n | .tileCtlFlush n => some (tileOffset n 0x10)
  | .tileFlagWrite n k _ => some (tileOffset n (0x100 + 8 * k.val))
  | .tileVxCfgWrite n _ => some (tileOffset n 0x60)
  | .forceMapout n _ => some (0xA00018 + 0x40000 * n.val)
  | .vatKeepRelease _ => some 0x800010
  | .beaterSbPeekIdx _ => some 0xD81000
  | .go => some 0x10008
  | .submit => some 0x10060
  | .gtimeStep _ => some 0x1800108
  | .perfCtlClear _ => some 0x1801600
  | .traceCtlTrigger => some 0x1800020
  | .macRawrxHead m _ => some (macBase m + 0xD0)
  | .macRawtxTail m _ => some (macBase m + 0xF0)
  | .stagingWrite o l => if o + l.length ≤ 0x2000000 then some (0x2000000 + o) else none
  | .registerWrite o n _ => if o < 0x4000000 ∧ (n = 4 ∨ n = 8) ∧ o % n = 0 then some o else none
  | _ => none

/-! ### The vector engine -/

/-- The cycle at which an instruction of tile `n` issues, and the engine with its lanes and port taken (R170, R187, R188). -/
def Block.vxIssue (b : Block) (n : Nat) (op : BitVec 8) (f : VxFields) (stall : Nat) : Nat × Vx :=
  let x := (b.tile n).vx
  x.issueAt (vxForm op f) f (b.rget .TILE_VX_CFG_SHARE n) (if b.flag .CURB_STATUS_VGAP && !x.replayed then stall else 0)

/-- The engine as an instruction finds it: its lanes and port taken, its cycle and PC past the instruction. -/
def Block.vxFetched (b : Block) (n : Nat) (op : BitVec 8) (f : VxFields) (stall : Nat) : Vx :=
  let r := b.vxIssue n op f stall
  { r.2 with cyc := r.1 + 1, pc := (b.tile n).vx.pc + 1, done := max r.2.done (r.1 + (vxForm op f).lat) }

/-- Kernel `c` with parameters `p` runs on tile `n`, its next word spells a legal instruction with these fields, and the
instruction issues before MAX_CYCLES (R167, R170, R184). -/
structure Block.VxRuns (b : Block) (n : Nat) (op : BitVec 8) (f : VxFields) (stall : Nat) (c : Cmd) (p : VkernParams) : Prop where
  kernel : b.kernel n = some (c, p)
  word : Sparse.get (always 0) (b.tile n).vx.imem (b.tile n).vx.pc = vxEncode op f
  legal : (vxForm op f).legal f = true
  inTime : pastMax p (b.vxIssue n op f stall).1 = false

/-- Block `b'`, in which an instruction of tile `n` has left the engine as `z`: the registers that it writes become ready when it
completes, and the kernel goes on with the next word. -/
def Block.vxRetired (b b' : Block) (n : Nat) (op : BitVec 8) (f : VxFields) (stall : Nat) (z : Vx) : Block :=
  let lat := (b.vxIssue n op f stall).1 + (vxForm op f).lat
  (b'.setVx n { z with ready := ((vxForm op f).dests f).foldl (fun a k =>
    Sparse.set (always 0) a k (max (Sparse.get (always 0) a k) lat)) z.ready }).vxSettle n

/-- Command `i` is the instruction `op` with fields `f` on tile `tile`, and it completes: wherever it is the next instruction of a
running kernel, legal and in time, it answers a next state in which the engine is `g` of the engine that it finds. -/
def VxDoes (i : Instr) (tile : Fin 64) (op : BitVec 8) (f : VxFields) (stall : Nat) (g : Vx → Vx) : Prop :=
  ∀ (s : State) (c : Cmd) (p : VkernParams), s.live → s.blk.VxRuns tile op f stall c p →
    exec i s = .next (s.withBlk (s.blk.vxRetired s.blk tile op f stall (g (s.blk.vxFetched tile op f stall))))

/-- A vector load completes when every word lies in a window and meets no parity error: the words below VL come from the tile store
(R155, R169, R171). -/
def VxLoads (i : Instr) (tile : Fin 64) (op : BitVec 8) (f : VxFields) (par : Option Nat) (cycles : List Nat → Nat)
    (as : Vx → List Nat) : Prop :=
  ∀ (s : State) (c : Cmd) (p : VkernParams), s.live → s.blk.VxRuns tile op f 0 c p →
    let y := s.blk.vxFetched tile op f 0
    vxFirstBad p (y.pc - 1) 4 false (as y) = none → vxParity (as y) 4 par = none →
    exec i s = .next (s.withBlk (s.blk.vxRetired s.blk tile op f 0
      ((y.setElems f.rd 7 0 ((as y).map (fun a => (s.blk.tile tile).store.readNat a 4))).takePort (cycles (as y)) (some f.rd))))

/-- A vector store completes when every word lies in the write window: the words of V[D] below VL go to the tile store (R171, R172). -/
def VxStores (i : Instr) (tile : Fin 64) (op : BitVec 8) (f : VxFields) (cycles : List Nat → Nat) (as : Vx → List Nat) : Prop :=
  ∀ (s : State) (c : Cmd) (p : VkernParams), s.live → s.blk.VxRuns tile op f 0 c p →
    let y := s.blk.vxFetched tile op f 0
    vxFirstBad p (y.pc - 1) 4 true (as y) = none →
    exec i s = .next (s.withBlk (s.blk.vxRetired
      (s.blk.onTile tile (fun t => { t with store := vxStoreWords y f.rd 0 (as y) t.store })) tile op f 0 (y.takePort (cycles (as y)) none)))

/-! ### Rows -/

/-- The number of the command that a row starts, for the rows that start one. -/
def startOf (i : Instr) : Option Nat :=
  match i with
  | .load id .. | .store id .. | .matmul id .. | .vkern id .. | .accOpen id .. | .accClose id .. | .fence id ..
  | .signal id .. | .wait id .. | .mbxAccessLock id .. | .mbxAccessRelease id .. | .mbxAccessWrite id ..
  | .mbxAccessTake id .. | .mbxAccessAck id .. | .mbxAccessPeek id .. | .lookupPool id .. | .sortDedup id ..
  | .exchange id .. | .scatterUpdate id .. | .tableDefine id .. | .promote id .. | .demote id .. | .refresh id ..
  | .shardDefine id .. | .update id .. | .fetch id .. | .revert id .. | .normReduce id .. | .groupDefine id ..
  | .allReduce id .. | .reduceScatter id .. | .allGather id .. | .broadcast id .. | .allToAllV id .. | .permute id ..
  | .bucketCancel id .. | .attend id .. | .pageEditSet id .. | .pageEditTruncate id .. | .pageEditClear id ..
  | .map id .. | .unmap id .. | .migrate id .. | .pin id .. | .unpin id .. | .lend id .. | .revoke id ..
  | .snapshot id .. | .nop id .. | .contextCreate id .. | .contextDestroy id .. | .configRead id ..
  | .telemetryRead id .. | .errlogRead id .. | .traceStart id .. | .traceStop id .. | .traceTrigger id ..
  | .traceMark id .. | .traceFlush id .. | .tileRetire id .. | .adopt id .. | .forget id .. | .send id ..
  | .recvPost id .. | .routeSet id .. | .linkRetrain id .. | .linkDown id .. | .linkUp id .. | .measure id ..
  | .forceB id .. | .returnA id .. | .macFilterSet id .. | .statsRead id .. => some id
  | _ => none

/-- The tile of an instruction of the vector engine. -/
def vxTileOf (i : Instr) : Option (Fin 64) :=
  match i with
  | .vxNop n .. | .halt n .. | .jmp n .. | .beq n .. | .bne n .. | .blt n .. | .bltu n .. | .loop n .. | .setvl n ..
  | .sadd n .. | .ssub n .. | .smul n .. | .sand n .. | .sshl n .. | .sshr n .. | .ssra n .. | .saddi n ..
  | .sli n .. | .slui n .. | .smovv n .. | .vld n .. | .vst n .. | .vlds n .. | .vsts n .. | .vldx n .. | .vstx n ..
  | .sld n .. | .sst n .. | .vadd n .. | .vsub n .. | .vmul n .. | .vfma n .. | .vfms n .. | .vmin n .. | .vmax n ..
  | .vabs n .. | .vneg n .. | .vand n .. | .vor n .. | .vxor n .. | .vshl n .. | .vshr n .. | .vsra n ..
  | .vcmpeq n .. | .vcmplt n .. | .vcmple n .. | .vcmpun n .. | .vsel n .. | .vmov n .. | .viota n .. | .vclass n ..
  | .vrsum n .. | .vrmax n .. | .vramax n .. | .vrsumg n .. | .vramaxg n .. | .vperm n .. | .vslide n ..
  | .vziplo n .. | .vziphi n .. | .vunzipe n .. | .vunzipo n .. | .vbcast n .. | .vexp2 n .. | .vlog2 n ..
  | .vrcp n .. | .vrsqrt n .. | .vtanh n .. | .vsigm n .. | .vcvt n .. | .vseed n .. | .vqnt n .. | .vdqnt n .. => some n
  | _ => none

/-- The address of the parity error that a load of the vector engine meets. -/
def vxPar (i : Instr) : Option Nat :=
  match i with
  | .vld _ _ par | .vlds _ _ par | .vldx _ _ par | .sld _ _ par => par
  | _ => none

/-- Whether an instruction of the vector engine stores to the tile store. -/
def vxStoreRow (i : Instr) : Bool :=
  match i with
  | .vst .. | .vsts .. | .vstx .. | .sst .. => true
  | _ => false

/-! ### Memory -/

/-- The error-log entry of a line that is recovered (R203, R213). -/
def lineErr (pl : Place) (mpa unit : Nat) : ErrIn :=
  { source := 0x40 + pl.slot.s, cls := 0x09, outcome := 0, mpa := true, tag := pl.slot.tag, addr := mpa / 128 * 128, unit := unit }

/-! ### What a change touches -/

/-- `b'` differs from `b` at most in registers and in what a unit signals: the Hitch's pending vectors, the error log, the trace unit,
messages that leave the module. -/
def Block.onlySignals (b b' : Block) : Prop :=
  b' = { b with regs := b'.regs, hitch := b'.hitch, errlog := b'.errlog, trace := b'.trace, out := b'.out }

/-- The registers that signalling changes: counters, pending bits, error-log and trace status. -/
def signalRegs : List RegId :=
  [.MSIX_PBA, .PERF_MSIX, .SPAOG_EVT_PEND, .TRACE_STATUS, .TRACE_DROPPED, .OSTLER_ERRLOG_STATUS, .OSTLER_RETURNED,
   .OSTLER_STEP_RESTARTS, .OSTLER_ABSORBED, .OSTLER_INTERRUPT_MAX_NS, .PERF_CTR, .PERF_STATUS, .PERF_HOST_WR, .PERF_HOST_RD]

/-- Two elements' fields that share no bit. -/
def Fld.apart (f : Fld) (i : Nat) (g : Fld) (j : Nat) : Prop :=
  f.reg.key (f.word i) ≠ g.reg.key (g.word j) ∨ f.lo % 64 + f.width ≤ g.lo % 64 ∨ g.lo % 64 + g.width ≤ f.lo % 64

/-- `b'` differs from `b` at most in the fields `ws` (each of one element), in the registers that signalling changes, and in what a
unit signals. -/
structure Block.OnlyRegs (ws : List (Fld × Nat)) (b b' : Block) : Prop where
  rest : b.onlySignals b'
  regs : ∀ (g : Fld) (j : Nat), g.word j < 2 ^ 24 → g.reg ∉ signalRegs → (∀ p ∈ ws, p.1.apart p.2 g j) → b'.rget g j = b.rget g j

end Sys2Proof.Machine
end

