-- ==== Sys2Proof/Certificates/Slice0/Obligations.lean ====
section
/-! DEFINITION. The statements about the block. -/

section

open Sys2Proof Sys2Proof.Machine

/-- The control and scalar instructions complete with these registers (R165, R170): a branch changes the PC, the others write
S[D]; shifts take bits [5:0] of S[B]. -/
def Obligations.VxScalarResults : Prop := ∀ (tile : Fin 64) (f : VxFields),
  VxDoes (.vxNop tile f) tile 0x00 f 0 (fun y => y) ∧
  VxDoes (.jmp tile f) tile 0x02 f 0 (fun y => y.jump (vxTarget (y.sreg f.ra + f.imm64))) ∧
  VxDoes (.beq tile f) tile 0x03 f 0 (fun y => if y.sreg f.rd = y.sreg f.rb then y.jump (vxTarget f.imm64) else y) ∧
  VxDoes (.bne tile f) tile 0x04 f 0 (fun y => if y.sreg f.rd = y.sreg f.rb then y else y.jump (vxTarget f.imm64)) ∧
  VxDoes (.blt tile f) tile 0x05 f 0 (fun y => if (y.sreg f.rd).slt (y.sreg f.rb) then y.jump (vxTarget f.imm64) else y) ∧
  VxDoes (.bltu tile f) tile 0x06 f 0 (fun y => if (y.sreg f.rd).ult (y.sreg f.rb) then y.jump (vxTarget f.imm64) else y) ∧
  VxDoes (.loop tile f) tile 0x07 f 0 (fun y =>
      let z := y.setS f.rd (y.sreg f.rd - 1)
      if z.sreg f.rd ≠ 0 then { z with pc := vxTarget f.imm64 } else z) ∧
  VxDoes (.setvl tile f) tile 0x08 f 0 (fun y =>
      { y.setS f.rd (BitVec.ofNat 64 (min (y.sreg f.ra).toNat 512)) with vl := min (y.sreg f.ra).toNat 512 }) ∧
  VxDoes (.sadd tile f) tile 0x10 f 0 (fun y => y.setS f.rd (y.sreg f.ra + y.sreg f.rb)) ∧
  VxDoes (.ssub tile f) tile 0x11 f 0 (fun y => y.setS f.rd (y.sreg f.ra - y.sreg f.rb)) ∧
  VxDoes (.smul tile f) tile 0x12 f 0 (fun y => y.setS f.rd (y.sreg f.ra * y.sreg f.rb)) ∧
  VxDoes (.sand tile f) tile 0x13 f 0 (fun y => y.setS f.rd (y.sreg f.ra &&& y.sreg f.rb)) ∧
  VxDoes (.sshl tile f) tile 0x14 f 0 (fun y => y.setS f.rd (y.sreg f.ra <<< ((y.sreg f.rb).toNat % 64))) ∧
  VxDoes (.sshr tile f) tile 0x15 f 0 (fun y => y.setS f.rd (y.sreg f.ra >>> ((y.sreg f.rb).toNat % 64))) ∧
  VxDoes (.ssra tile f) tile 0x16 f 0 (fun y => y.setS f.rd ((y.sreg f.ra).sshiftRight ((y.sreg f.rb).toNat % 64))) ∧
  VxDoes (.saddi tile f) tile 0x17 f 0 (fun y => y.setS f.rd (y.sreg f.ra + f.imm64)) ∧
  VxDoes (.sli tile f) tile 0x18 f 0 (fun y => y.setS f.rd f.imm64) ∧
  VxDoes (.slui tile f) tile 0x19 f 0 (fun y => y.setS f.rd ((y.sreg f.rd <<< 24) ||| f.imm.zeroExtend 64)) ∧
  VxDoes (.smovv tile f) tile 0x1A f 0 (fun y => y.setS f.rd (BitVec.ofNat 64 (y.word f.ra (f.immU % 512))))

/-- The lane instructions complete: elements of D below VL hold the result of R168, R173 to R175 and the instruction table. -/
def Obligations.VxLaneResults : Prop := ∀ (tile : Fin 64) (f : VxFields) (stall : Nat),
  VxDoes (.vadd tile f stall) tile 0x40 f stall (vxBin f (vxArith f FVal.add (fun a b => a + b))) ∧
  VxDoes (.vsub tile f stall) tile 0x41 f stall (vxBin f (vxArith f FVal.sub (fun a b => a - b))) ∧
  VxDoes (.vmul tile f stall) tile 0x42 f stall (vxBin f (vxArith f FVal.mul (fun a b => a * b))) ∧
  VxDoes (.vfma tile f stall) tile 0x43 f stall (vxFused f false) ∧
  VxDoes (.vfms tile f stall) tile 0x44 f stall (vxFused f true) ∧
  VxDoes (.vmin tile f stall) tile 0x45 f stall (vxBin f (vxArith f FVal.least (fun a b => min a b))) ∧
  VxDoes (.vmax tile f stall) tile 0x46 f stall (vxBin f (vxArith f FVal.greatest (fun a b => max a b))) ∧
  VxDoes (.vabs tile f stall) tile 0x47 f stall (vxUn f (fun a => vxArith f (fun x _ => x.abs) (fun x _ => x.natAbs) a 0)) ∧
  VxDoes (.vneg tile f stall) tile 0x48 f stall (vxUn f (fun a => vxArith f (fun x _ => x.neg) (fun x _ => -x) a 0)) ∧
  VxDoes (.vand tile f stall) tile 0x49 f stall (vxBin f (fun a b => a &&& b)) ∧
  VxDoes (.vor tile f stall) tile 0x4A f stall (vxBin f (fun a b => a ||| b)) ∧
  VxDoes (.vxor tile f stall) tile 0x4B f stall (vxBin f (fun a b => a ^^^ b)) ∧
  VxDoes (.vshl tile f stall) tile 0x4C f stall (vxBin f (fun a b => a * 2 ^ (b % fmtBits f.fm) % 2 ^ fmtBits f.fm)) ∧
  VxDoes (.vshr tile f stall) tile 0x4D f stall (vxBin f (fun a b => a / 2 ^ (b % fmtBits f.fm))) ∧
  VxDoes (.vsra tile f stall) tile 0x4E f stall (vxBin f (fun a b => ofSigned (fmtBits f.fm) (toSigned (fmtBits f.fm) a / 2 ^ (b % fmtBits f.fm)))) ∧
  VxDoes (.vcmpeq tile f stall) tile 0x4F f stall (vxCompare f FVal.eq (fun a b => decide (a = b))) ∧
  VxDoes (.vcmplt tile f stall) tile 0x50 f stall (vxCompare f FVal.lt (fun a b => decide (a < b))) ∧
  VxDoes (.vcmple tile f stall) tile 0x51 f stall (vxCompare f (fun a b => FVal.lt a b || FVal.eq a b) (fun a b => decide (a ≤ b))) ∧
  VxDoes (.vcmpun tile f stall) tile 0x52 f stall (vxCompare f (fun a b => a.isNan || b.isNan) (fun _ _ => false)) ∧
  VxDoes (.vsel tile f stall) tile 0x53 f stall (vxLanes f (fun x i =>
      if bitAt (x.elem f.rc f.fm i) (fmtBits f.fm - 1) then x.elem f.ra f.fm i else x.opB f i)) ∧
  VxDoes (.vmov tile f stall) tile 0x54 f stall (vxLanes f (fun x i => if f.bcast then x.opB f i else x.elem f.ra f.fm i)) ∧
  VxDoes (.viota tile f stall) tile 0x55 f stall (vxLanes f (fun x i => ((x.sreg f.ra).toNat + i) % 2 ^ 32)) ∧
  VxDoes (.vclass tile f stall) tile 0x56 f stall (vxUn f (vxClassBits f.fm))

/-- The whole-register reductions, the shuffles and the transcendental functions complete (R169, R176, R177). -/
def Obligations.VxWholeResults : Prop := ∀ (tile : Fin 64) (f : VxFields) (stall : Nat),
  VxDoes (.vrsum tile f stall) tile 0x60 f stall (vxReduce f (vxSum f) 0) ∧
  VxDoes (.vrmax tile f stall) tile 0x61 f stall (vxReduce f (vxMaxOf f) (if fmtIsFloat f.fm then 0xFF800000 else 0x80000000)) ∧
  VxDoes (.vramax tile f stall) tile 0x62 f stall (vxReduce f vxAmaxOf 0) ∧
  VxDoes (.vperm tile f stall) tile 0x68 f stall (vxShuffle f (fun x w => x.word f.ra (x.word f.rb w % 512))) ∧
  VxDoes (.vslide tile f stall) tile 0x69 f stall (vxShuffle f (fun x w =>
      let k := w + f.immU % 512
      if k < 512 then x.word f.ra k else x.word f.rb (k - 512))) ∧
  VxDoes (.vziplo tile f stall) tile 0x6A f stall (vxMove f (fun _ i => (decide (i % 2 = 1), i / 2))) ∧
  VxDoes (.vziphi tile f stall) tile 0x6B f stall (vxMove f (fun m i => (decide (i % 2 = 1), i / 2 + m / 2))) ∧
  VxDoes (.vunzipe tile f stall) tile 0x6C f stall (vxMove f (fun m i => (decide (m / 2 ≤ i), 2 * (i % (m / 2))))) ∧
  VxDoes (.vunzipo tile f stall) tile 0x6D f stall (vxMove f (fun m i => (decide (m / 2 ≤ i), 2 * (i % (m / 2)) + 1))) ∧
  VxDoes (.vbcast tile f stall) tile 0x6E f stall (fun x => x.setElems f.rd 7 0 (List.replicate 512 (x.word f.ra (f.immU % 512)))) ∧
  VxDoes (.vexp2 tile f stall) tile 0x70 f stall (vxUn f (transExp2 f.fm)) ∧
  VxDoes (.vlog2 tile f stall) tile 0x71 f stall (vxUn f (transLog2 f.fm)) ∧
  VxDoes (.vrcp tile f stall) tile 0x72 f stall (vxUn f (transRcp f.fm)) ∧
  VxDoes (.vrsqrt tile f stall) tile 0x73 f stall (vxUn f (transRsqrt f.fm)) ∧
  VxDoes (.vtanh tile f stall) tile 0x74 f stall (vxUn f (transTanh f.fm)) ∧
  VxDoes (.vsigm tile f stall) tile 0x75 f stall (vxUn f (transSigm f.fm))

/-- The memory instructions complete inside the kernel's windows (R171, R172). -/
def Obligations.VxMemoryResults : Prop := ∀ (tile : Fin 64) (f : VxFields) (par : Option Nat),
  VxLoads (.vld tile f par) tile 0x30 f par (fun _ => 2) (fun y => y.addrs (fun w => y.addr f + BitVec.ofNat 64 (4 * w))) ∧
  VxStores (.vst tile f) tile 0x31 f (fun _ => 2) (fun y => y.addrs (fun w => y.addr f + BitVec.ofNat 64 (4 * w))) ∧
  VxLoads (.vlds tile f par) tile 0x32 f par bankCycles (fun y => y.addrs (fun w => y.addr f + BitVec.ofNat 64 w * y.sreg f.rb)) ∧
  VxStores (.vsts tile f) tile 0x33 f bankCycles (fun y => y.addrs (fun w => y.addr f + BitVec.ofNat 64 w * y.sreg f.rb)) ∧
  VxLoads (.vldx tile f par) tile 0x34 f par bankCycles
    (fun y => y.addrs (fun w => y.addr f + BitVec.ofNat 64 (y.word f.rb w))) ∧
  VxStores (.vstx tile f) tile 0x35 f bankCycles (fun y => y.addrs (fun w => y.addr f + BitVec.ofNat 64 (y.word f.rb w))) ∧
  (∀ (s : State) (c : Cmd) (p : VkernParams), s.live → s.blk.VxRuns tile 0x36 f 0 c p →
    let y := s.blk.vxFetched tile 0x36 f 0
    let a := (y.addr f).toNat
    a % 8 = 0 → vxMay p a 8 false = true → vxParity [a] 8 par = none →
    exec (.sld tile f par) s = .next (s.withBlk (s.blk.vxRetired s.blk tile 0x36 f 0
      (y.setS f.rd (BitVec.ofNat 64 ((s.blk.tile tile).store.readNat a 8)))))) ∧
  (∀ (s : State) (c : Cmd) (p : VkernParams), s.live → s.blk.VxRuns tile 0x37 f 0 c p →
    let y := s.blk.vxFetched tile 0x37 f 0
    let a := (y.addr f).toNat
    a % 8 = 0 → vxMay p a 8 true = true →
    exec (.sst tile f) s = .next (s.withBlk (s.blk.vxRetired
      (s.blk.onTile tile (fun t => { t with store := t.store.writeNat a 8 (y.sreg f.rd).toNat })) tile 0x37 f 0 y)))

/-- The group reductions, conversions and group-scale instructions complete where their IMM codes are legal (R115, R119, R121, R169,
R176, R178 to R180): the stochastic roundings of VCVT and VQNT draw one free value per element. -/
def Obligations.VxConvertResults : Prop := ∀ (tile : Fin 64) (f : VxFields) (stall : Nat) (s : State) (c : Cmd) (p : VkernParams), s.live →
  let draws := s.blk.free.draws
  (s.blk.VxRuns tile 0x63 f stall c p → f.groupOk = true →
    let y := s.blk.vxFetched tile 0x63 f stall
    let l := vxReduceIn f 0 y
    exec (.vrsumg tile f stall) s = .next (s.withBlk (s.blk.vxRetired s.blk tile 0x63 f stall
      (vxReduceOut f ((runsOf f.group (l.length / f.group) l).map (treeOf (vxSum f))) y)))) ∧
  (s.blk.VxRuns tile 0x64 f stall c p → f.groupOk = true →
    let y := s.blk.vxFetched tile 0x64 f stall
    let l := vxReduceIn f 0 y
    exec (.vramaxg tile f stall) s = .next (s.withBlk (s.blk.vxRetired s.blk tile 0x64 f stall
      (vxReduceOut f ((runsOf f.group (l.length / f.group) l).map (treeOf vxAmaxOf)) y)))) ∧
  (s.blk.VxRuns tile 0x80 f stall c p → cvtOk f = true →
    let y := s.blk.vxFetched tile 0x80 f stall
    let r := vxConvert f ((List.range (cvtCount f.src f.fm)).map (fun i =>
      cvtCode f.src f.fm (vxRnd f (draws + i)) (decide (f.sat = 1)) (y.elem f.ra f.src (cvtFrom f + i)))) y s.blk (cvtTo f)
    exec (.vcvt tile f stall) s = .next (s.withBlk (s.blk.vxRetired r.2 tile 0x80 f stall r.1))) ∧
  (s.blk.VxRuns tile 0x81 f stall c p → inF32 f.src = true → f.groupOk = true →
    (f.part + 1) * (cvtCount f.src f.fm / f.group) ≤ 512 → (cvtBits f.fm ≤ cvtBits f.src ∨ f.part < cvtSegs f.src f.fm) →
    let y := s.blk.vxFetched tile 0x81 f stall
    let z := y.setElems f.rd 0 (f.part * (cvtCount f.src f.fm / f.group)) ((vseedGroups f y).map (fun q => q.1))
    exec (.vseed tile f stall) s = .next (s.withBlk (s.blk.vxRetired s.blk tile 0x81 f stall
      { z with special := z.special || (vseedGroups f y).any (fun q => q.2) }))) ∧
  (s.blk.VxRuns tile 0x82 f stall c p → cvtOk f = true → inF32 f.src = true → f.groupOk = true →
    let y := s.blk.vxFetched tile 0x82 f stall
    let n := cvtCount f.src f.fm
    let r := vxConvert f ((List.range n).map (fun i =>
      vqntElem f (vxRnd f (draws + i)) (y.elem f.ra f.src (cvtFrom f + i)) (y.word f.rb (scaleWord f n i)))) y s.blk (cvtTo f)
    exec (.vqnt tile f stall) s = .next (s.withBlk (s.blk.vxRetired r.2 tile 0x82 f stall r.1))) ∧
  (s.blk.VxRuns tile 0x83 f stall c p → cvtOk f = true → inF32 f.src = true → f.groupOk = true →
    let y := s.blk.vxFetched tile 0x83 f stall
    let r := vxConvert f ((List.range 512).map (fun i =>
      vdqntElem f.src (y.elem f.ra f.src (cvtFrom f + i)) (y.word f.rb (scaleWord f 512 i)))) y s.blk 0
    exec (.vdqnt tile f stall) s = .next (s.withBlk (s.blk.vxRetired r.2 tile 0x83 f stall r.1)))

/-- The start and the ends of a kernel, a detection in it and a service burst complete (R181 to R187, R191 to R195): HALT ends it with
the record of R195, MAX_CYCLES with VX_TIMEOUT; a first detection of a replayable kernel starts it again. -/
def Obligations.VxKernelResults : Prop :=
  (∀ (s : State) (id : Nat) (p : VkernParams) (c : Cmd), s.live → s.blk.TileStarts id (.vkern p) c →
    exec (.vkern id p) s = .next (s.withBlk
      (((if p.resetBusy then (s.blk.entered id c).rset .TILE_VEC_BUSY_COUNT c.tile 0 else s.blk.entered id c).vxBegin c p none).notePrim
        c.tile))) ∧
  (∀ (s : State) (tile : Fin 64) (f : VxFields) (c : Cmd) (p : VkernParams), s.live → s.blk.VxRuns tile 0x01 f 0 c p →
    s.blk.haltLate tile = false →
    let r := s.blk.vxIssue tile 0x01 f 0
    let y := s.blk.vxFetched tile 0x01 f 0
    exec (.halt tile f) s = .next (s.withBlk ((s.blk.setVx tile { r.2 with cyc := r.1 }).vxEnd c 0 0
      (f.immU % 2 ^ 16 + (b2n y.special + 2 * b2n y.replayed) * 2 ^ 16 + min 0xFFFFFFFF y.haltEnd * 2 ^ 32)))) ∧
  (∀ (s : State) (tile : Fin 64) (stall : Nat) (c : Cmd) (p : VkernParams), s.live → s.blk.kernel tile = some (c, p) →
    let x := (s.blk.tile tile).vx
    let w := Sparse.get (always 0) x.imem x.pc
    (vxForm (vxOpcode w) (vxDecode w)).legal (vxDecode w) = true → pastMax p (s.blk.vxIssue tile (vxOpcode w) (vxDecode w) stall).1 = true →
    exec (.vxTimeout tile stall) s = .next (s.withBlk
      ((s.blk.advanceTo (c.startT + ceilDiv (p.maxCycles * 32) 5)).vxEnd c 0x1008 x.pc (p.maxCycles % 2 ^ 32 * 2 ^ 32)))) ∧
  (∀ (s : State) (tile : Fin 64) (imem : Bool) (c : Cmd) (p : VkernParams), s.live → s.blk.kernel tile = some (c, p) →
    replayable p = true → (imem = true → p.codeWords ≠ 0) → (s.blk.tile tile).vx.replayed = false →
    let b := s.blk.count .TILE_VX_DETECT_COUNT tile 1
    exec (.vxDetection tile imem) s = .next (s.withBlk ((b.count .TILE_VX_REPLAYS_COUNT tile 1).vxBegin c
      (if imem then p else { p with codeWords := 0 }) (some (b.count .TILE_VX_REPLAYS_COUNT tile 1).now))) ) ∧
  (∀ (s : State) (tile : Fin 64) (cycles : Nat) (data : List (BitVec 8)), s.live → s.blk.faulted = false → s.blk.tileWorks tile = true →
    s.blk.flag .TILE_VX_CFG_SVC_EN tile = true → data.length ≤ 16384 → (s.blk.tile tile).vx.cmd.isSome = true →
    let x := (s.blk.tile tile).vx
    exec (.serviceBurst tile cycles data false) s = .next (s.withBlk
      (s.blk.setVx tile { x with svc := x.svc.writeBytes 0 data, svcWait := x.svcWait + cycles })))

/-- LOAD and STORE complete with OK and the byte count where every access succeeds (R161, R162); a STORE meets no parity error. -/
def Obligations.CopyResults : Prop :=
  (∀ (s : State) (id : Nat) (p : CopyParams) (c : Cmd) (b : Block), s.live → s.blk.TileStarts id (.load p) c →
    loadParts (c.port p.hint p.useCount) c.tile p.parts (s.blk.entered id c) = (.ok (), b) →
    exec (.load id p) s = .next (s.withBlk ((b.finish id 0 0 (p.rows * p.rowBytes % 2 ^ 32)).notePrim c.tile))) ∧
  (∀ (s : State) (id : Nat) (p : CopyParams) (par : Option Nat) (c : Cmd) (b : Block), s.live → s.blk.TileStarts id (.store p) c →
    storeParts (c.port p.hint p.useCount) c.tile (parityHit ((s.blk.entered id c).plan c).spans par) p.parts (s.blk.entered id c) =
      (.ok none, b) →
    exec (.store id p par) s = .next (s.withBlk ((b.finish id 0 0 (p.rows * p.rowBytes % 2 ^ 32)).notePrim c.tile)))

/-- A MATMUL into an open group of its entry type that has room executes; ACC_OPEN opens a free group; ACC_CLOSE discards or drains an
open one; GROUP_REPLAY computes a group again and drains it (R111, R136 to R141, R153). -/
def Obligations.GroupResults : Prop :=
  (∀ (s : State) (id : Nat) (p : MatmulParams) (par : Option Nat) (upset : List (Nat × Nat × BitVec 32)) (c : Cmd), s.live →
    s.blk.TileStarts id (.matmul p) c →
    let b := s.blk.entered id c
    let m := b.accMode c.tile
    let g := b.group c.tile (p.key m)
    g.isOpen = true → g.failed = none → g.matmuls.length < 256 → g.isInt = (p.isInt && !p.scaled) →
    (if m.legacy then 0 else p.rowOff) + ceilDiv p.n 64 * p.m ≤ g.rows → parityHit (b.plan c).spans par = none →
    exec (.matmul id p par upset) s = .next (s.withBlk ((b.runMatmul c p (p.key m) upset).notePrim c.tile))) ∧
  (∀ (s : State) (id : Nat) (p : AccOpenParams) (par : Option Nat) (c : Cmd), s.live → s.blk.TileStarts id (.accOpen p) c →
    let b := s.blk.entered id c
    let m := b.accMode c.tile
    let g := b.newGroup c.tile p m
    b.openClash c.tile (p.key m) g.base g.rows = false → parityHit (b.plan c).spans par = none →
    let r := g.start (b.tile c.tile).store (b.tile c.tile).acc
    exec (.accOpen id p par) s = .next (s.withBlk
      ((((b.setTile c.tile { b.tile c.tile with acc := r.2 }).setGroup c.tile (p.key m) r.1).finish id 0 0 0).notePrim c.tile))) ∧
  (∀ (s : State) (id : Nat) (p : AccCloseParams) (upset : List (Nat × Nat × BitVec 32)) (c : Cmd), s.live →
    s.blk.TileStarts id (.accClose p) c →
    let b := s.blk.entered id c
    let k := p.key (b.accMode c.tile)
    let g := b.group c.tile k
    g.isOpen = true → g.failed = none →
    (p.discard = true → exec (.accClose id p upset) s = .next (s.withBlk (((b.releaseGroup c.tile k).finish id 0 0 0).notePrim c.tile))) ∧
    (p.discard = false → tsAddr p.dest + (g.rows - 1) * p.destStride + 64 * g.entry - 1 ≤ tsLast →
      exec (.accClose id p upset) s = .next (s.withBlk
        (((b.onTile c.tile (fun t => { t with acc := g.upset t.acc upset })).drain c p k).notePrim c.tile)))) ∧
  (∀ (s : State) (id : Nat) (p : AccCloseParams) (par : Option Nat) (upset : List (Nat × Nat × BitVec 32)) (c : Cmd), s.live →
    s.blk.findCmd id = some c → c.params = .accClose p → c.phase = .running →
    (s.blk.group c.tile (p.key (s.blk.accMode c.tile))).closing = some id → s.blk.replayReady c = true →
    exec (.groupReplay id par upset) s = .next (s.withBlk
      ((s.blk.replay c p (p.key (s.blk.accMode c.tile)) par upset).notePrim c.tile)))

/-- FENCE completes once the commands that it names have completed, SIGNAL gives its flag or doorbell bit to its completion event, WAIT
completes once its flag has reached VALUE, and a WAIT that is not satisfied ends after TIMEOUT_US with the tile HELD (R156 to R159). -/
def Obligations.OrderResults : Prop :=
  (∀ (s : State) (id : Nat) (p : FenceParams) (c : Cmd), s.live → s.blk.TileStarts id (.fence p) c →
    (s.blk.entered id c).fenceClear c p.mask = true →
    exec (.fence id p) s = .next (s.withBlk (((s.blk.entered id c).finish id 0 0 0).notePrim c.tile))) ∧
  (∀ (s : State) (id : Nat) (p : SignalParams) (c : Cmd), s.live → s.blk.TileStarts id (.signal p) c →
    let b := s.blk.entered id c
    (p.kind = 0 → b.tileWorks p.index = true → b.rget .TILE_CFG_CTX p.index = c.ctx →
      exec (.signal id p) s = .next (s.withBlk (((b.addEffect id (.flag p.index p.flag)).finish id 0 0 0).notePrim c.tile))) ∧
    (p.kind = 1 →
      exec (.signal id p) s = .next (s.withBlk (((b.addEffect id (.doorbell p.index p.flag)).finish id 0 0 0).notePrim c.tile)))) ∧
  (∀ (s : State) (id : Nat) (p : WaitParams) (c : Cmd), s.live → s.blk.TileStarts id (.wait p) c →
    let b := s.blk.entered id c
    reached 32 p.value (b.flagVal c.tile p.flag) = true →
    exec (.wait id p) s = .next (s.withBlk
      (((b.updCmd id (fun x => { x with startT := b.clk.t })).finish id 0 0 (b.flagVal c.tile p.flag)).notePrim c.tile))) ∧
  (∀ (s : State) (id : Nat) (p : WaitParams) (c : Cmd), s.live → s.blk.findCmd id = some c → c.params = .wait p → c.phase = .running →
    p.timeoutUs ≠ 0 → reached 32 p.value (s.blk.flagVal c.tile p.flag) = false →
    let b := s.blk.advanceTo (c.startT + p.timeoutUs * usec)
    exec (.waitTimeout id) s = .next (s.withBlk
      ((b.finish id 0x1002 0 (b.flagVal c.tile p.flag)).rset .TILE_STATUS_STATE c.tile 2)))

/-- MBX_ACCESS completes with the result of its operation, written to RESULT_ADDR unless that is 0xFFFFFFFF (R93, R94, R97, R98, R160). -/
def Obligations.MbxAccessResults : Prop := ∀ (s : State) (id : Nat) (p : MbxAccessParams) (c : Cmd), s.live →
  s.blk.TileStarts id (.mbxAccess p) c →
  let b := s.blk.entered id c
  let ends := fun (r : Nat × Block) => s.withBlk
    (((if p.resultAddr = 0xFFFFFFFF then r.2 else r.2.tsWrite c.tile p.resultAddr (bytesOf 8 r.1)).finish id 0 0 r.1).notePrim c.tile)
  (p.op = 0 → exec (.mbxAccessLock id p) s = .next (ends (b.mbxLockTry p.mbx (128 + c.tile)))) ∧
  (p.op = 1 → exec (.mbxAccessRelease id p) s =
    .next (ends (b.rget .MBX_STATUS_OWNER p.mbx, b.mbxRelease p.mbx (128 + c.tile)))) ∧
  (p.op = 2 → exec (.mbxAccessWrite id p) s = .next (ends (b2n (!b.flag .MBX_STATUS_FULL p.mbx), b.mbxPut p.mbx p.value))) ∧
  (p.op = 3 → exec (.mbxAccessTake id p) s = .next (ends (b.mbxTakeOut p.mbx))) ∧
  (p.op = 4 → exec (.mbxAccessAck id p) s = .next (ends (b.rget .MBX_DB_BITS p.mbx, b.mbxAck p.mbx p.value))) ∧
  (p.op = 5 → exec (.mbxAccessPeek id p) s =
    .next (ends (b.word .MBX_STATUS p.mbx % 2 ^ 32 + b.rget .MBX_DB_BITS p.mbx * 2 ^ 32, b)))

/-- The Beater's commands on this module complete: TABLE_DEFINE defines or removes a table, and LOOKUP_POOL of local tables, SORT_DEDUP and
SCATTER_UPDATE go through the sorter once their lists are read (R274, R277, R283, R288). -/
def Obligations.BeaterLocalResults : Prop :=
  (∀ (s : State) (id : Nat) (p : TableParams) (c : Cmd), s.live → s.blk.Starts id (.tableDefine p) c →
    Block.beaterTurn c s.blk = true →
    let b := s.blk.launched id
    let ofTable := fun (e : SbEntry) => e.valid && decide (e.ctx = c.ctx) && decide (e.table = p.table)
    b.sbWhere (fun e => ofTable e && e.inGroup) = [] →
    (p.undefine = true → (b.table? c.ctx p.table).isSome = true →
      exec (.tableDefine id p) s = .next (s.withBlk
        (((b.setTable c.ctx p.table none).sbFreeWhere ofTable).finish c.id 0 0 0).beaterRegs)) ∧
    (∀ n self, p.undefine = false → p.bad = false → b.tableGroup p = some (n, self) → p.ownRows n self ≤ p.localRows →
      (p.shard = 3 → p.owner < n) → b.mappedFor c.ctx p.baseVa (p.localRows * p.recBytes) = true →
      exec (.tableDefine id p) s = .next (s.withBlk
        (((b.setTable c.ctx p.table (some p)).sbFreeWhere ofTable).finish c.id 0 0 (halves p.recBytes p.look)).beaterRegs))) ∧
  (∀ (s : State) (id : Nat) (p : LookupParams) (det : Fin 3) (bad : List Nat) (c : Cmd) (l : List LookEntry) (b : Block), s.live →
    s.blk.Starts id (.lookupPool p) c → s.blk.isHeld c.id = false → Block.beaterTurn c s.blk = true →
    p.count ≠ 0 → p.count ≤ 4096 → p.hint ≠ 3 → p.workVa % 64 = 0 →
    readList c p.listVa p.count (s.blk.launched id) = (.ok l, b) →
    l.filterMap (fun e => (b.table? c.ctx e.table).bind (fun d => if d.shard = 0 then none else some d)) = [] →
    exec (.lookupPool id p det bad) s = .next (s.withBlk
      ((b.sbFails bad).afterSort c l p.badSkip det (fun ds b => b.lookSorted c p l none ds)).beaterRegs)) ∧
  (∀ (s : State) (id : Nat) (p : SortParams) (det : Fin 3) (c : Cmd) (l : List LookEntry) (b : Block), s.live →
    s.blk.Starts id (.sortDedup p) c → Block.beaterTurn c s.blk = true → p.count ≠ 0 → p.count ≤ 4096 → p.mode ≤ 1 →
    readList c p.listVa p.count (s.blk.launched id) = (.ok l, b) →
    exec (.sortDedup id p det) s = .next (s.withBlk
      (b.afterSort c l p.badSkip det (fun ds b => b.sortSorted c p l ds)).beaterRegs)) ∧
  (∀ (s : State) (id : Nat) (p : ScatterParams) (det : Fin 3) (bad : List Nat) (c : Cmd) (l : List GradEntry) (b b' : Block)
      (r : Scattered), s.live → s.blk.Starts id (.scatterUpdate p) c → Block.beaterTurn c s.blk = true → p.hint ≠ 3 → det.val ≠ 2 →
    readGradList c p.inVa (s.blk.launched id) = (.ok l, b) →
    (∀ e ∈ l, ∀ d, b.table? c.ctx (keyTable e.key) = some d → d.rule ≠ 0) → 16 * l.length + 65536 ≤ p.workBytes →
    let ds := l.foldl (fun a e => sumGrad e a) []
    scatterAct c p l.length ds
      ((((b.sbFails bad).count .BEATER_KEYS_COUNT 0 l.length).count .BEATER_DISTINCT_COUNT 0 ds.length).cycleDet c det) = (.ok r, b') →
    let st := r.status (b'.okOr c.id 0)
    exec (.scatterUpdate id p det bad) s = .next (s.withBlk
      ((b'.cvtEffects c.id r.sat r.ufl).finish c.id st.1 st.2.1 st.2.2).beaterRegs))

/-- The Beater's collectives enter flight in their group: a sharded LOOKUP_POOL, EXCHANGE, PROMOTE, DEMOTE and REFRESH (R278, R286, R314,
R317, R318). -/
def Obligations.BeaterCollectiveResults : Prop :=
  (∀ (s : State) (id : Nat) (p : LookupParams) (det : Fin 3) (bad : List Nat) (c : Cmd) (l : List LookEntry) (b : Block) (gs : GroupSt),
    s.live → s.blk.Starts id (.lookupPool p) c → s.blk.isHeld c.id = false → Block.beaterTurn c s.blk = true →
    p.count ≠ 0 → p.count ≤ 4096 → p.hint ≠ 3 → p.workVa % 64 = 0 →
    readList c p.listVa p.count (s.blk.launched id) = (.ok l, b) →
    let sharded := l.filterMap (fun e => (b.table? c.ctx e.table).bind (fun d => if d.shard = 0 then none else some d))
    sharded ≠ [] → (∀ d ∈ sharded, d.group = p.group) → b.collTurn c = true → b.CollEnters c p.group p.epoch p.bucket gs →
    exec (.lookupPool id p det bad) s = .next (s.withBlk
      (((b.unhold c.id).sbFails bad).afterSort c l p.badSkip det (fun ds b => b.lookSorted c p l (some gs) ds)).beaterRegs)) ∧
  (∀ (s : State) (id : Nat) (p : ExchangeParams) (bad : List Nat) (c : Cmd) (l : List GradEntry) (b : Block) (gs : GroupSt), s.live →
    s.blk.Starts id (.exchange p) c → beaterCollReady c s.blk = true →
    readGradList c p.inVa (s.blk.launched id) = (.ok l, b) → b.CollEnters c p.group p.epoch p.bucket gs →
    exec (.exchange id p bad) s = .next (s.withBlk
      ((((b.unhold c.id).sbFails bad).exGo c p l gs).exAdvance (tagOf p.group p.epoch p.bucket) c p).beaterRegs)) ∧
  (∀ (s : State) (id : Nat) (p : PromoteParams) (demote : Bool) (bad : List Nat) (c : Cmd) (gs : GroupSt), s.live →
    s.blk.Starts id (if demote then .demote p else .promote p) c → beaterCollReady c s.blk = true → p.bad demote = false →
    let b := s.blk.launched id
    (demote = false → b.poolOk c.ctx = true) → b.CollEnters c p.group p.epoch p.bucket gs →
    exec (if demote then .demote id p bad else .promote id p bad) s = .next (s.withBlk
      ((Block.sbBegin c p.group p.epoch p.bucket bad (if p.stats then [(p.statsVa, 32)] else []) (fun b => (fun l => sbOffer p l) <$> b.sbKeys c p demote) gs
        (b.unhold c.id)).sbAdvance (tagOf p.group p.epoch p.bucket) c p demote).beaterRegs)) ∧
  (∀ (s : State) (id : Nat) (p : RefreshParams) (bad : List Nat) (c : Cmd) (gs : GroupSt), s.live →
    s.blk.Starts id (.refresh p) c → beaterCollReady c s.blk = true →
    let b := s.blk.launched id
    b.CollEnters c p.group p.epoch p.bucket gs →
    exec (.refresh id p bad) s = .next (s.withBlk
      ((Block.sbBegin c p.group p.epoch p.bucket bad (if p.stats then [(p.statsVa, 32)] else []) (fun b => return b.refreshOffer p.group) gs (b.unhold c.id)).refreshAdvance
        (tagOf p.group p.epoch p.bucket) c p).beaterRegs))

/-- Fills and the directory's window complete: a non-owner asks for the record of a FILLING entry, the owner answers with its VERSION and the
record, the reply lands in the slot and sets FILLED and FILL_VER, and BEATER_SB_PEEK shows the entry written to its index (R301, R316). -/
def Obligations.FillResults : Prop :=
  (∀ (s : State) (ctx g slot key i o j : Nat) (gs : GroupSt) (d : TableParams), s.live → s.blk.net.silent = false →
    s.blk.sbFind ctx key = some i → s.blk.group? g = some gs → s.blk.table? ctx (s.blk.sb i).table = some d →
    s.blk.rowOwner d (s.blk.sb i).row = some (o, j, false) → (s.blk.sb i).state = sbFilling → (s.blk.sb i).group = g →
    (s.blk.sb i).slot = slot → (s.blk.sb i).filled = false →
    exec (.fillRequest none ctx g slot key) s = .next (s.withBlk (s.blk.tell (gs.ranks.getD o 0) 3 ctx (.fillRequest g slot key)))) ∧
  (∀ (s : State) (src ctx g slot key i o j : Nat) (d : TableParams) (bs : List (BitVec 8)) (b : Block), s.live →
    s.blk.net.silent = false → s.blk.table? ctx (keyTable key) = some d → s.blk.sbFind ctx key = some i →
    s.blk.rowOwner d (keyRow key) = some (o, j, true) →
    readVa ⟨⟨0x052, ctx, none, none⟩, 0, 0, 10⟩ (s.blk.recordVa ctx key false) d.recBytes s.blk = (.ok bs, b) →
    exec (.fillRequest (some src) ctx g slot key) s =
      .next (s.withBlk (b.tell src 3 ctx (.fillReply g slot key (b.sb i).version bs)))) ∧
  (∀ (s : State) (ctx g slot key version i : Nat) (record : List (BitVec 8)) (b : Block), s.live → s.blk.net.silent = false →
    s.blk.sbFind ctx key = some i → (s.blk.sb i).state = sbFilling → (s.blk.sb i).group = g → (s.blk.sb i).slot = slot →
    (s.blk.sb i).owner = false → (s.blk.sb i).filled = false →
    writeVa ⟨⟨0x052, ctx, none, none⟩, 0, 0, 10⟩ (s.blk.sbSlotVa ctx slot) record s.blk = (.ok (), b) →
    exec (.fillReply ctx g slot key version record) s = .next (s.withBlk
      (b.setSb i { s.blk.sb i with filled := true, fillVer := version % 2 ^ 16, stepAt := b.sbStep g }))) ∧
  (∀ (s : State) (value : BitVec 32), s.live → s.blk.HostWrites 0xD81000 →
    exec (.beaterSbPeekIdx value) s = .next (s.withBlk (s.blk.hostWrote.sbPeek (value.toNat % 2 ^ 17))))

/-- The Farrier's commands complete: SHARD_DEFINE defines or removes a shard, UPDATE is held once its list is read, REVERT commits a copy
of a retained version, FETCH reads a retained version or waits for a later one, NORM_REDUCE enters flight (R329, R340, R342, R344, R345,
R347). -/
def Obligations.FarrierCommandResults : Prop :=
  (∀ (s : State) (id : Nat) (p : ShardParams) (c : Cmd), s.live → s.blk.Starts id (.shardDefine p) c → p.shard ≤ 16383 →
    let b := s.blk.launched id
    b.shardBusy c p.shard = false →
    (p.undefine = true → (b.shard? c.ctx p.shard).isSome = true →
      exec (.shardDefine id p) s = .next (s.withBlk ((b.setShard c.ctx p.shard none).finish c.id 0 0 0))) ∧
    (∀ b' : Block, p.undefine = false → p.bad = false → p.seed = false → p.badOwned = false →
      (p.isLocal = true ∨ ∃ gs, b.groupErr c.ctx p.group = none ∧ b.group? p.group = some gs ∧ gs.self = p.owner ∧
        p.owner < gs.ranks.length) →
      b.mappedFor c.ctx p.baseVa ((p.depth + 1) * p.slotBytes) = true →
      writeVa (c.req 0 0) ((⟨p, true, 0, 0⟩ : Shard).slotVa 0) (slotHeader 0 0 b.now 0 0) b = (.ok (), b') →
      exec (.shardDefine id p) s = .next (s.withBlk
        ((b'.setShard c.ctx p.shard (some ⟨p, true, 0, 0⟩)).finish c.id 0 0 (p.slotBytes % 2 ^ 64)))) ∧
    (∀ gs, p.undefine = false → p.bad = false → p.isLocal = false → b.groupErr c.ctx p.group = none → b.group? p.group = some gs →
      p.owner < gs.ranks.length → gs.self ≠ p.owner →
      exec (.shardDefine id p) s = .next (s.withBlk
        ((b.setShard c.ctx p.shard (some ⟨p, false, 0, 0⟩)).finish c.id 0 0 (p.slotBytes % 2 ^ 64))))) ∧
  (∀ (s : State) (id : Nat) (p : UpdateParams) (c : Cmd) (bs : List (BitVec 8)) (b : Block), s.live → s.blk.Starts id (.update p) c →
    s.blk.farrier.held.length < s.blk.rget .FARRIER_CFG_MAX_WAITING → p.count ≠ 0 → p.count ≤ 256 → p.clip ≤ 2 →
    (p.waitTag = true → (s.blk.launched id).groupErr c.ctx p.group = none) →
    readVa (c.req 0 0) p.listVa (16 * p.count) (s.blk.launched id) = (.ok bs, b) → b.listErr c.ctx true (updEntries bs) = none →
    b.updFenced p = false →
    exec (.update id p) s = .next (s.withBlk (Block.farrierRegs
      { b.setRunning c.id with farrier := { b.farrier with held := b.farrier.held ++ [⟨c.id, c.ctx, updEntries bs, b.clk.t⟩] } }))) ∧
  (∀ (s : State) (id : Nat) (p : RevertParams) (det : Fin 3) (c : Cmd) (x : Shard) (step : Nat) (b : Block), s.live →
    s.blk.Starts id (.revert p) c → Block.revertReady p c s.blk = true → (s.blk.launched id).shard? c.ctx p.shard = some x →
    x.owned = true → (x.version + 2 ^ 32 - p.version % 2 ^ 32) % 2 ^ 32 < x.p.depth →
    revertCopy c x p.version (s.blk.launched id).now (s.blk.launched id) = (.ok step, b) → det.val ≠ 2 →
    let b1 := if det.val = 1 then b.chunkRerun c else b
    let b2 := b1.setShard c.ctx p.shard (some { x with version := x.next, step := step })
    exec (.revert id p det) s = .next (s.withBlk
      (((((b2.monAfter c.ctx [p.shard] []).1).count .FARRIER_COMMITS_COUNT 0 1).finish c.id 0 0 (halves x.next p.version)).serveFetches
        c.ctx [p.shard]))) ∧
  (∀ (s : State) (id : Nat) (p : FetchParams) (c : Cmd) (x : Shard), s.live → s.blk.Starts id (.fetch p) c →
    Block.fetchReady p c s.blk = true →
    let b := s.blk.launched id
    b.shard? c.ctx p.shard = some x → x.badParts p.parts = false → (p.hint = 3 → p.useCount ≠ 0) →
    (x.owned = false → exec (.fetch id p) s = .next (s.withBlk (b.fetchRemote c p x))) ∧
    (x.owned = true → b.retained c.ctx p.shard x (x.named p.version) = true →
      exec (.fetch id p) s = .next (s.withBlk (b.fetchHere c p x (x.named p.version)))) ∧
    (x.owned = true → b.retained c.ctx p.shard x (x.named p.version) = false → p.wait = true →
      precedes 32 x.version (x.named p.version) = true →
      exec (.fetch id p) s = .next (s.withBlk { b.setRunning c.id with
        farrier := { b.farrier with fetches := b.farrier.fetches ++ [⟨some c.id, 0, 0, c.ctx, p.shard, p.parts, x.named p.version⟩] } }))) ∧
  (∀ (s : State) (id : Nat) (p : UpdateParams) (c : Cmd) (gs : GroupSt), s.live → s.blk.Starts id (.normReduce p) c →
    collReady c s.blk = true → p.count ≠ 0 → p.count ≤ 256 →
    let b := s.blk.launched id
    b.flag .FARRIER_CLIP_CFG_ENABLE p.clipSlot = true → b.rget .FARRIER_CLIP_CFG_CTX p.clipSlot = c.ctx →
    b.CollEnters c p.group p.epoch p.bucket gs →
    exec (.normReduce id p) s = .next (s.withBlk ((b.unhold c.id).normGo c p gs)))

/-- The Farrier's own events complete: the earliest ready UPDATE starts and commits, a lagged commit within its limit commits, an UPDATE or
FETCH that has waited too long ends, and an owner serves a FETCH of a version that it retains (R341, R342, R345, R350, R352). -/
def Obligations.FarrierEventResults : Prop :=
  (∀ (s : State) (det : Fin 3) (h : HeldUpdate) (c : Cmd) (p : UpdateParams), s.live → s.blk.mayStart = true →
    s.blk.nextUpdate = some h → s.blk.findCmd h.cmd = some c → c.params = .update p →
    let f := s.blk.farrier
    let b := (Block.farrierRegs { s.blk with farrier := { f with held := f.held.filter (fun x => !decide (x.cmd = h.cmd)) } })
    let b1 := b.updCmd c.id (fun x => { x with startT := b.clk.t })
    (∀ lag, b1.clipNorm c.ctx p = some (none, lag) →
      exec (.updateStart h.cmd det) s = .next (s.withBlk
        (b1.updRun c p h.entries oneF32 det (fun w b => b.updCommit c p h.entries oneF32 w false)))) ∧
    (∀ n, b1.clipNorm c.ctx p = some (some n, false) → specialF32 n = false →
      exec (.updateStart h.cmd det) s = .next (s.withBlk (b1.updRun c p h.entries (b1.clipFactor p.clipSlot n) det
        (fun w b => b.updCommit c p h.entries (b1.clipFactor p.clipSlot n) w false)))) ∧
    (∀ n, b1.clipNorm c.ctx p = some (some n, true) → specialF32 n = false →
      exec (.updateStart h.cmd det) s = .next (s.withBlk (b1.updRun c p h.entries (b1.clipFactor p.clipSlot n) det (fun w b =>
        { b with farrier := { b.farrier with lagged := b.farrier.lagged ++
          [⟨c.id, c.ctx, h.entries, b1.clipFactor p.clipSlot n, w, b.clk.t⟩] } }))))) ∧
  (∀ (s : State) (id : Nat) (det : Fin 3) (g : Lagged) (c : Cmd) (p : UpdateParams) (n : Nat), s.live → s.blk.mayStart = true →
    s.blk.farrier.lagged.find? (fun g => decide (g.cmd = id)) = some g → s.blk.findCmd g.cmd = some c → c.params = .update p →
    s.blk.normOf c.ctx p.clipSlot p.cstep = some n →
    let f := s.blk.farrier
    let b : Block := { s.blk with farrier := { f with lagged := f.lagged.filter (fun x => !decide (x.cmd = g.cmd)) } }
    leF32 n (b.lagLimit p.clipSlot) = true →
    exec (.laggedPostcheck id det) s = .next (s.withBlk (b.updCommit c p g.entries g.factor g.done false))) ∧
  (∀ (s : State) (id t : Nat), s.live → s.blk.clipWait id = some t →
    let b := s.blk.advanceTo (t + s.blk.rget .FARRIER_CFG_CLIP_TIMEOUT_MS * msec)
    let f := b.farrier
    exec (.clipTimeout id) s = .next (s.withBlk ((Block.farrierRegs { b with
      farrier := { f with held := f.held.filter (fun h => !decide (h.cmd = id))
                          lagged := f.lagged.filter (fun h => !decide (h.cmd = id)) } }).finish id 0x3006 0 0))) ∧
  (∀ (s : State) (id : Nat) (c : Cmd) (p : FetchParams), s.live → s.blk.findCmd id = some c → c.params = .fetch p → c.phase = .running →
    p.wait = true →
    let b := s.blk.advanceTo (c.startT + p.timeoutUs * usec)
    let f := b.farrier
    exec (.fetchTimeout id) s = .next (s.withBlk (Block.finish { b with
      farrier := { f with fetches := f.fetches.filter (fun x => !decide (x.cmd = some id)) } } id 0x3004 0 0))) ∧
  (∀ (s : State) (src ctx tag shard parts version : Nat) (wait : Bool) (x : Shard), s.live → s.blk.net.silent = false →
    s.blk.shard? ctx shard = some x → x.owned = true → x.badParts parts = false →
    (s.blk.retained ctx shard x (x.named version) = true →
      exec (.fetchRequest src ctx tag shard parts version wait) s =
        .next (s.withBlk (s.blk.fetchServe src tag ctx parts x (x.named version)))) ∧
    (s.blk.retained ctx shard x (x.named version) = false → wait = true → precedes 32 x.version (x.named version) = true →
      exec (.fetchRequest src ctx tag shard parts version wait) s = .next (s.withBlk { s.blk with
        farrier := { s.blk.farrier with fetches := s.blk.farrier.fetches ++
          [⟨none, src, tag, ctx, shard, parts, x.named version⟩] } })))

/-- The Relay's commands on their group complete: GROUP_DEFINE defines, changes or removes a group, and BUCKET_CANCEL stops what is in flight,
tells the other members and completes at once where there are none (R361, R362, R389). -/
def Obligations.RelayGroupResults : Prop :=
  (∀ (s : State) (id : Nat) (p : GroupParams) (c : Cmd), s.live → s.blk.Starts id (.groupDefine p) c →
    let b := s.blk.launched id
    (p.undefine = true → b.groupErr c.ctx p.group = none → b.groupBusy p.group = false →
      exec (.groupDefine id p) s = .next (s.withBlk ((b.undefineGroup p.group).finish c.id 0 0 0))) ∧
    (∀ (bs : List (BitVec 8)) (b' : Block) (slot member : Nat), p.undefine = false → p.members ≠ 0 → p.members ≤ 16384 →
      readVa (c.req 0 0) p.listVa (2 * p.members) b = (.ok bs, b') →
      let ranks := (List.range p.members).map (fun i => field bs (2 * i) 2)
      ranks.Nodup → (∀ r ∈ ranks, r < 2 ^ 14) → ranks.findIdx? (fun r => decide (r = b'.rank)) = some member →
      (b'.groupSlot p.group = some slot ∧ (∀ g, b'.group? p.group = some g → g.ctx = c.ctx) ∨
        b'.groupSlot p.group = none ∧ b'.group? p.group = none ∧
        (List.range 64).find? (fun i => decide (Sparse.get (always none) b'.relay.groups i = none)) = some slot) →
      b'.groupBusy p.group = false →
      let b1 := if (b'.group? p.group).isSome then b'.sbDropGroup p.group false else b'
      exec (.groupDefine id p) s = .next (s.withBlk
        ((((b1.setGroupSlot slot (some ⟨p.group, c.ctx, p.epoch, ranks, member⟩)).rset .RELAY_GROUP_STATE slot 0).setEpoch
          p.group p.epoch).finish c.id 0 0 (halves member ranks.length))))) ∧
  (∀ (s : State) (id : Nat) (p : CancelParams) (c : Cmd) (gs : GroupSt), s.live → s.blk.Starts id (.bucketCancel p) c →
    let b := s.blk.launched id
    b.groupErr c.ctx p.group = none → b.group? p.group = some gs → b.relay.cancels.length < 1024 →
    let r := b.cancelTold c p gs
    (gs.ranks.filter (fun x => !decide (x = b.rank)) ≠ [] → r.2.2 = true →
      exec (.bucketCancel id p) s = .next (s.withBlk r.2.1)) ∧
    (gs.ranks.filter (fun x => !decide (x = b.rank)) = [] →
      exec (.bucketCancel id p) s = .next (s.withBlk (r.2.1.finish c.id 0 0 (halves r.1 0)))))

/-- The Relay's collectives enter flight: ALL_REDUCE and REDUCE_SCATTER at pass 0 or a later pass, ALL_GATHER once its source is found,
BROADCAST of a member, ALL_TO_ALL_V and PERMUTE once their lists are read (R371, R373, R382, R383, R384, R386). -/
def Obligations.CollectiveResults : Prop :=
  (∀ (s : State) (id : Nat) (p : CollParams) (scatter : Bool) (c : Cmd) (gs : GroupSt) (b' : Block), s.live →
    s.blk.Starts id (if scatter then .reduceScatter p else .allReduce p) c → collReady c s.blk = true → p.badRed scatter = false →
    let b := s.blk.launched id
    let algo := (b.unhold c.id).redAlgo p scatter gs.ranks.length
    (p.pass = 0 → b.CollEnters c p.group p.epoch p.bucket gs) → (p.pass ≠ 0 → b.CollOpen c p.group p.epoch p.bucket gs) →
    (b.unhold c.id).redEnter c p scatter gs algo = some b' →
    exec (if scatter then .reduceScatter id p else .allReduce id p) s = .next (s.withBlk (b'.redRun c p scatter gs algo))) ∧
  (∀ (s : State) (id : Nat) (p : CollParams) (c : Cmd) (gs : GroupSt) (va : Nat), s.live → s.blk.Starts id (.allGather p) c →
    collReady c s.blk = true → badGather p = false → (s.blk.launched id).CollEnters c p.group p.epoch p.bucket gs →
    ((s.blk.launched id).unhold c.id).gatherSrc c p = .ok va →
    exec (.allGather id p) s = .next (s.withBlk (((s.blk.launched id).unhold c.id).gatherRun c p gs va))) ∧
  (∀ (s : State) (id : Nat) (p : CollParams) (c : Cmd) (gs : GroupSt), s.live → s.blk.Starts id (.broadcast p) c →
    collReady c s.blk = true → badGather p = false → (s.blk.launched id).CollEnters c p.group p.epoch p.bucket gs →
    p.root < gs.ranks.length →
    exec (.broadcast id p) s = .next (s.withBlk (((s.blk.launched id).unhold c.id).bcastRun c p gs))) ∧
  (∀ (s : State) (id : Nat) (p : A2aParams) (c : Cmd) (gs : GroupSt) (bs : List (BitVec 8)) (b : Block), s.live →
    s.blk.Starts id (.allToAllV p) c → collReady c s.blk = true → (s.blk.launched id).CollEnters c p.group p.epoch p.bucket gs →
    readVa (c.req 0 0) p.sendCountsVa (8 * gs.ranks.length) ((s.blk.launched id).unhold c.id) = (.ok bs, b) →
    (∀ k ∈ a2aCounts gs.ranks.length bs, k ≤ 67108864) →
    exec (.allToAllV id p) s = .next (s.withBlk (b.a2aRun c p gs bs))) ∧
  (∀ (s : State) (id : Nat) (p : PermuteParams) (c : Cmd) (gs : GroupSt) (bs : List (BitVec 8)) (b : Block), s.live →
    s.blk.Starts id (.permute p) c → collReady c s.blk = true → p.moves ≠ 0 → p.moves ≤ 1048576 →
    (s.blk.launched id).CollEnters c p.group p.epoch 0xFFFF gs → p.epoch = (gs.epoch + 1) % 256 →
    ((s.blk.launched id).unhold c.id).sbWhere (fun e => e.ofGroup p.group) = [] →
    readVa (c.req 0 0) p.movesVa (32 * p.moves) ((s.blk.launched id).unhold c.id) = (.ok bs, b) →
    (∀ m ∈ movesOf bs, m.bad gs.ranks.length = false) →
    exec (.permute id p) s = .next (s.withBlk (b.permuteRun c p gs bs)))

/-- What arrives at the Relay while it answers takes effect: a collective's unit is taken in its member's stream, a credit is used or kept, a
refused credit goes again after 10 µs, DRAINED and move reports count in their PERMUTE, a cancel stops what it names (R368 to R370, R386,
R389, R390, R392). -/
def Obligations.RelayMessageResults : Prop :=
  (∀ (s : State) (src tag leg index : Nat) (last : Bool) (body : List (BitVec 8)) (det : Bool) (x : Coll) (i : Nat), s.live →
    s.blk.net.silent = false → s.blk.coll tag = some x → x.ranks.findIdx? (fun r => decide (r = src)) = some i →
    index = Sparse.get (always 0) x.units (streamKey leg i) → Sparse.get (always 0) x.grants i ≠ 0 → x.got leg i = false →
    exec (.relayUnitArrival src tag leg index last body det) s = .next (s.withBlk
      (if det then s.blk.unitDetected x i (streamKey leg i) index leg else s.blk.unitTaken x i (streamKey leg i) leg last body).beaterRegs)) ∧
  (∀ (s : State) (src tag digest units : Nat), s.live → s.blk.net.silent = false →
    (∀ x, s.blk.coll tag = some x → exec (.creditGrant src tag digest units) s =
      .next (s.withBlk ((s.blk.takeCredit tag src digest units).advanceColl tag).beaterRegs)) ∧
    (s.blk.coll tag = none → s.blk.relay.pending.length < 4096 → exec (.creditGrant src tag digest units) s =
      .next (s.withBlk (Block.beaterRegs { s.blk with
        relay := { s.blk.relay with pending := s.blk.relay.pending ++ [(src, tag, digest, units)] } })))) ∧
  (∀ (s : State) (dst tag i : Nat) (r : Nat × Nat × Nat) (x : Coll), s.live →
    s.blk.relay.refusals.find? (fun r => decide (r.1 = dst) && decide (r.2.1 = tag)) = some r →
    let b := s.blk.advanceTo (r.2.2 + 10 * usec)
    let b := { b with relay := { b.relay with refusals := b.relay.refusals.filter (fun y => !decide (y = r)) } }
    b.coll tag = some x → x.ranks.findIdx? (fun k => decide (k = dst)) = some i →
    exec (.creditRetry dst tag) s =
      .next (s.withBlk (b.tell dst x.cls x.ctx (.credit tag x.digest (Sparse.get (always 0) x.grants i))))) ∧
  (∀ (s : State) (src group epoch : Nat) (small : Bool), s.live → s.blk.net.silent = false →
    (∀ x i, s.blk.permuteOf src group epoch = some (x, i) → exec (.drained src group epoch small) s = .next (s.withBlk
      ((s.blk.setColl { x with drained := if x.drained.contains i then x.drained else x.drained ++ [i]
                               small := x.small || small }).advanceColl x.tag))) ∧
    (s.blk.permuteOf src group epoch = none → exec (.drained src group epoch small) s = .next (s.withBlk
      { s.blk with relay := { s.blk.relay with early := s.blk.relay.early ++ [(src, group, epoch, small)] } }))) ∧
  (∀ (s : State) (src group epoch i : Nat) (x : Coll), s.live → s.blk.net.silent = false →
    s.blk.permuteOf src group epoch = some (x, i) → exec (.movesComplete src group epoch) s = .next (s.withBlk
      ((s.blk.setColl { x with moved := if x.moved.contains i then x.moved else x.moved ++ [i] }).advanceColl x.tag))) ∧
  (∀ (s : State) (group epoch bucket : Nat) (all : Bool), s.live → s.blk.net.silent = false →
    exec (.cancelArrival group epoch bucket all) s =
      .next (s.withBlk (s.blk.cancelHere group epoch (if all then none else some bucket)).2))

/-- The Relay's own events: a collective with a silent member ends PEER_TIMEOUT after its start, and one that the Relay holds starts when
there is room or when its epoch is committed (R295, R364, R366, R391). -/
def Obligations.RelayEventResults : Prop :=
  (∀ (s : State) (tag i : Nat) (x : Coll), s.live → s.blk.coll tag = some x → s.blk.collRuns x = true → x.op / 256 ≠ 2 →
    x.passes ≤ x.passDone + 1 → s.blk.silentMember x = some i →
    exec (.peerTimeout tag) s = .next (s.withBlk
      ((s.blk.advanceTo (x.startT + s.blk.rget .RELAY_CFG_PEER_TIMEOUT_MS * msec)).endColl tag 0x4003 i 0))) ∧
  (∀ (s : State) (tag i : Nat) (x : Coll) (c : Cmd), s.live → s.blk.coll tag = some x → s.blk.collRuns x = true → x.op / 256 = 2 →
    x.cmd.bind s.blk.findCmd = some c → s.blk.silentMember x = some i →
    exec (.beaterPeerTimeout tag) s = .next (s.withBlk
      ((s.blk.advanceTo (x.startT + s.blk.rget .BEATER_CFG_PEER_TIMEOUT_MS * msec)).beaterTimeout x c).beaterRegs)) ∧
  (∀ (s : State) (id : Nat) (h : HeldColl) (c : Cmd), s.live → s.blk.relay.held.find? (fun h => decide (h.cmd = id)) = some h →
    s.blk.findCmd id = some c → c.phase = .waiting → s.blk.mayStart = true → s.blk.heldReady h c = true →
    exec (.heldCollectiveStart id) s =
      .next (s.withBlk (Block.startHeld c (if h.epoch then s.blk.advanceTo (s.blk.clk.t + 64) else s.blk)).beaterRegs))

/-- The Blink's commands and jobs complete: PAGE_EDIT sets, truncates or clears pages of a slot and rewrites its header, ATTEND latches its
pages and places a job on each of its tiles, its latch ends, and a job computes units until none remains (R397 to R405, R412). -/
def Obligations.BlinkResults : Prop :=
  (∀ (s : State) (id : Nat) (p : PageEditParams) (c : Cmd) (e : Nat) (b : Block), s.live → s.blk.Starts id (.pageEdit p) c →
    editReady c s.blk = true → p.slot < (s.blk.launched id).rget .BLINK_PTAB_SLOTS c.ctx →
    pageEdit c p ((s.blk.launched id).slotAt c.ctx p.slot) ((s.blk.launched id).setRunning c.id) = (.ok (0, 0, e), b) →
    (p.op = 0 → exec (.pageEditSet id p) s = .next (s.withBlk (b.finish c.id 0 0 e).blinkRegs)) ∧
    (p.op = 1 → exec (.pageEditTruncate id p) s = .next (s.withBlk (b.finish c.id 0 0 e).blinkRegs)) ∧
    (p.op = 2 → exec (.pageEditClear id p) s = .next (s.withBlk (b.finish c.id 0 0 e).blinkRegs))) ∧
  (∀ (s : State) (id : Nat) (p : AttendParams) (c : Cmd) (l : List SeqSt) (b : Block), s.live → s.blk.Starts id (.attend p) c →
    attendReady c s.blk = true → p.bad = false →
    let tiles := (s.blk.launched id).attendTiles p
    tiles ≠ [] → (∀ n ∈ tiles, (s.blk.launched id).rget .TILE_CFG_CTX n = c.ctx) →
    attendLatch c p ((s.blk.launched id).rget .BLINK_PTAB_SLOTS c.ctx) (s.blk.launched id) = (.ok l, b) →
    exec (.attend id p) s = .next (s.withBlk (b.attendBegin c p tiles l).blinkRegs)) ∧
  (∀ (s : State) (id : Nat), s.live →
    exec (.latchEnd id) s = .next (s.withBlk (s.blk.onAttend id (fun a => { a with latching := false })).blinkRegs)) ∧
  (∀ (s : State) (id : Nat) (tile : Fin 64) (units : Nat) (det : Fin 3) (c : Cmd) (p : AttendParams), s.live →
    s.blk.findCmd id = some c → c.params = .attend p → s.blk.jobReady id tile = true →
    exec (.attentionJob id tile units det) s = .next (s.withBlk
      (((List.range units).foldl (fun b k => b.runUnit c p tile (if k = 0 then det.val else 0)) s.blk).jobEnd c p tile).blinkRegs))

/-- The Drover's commands complete: MAP makes an object with its pages, UNMAP removes it, PIN and UNPIN change its use and quota, a MIGRATE
to another tier takes the target's pages and runs, LEND gives pages to a rank, REVOKE starts the grace, SNAPSHOT ends when its units and
manifest are written (R243 to R245, R248, R252, R253, R255, R258, R266, R268). -/
def Obligations.DroverCommandResults : Prop :=
  (∀ (s : State) (id : Nat) (p : MapParams) (c : Cmd) (r : List Nat × Block), s.live → s.blk.Starts id (.map p) c →
    let b := s.blk.launched id
    b.mapOk c.ctx p = true → b.drover.objs.length < 65536 → (p.cache = true ∨ b.quotaRoom c.ctx p.tier (objUnits p.size) = true) →
    b.alloc c.ctx p.guarded p.small p.size p.tier p.lend = some r → (p.tier = 1 → b.lenderUp p.lend = true) →
    exec (.map id p) s = .next (s.withBlk
      ((r.2.mapInto p c.id (mapObj c.ctx p b.clk.t) r.1).finish c.id 0 0 (p.size / objPage p.small)))) ∧
  (∀ (s : State) (id : Nat) (p : ObjParams) (c : Cmd) (o : Obj), s.live → s.blk.Starts id (.unmap p) c →
    (s.blk.launched id).obj c.ctx p.obj = some o →
    exec (.unmap id p) s = .next (s.withBlk (((s.blk.launched id).removeObj o).finish c.id 0 0 0))) ∧
  (∀ (s : State) (id : Nat) (p : ObjParams) (c : Cmd) (o : Obj), s.live → s.blk.Starts id (.pin p) c →
    s.blk.notMigrating p c = true → (s.blk.launched id).obj c.ctx p.obj = some o →
    let b := s.blk.launched id
    (o.cache = false → exec (.pin id p) s = .next (s.withBlk (b.finish c.id 0 0 0))) ∧
    (o.cache = true → b.quotaRoom c.ctx o.tier (objUnits o.size) = true → exec (.pin id p) s = .next (s.withBlk
      (((b.quotaAdd { o with cache := false } o.tier true).updObj c.ctx p.obj (fun x => { x with cache := false })).finish c.id 0 0 0)))) ∧
  (∀ (s : State) (id : Nat) (p : ObjParams) (c : Cmd) (o : Obj), s.live → s.blk.Starts id (.unpin p) c →
    s.blk.notMigrating p c = true → (s.blk.launched id).obj c.ctx p.obj = some o →
    let b := s.blk.launched id
    exec (.unpin id p) s = .next (s.withBlk (((b.quotaAdd o o.tier false).updObj c.ctx p.obj
      (fun x => { x with cache := true, lastUse := b.clk.t })).finish c.id 0 0 0))) ∧
  (∀ (s : State) (id : Nat) (p : MigrateParams) (c : Cmd) (o : Obj), s.live → s.blk.Starts id (.migrate p) c →
    let b := s.blk.launched id
    b.obj c.ctx p.obj = some o → p.tier ≤ 2 → (p.tier = 1 → p.lend < 16) → o.mig = none →
    (p.tier = o.tier → (p.tier ≠ 1 ∨ p.lend = o.lend) → exec (.migrate id p) s = .next (s.withBlk (b.finish c.id 0 0 0))) ∧
    (∀ r, (p.tier ≠ o.tier ∨ p.tier = 1 ∧ p.lend ≠ o.lend) →
      (o.cache = true ∨ p.tier = o.tier ∨ b.quotaRoom c.ctx p.tier (objUnits o.size) = true) →
      (b.updObj c.ctx p.obj (fun x => { x with users := x.users + 1 })).alloc c.ctx o.guarded o.small o.size p.tier p.lend = some r →
      exec (.migrate id p) s = .next (s.withBlk ((((r.2.updObj c.ctx p.obj (fun x =>
        { x with users := x.users - 1, mig := some ⟨some c.id, p.tier, p.lend, r.1, [], 0⟩ })).setMig o true).count
        .DROVER_STATUS_MIGRATING 0 1).setRunning c.id)))) ∧
  (∀ (s : State) (id : Nat) (p : LendParams) (c : Cmd) (r : List Nat × Block), s.live → s.blk.Starts id (.lend p) c →
    let b := s.blk.launched id
    c.ctx = 0 → p.lendId ≤ 255 → p.rank < 16384 → p.guarded ≤ 1 → p.pages ≠ 0 →
    b.drover.lends.any (fun l => decide (l.id = p.lendId)) = false → b.reachable p.rank = true →
    b.alloc 0 (decide (p.guarded = 1)) false (p.pages * pageBytes) 0 0 = some r →
    exec (.lend id p) s = .next (s.withBlk ((((({ r.2 with drover := { r.2.drover with lends := r.2.drover.lends ++
      [Lend.mk p.lendId p.rank (decide (p.guarded = 1)) (r.1.map (fun a => a / pageBytes)) none []] } } : Block).count
      .DROVER_STATUS_LENT_PAGES 0 p.pages).tell p.rank 2 0 (.lendOffer p.lendId (decide (p.guarded = 1)) p.pages))).finish c.id 0 0 0))) ∧
  (∀ (s : State) (id : Nat) (p : RevokeParams) (c : Cmd), s.live → s.blk.Starts id (.revoke p) c →
    c.ctx = 0 → (s.blk.launched id).drover.lends.any (fun l => decide (l.id = p.lendId)) = true →
    exec (.revoke id p) s = .next (s.withBlk (((s.blk.launched id).startRevoke p.lendId (some c.id)).setRunning c.id))) ∧
  (∀ (s : State) (id : Nat) (p : SnapshotParams) (c : Cmd) (e : Nat) (b : Block), s.live → s.blk.Starts id (.snapshot p) c →
    snapshotCmd c p (s.blk.launched id) = (.ok (0, 0, e), b) →
    exec (.snapshot id p) s = .next (s.withBlk (b.finish id 0 0 e)))

/-- The Drover's events complete: a migration's pass ends in the flip, in another pass or without convergence, an abandoned flip counts as a
pass, a grace or a lost path ends a lend, a notice revokes, a translation walks the table, a page moves out of a narrowed frame or off a
retired page, and a lower-tier access times out (R242, R251, R253, R254, R259, R260, R262, R264, R265). -/
def Obligations.DroverEventResults : Prop :=
  (∀ (s : State) (ctx : Fin 16) (obj : Nat) (kept : List Nat) (flipNs : Nat) (o : Obj) (m : Mig), s.live →
    s.blk.obj ctx obj = some o → o.mig = some m → s.blk.migFails o m = none →
    let d := m.dirty.filter (fun d => kept.contains d)
    (d.length ≤ s.blk.flipBlocks m.tier →
      let b := (s.blk.commitMove o m.tier m.lend m.targets).flipTime flipNs
      let b' := b.rset .DROVER_STATUS_MIGRATING 0 (b.rget .DROVER_STATUS_MIGRATING - 1)
      (m.cmd = none → exec (.migrationPassEnd ctx obj kept flipNs) s = .next (s.withBlk b')) ∧
      (∀ id, m.cmd = some id → exec (.migrationPassEnd ctx obj kept flipNs) s =
        .next (s.withBlk (b'.finish id 0 0 (halves (m.passes + 1) (min 20000 flipNs)))))) ∧
    (s.blk.flipBlocks m.tier < d.length → s.blk.rget .DROVER_CFG_MAX_PASSES ≤ m.passes + 1 →
      exec (.migrationPassEnd ctx obj kept flipNs) s = .next (s.withBlk ((s.blk.endMigCmd o 0x6001 2).endMig o))) ∧
    (s.blk.flipBlocks m.tier < d.length → m.passes + 1 < s.blk.rget .DROVER_CFG_MAX_PASSES →
      exec (.migrationPassEnd ctx obj kept flipNs) s = .next (s.withBlk
        (s.blk.updObj o.ctx o.obj (fun x => { x with mig := some { m with passes := m.passes + 1, dirty := d } }))))) ∧
  (∀ (s : State) (ctx : Fin 16) (obj : Nat) (o : Obj) (m : Mig), s.live → s.blk.obj ctx obj = some o → o.mig = some m →
    let b := s.blk.count .DROVER_FLIP_ABANDON_COUNT 0 1
    (b.rget .DROVER_CFG_MAX_PASSES ≤ m.passes + 1 →
      exec (.flipAbandon ctx obj) s = .next (s.withBlk ((b.endMigCmd o 0x6001 2).endMig o))) ∧
    (m.passes + 1 < b.rget .DROVER_CFG_MAX_PASSES → exec (.flipAbandon ctx obj) s =
      .next (s.withBlk (b.updObj ctx obj (fun x => { x with mig := some { m with passes := m.passes + 1 } }))))) ∧
  (∀ (s : State) (n revoked t : Nat), s.live →
    (∀ l, s.blk.drover.lends.find? (fun l => decide (l.id = n)) = some l → l.graceT = some t →
      exec (.graceExpiry true n revoked) s = .next (s.withBlk ((s.blk.advanceTo (t + s.blk.grace)).endLend l revoked))) ∧
    ((s.blk.borrow n).graceT = some t →
      exec (.graceExpiry false n revoked) s = .next (s.withBlk ((s.blk.advanceTo (t + s.blk.grace)).endBorrow n)))) ∧
  (∀ (s : State) (slot : Fin 16), s.live → s.blk.flag .DROVER_BORROW_VALID slot = true →
    s.blk.reachable (s.blk.rget .DROVER_BORROW_RANK slot) = false →
    ((s.blk.borrow slot).pathLostT = none → exec (.lenderPathLoss slot) s = .next (s.withBlk { s.blk with drover := { s.blk.drover with
      borrows := Sparse.set (always Borrow.init) s.blk.drover.borrows slot
        { s.blk.borrow slot with pathLostT := some s.blk.clk.t } } })) ∧
    (∀ t, (s.blk.borrow slot).pathLostT = some t →
      exec (.lenderPathLoss slot) s = .next (s.withBlk ((s.blk.advanceTo (t + s.blk.grace)).endBorrow slot)))) ∧
  (∀ (s : State) (src lend slot : Nat), s.live →
    s.blk.slotOfLend src lend = some slot →
    exec (.revocationNotice src lend) s = .next (s.withBlk (s.blk.noticed slot))) ∧
  (∀ (s : State) (cache : Fin 11) (ctx : Fin 16) (va : Nat) (write : Bool), s.live →
    exec (.tlbWalk cache ctx va write) s = .next (s.withBlk
      (s.blk.runAct (translate { who := ⟨cacheSource cache, ctx, none, none⟩, cache := cache } va write)))) ∧
  (∀ (s : State) (page flipNs : Nat) (b : Block), s.live → s.blk.movePage page flipNs = some b →
    (s.blk.rebuildPages.contains page = true →
      ((s.blk.frame (page / 8)).guarded = true ∨ ∀ p ∈ s.blk.rebuildPages, (s.blk.frame (p / 8)).guarded = false) →
      exec (.frameRebuild page flipNs) s = .next (s.withBlk b.setRebuilding)) ∧
    (s.blk.mem.retired.contains page = true → s.blk.drover.usedPages.contains page = true →
      exec (.pageRemap page flipNs) s = .next (s.withBlk { b with mem := { b.mem with gone := b.mem.gone ++ [page] } }))) ∧
  (∀ (s : State) (id : Nat) (late : Bool), s.live → (s.blk.findCmd id).isSome = true →
    (∀ o m, s.blk.drover.objs.find? (fun o => o.mig.any (fun m => decide (m.cmd = some id))) = some o → o.mig = some m →
      (m.tier ≠ 0 ∨ o.tier ≠ 0) →
      let b := if late then s.blk.advanceTo (s.blk.clk.t + s.blk.tierWait (if m.tier = 0 then o.tier else m.tier)) else s.blk
      exec (.tierTimeout id late) s = .next (s.withBlk
        (((b.count .DROVER_TIER_FAIL_COUNT 0 1).endMigCmd o 0x0200 (if late then 2 else 1)).endMig o))) ∧
    (s.blk.drover.objs.find? (fun o => o.mig.any (fun m => decide (m.cmd = some id))) = none →
      exec (.tierTimeout id late) s = .next (s.withBlk { s.blk with drover := { s.blk.drover with
        late := s.blk.drover.late.filter (fun x => decide (x.1 ≠ id)) ++ [(id, late)] } })))

/-- The Ostler's commands complete: NOP, ERRLOG_READ, CONFIG_READ, TELEMETRY_READ, CONTEXT_CREATE and TILE_RETIRE with their action's result,
CONTEXT_DESTROY when the context's commands are done, ADOPT and FORGET (R89, R489 to R491, R496, R504, R506, R507, R520). -/
def Obligations.OstlerCommandResults : Prop :=
  (∀ (s : State) (id : Nat) (c : Cmd), s.live → s.blk.Starts id .nop c →
    exec (.nop id) s = .next (s.withBlk ((s.blk.launched id).finish c.id 0 0 0))) ∧
  (∀ id p, Concludes (.errlogRead id p) id (.errlogRead p) true (fun c => errlogCopy c p)) ∧
  (∀ id p, Concludes (.configRead id p) id (.configRead p) true (fun c => configCopy c p)) ∧
  (∀ id p, Concludes (.telemetryRead id p) id (.telemetryRead p) false (fun c => telemetryCopy c p)) ∧
  (∀ id p, Concludes (.contextCreate id p) id (.contextCreate p) true (fun _ => createCtx p)) ∧
  (∀ id p, Concludes (.tileRetire id p) id (.tileRetire p) true (fun _ => retireCmd p)) ∧
  (∀ (s : State) (id : Nat) (p : CtxDestroyParams) (c : Cmd), s.live → s.blk.Starts id (.contextDestroy p) c →
    destroyReady p c s.blk = true → (s.blk.launched id).destroyErr c p.ctx = none →
    exec (.contextDestroy id p) s = .next (s.withBlk (((s.blk.launched id).destroyCtx p.ctx).finish id 0 0 0))) ∧
  (∀ (s : State) (id : Nat) (p : RemountParams) (c : Cmd), s.live → s.blk.Starts id (.remountPrepare p) c → c.ctx = 0 →
    let b := s.blk.launched id
    let old := if b.flag .HOKUKE_STATUS_RANK_VALID then b.rank else 0xFFFFFFFF
    (p.role = 0 → b.remountBusy = false →
      exec (.adopt id p) s = .next (s.withBlk ((b.adoptRank p.rank).finish id 0 0 (halves old 0)))) ∧
    (p.role = 1 → (b.flag .HOKUKE_STATUS_RANK_VALID = false ∨ p.rank ≠ b.rank) →
      exec (.forget id p) s = .next (s.withBlk
        ((b.forgetRank p.rank).1.finish id 0 0 (halves (b.forgetRank p.rank).2.1 (b.forgetRank p.rank).2.2)))))

/-- Trace control completes: TRACE_START begins a capture unless one runs, TRACE_STOP, TRACE_TRIGGER and TRACE_FLUSH act, TRACE_MARK records
from every context, and a staged quire is written to host or device memory (R526, R529 to R532). -/
def Obligations.TraceResults : Prop :=
  (∀ (s : State) (id : Nat) (p : TraceParams) (c : Cmd), s.live → s.blk.Starts id (.traceControl p) c → c.ctx = 0 →
    let b := s.blk.launched id
    (p.op = 0 → b.rget .TRACE_BUF_CFG_SIZE ≠ 0 → exec (.traceStart id p) s =
      .next (s.withBlk ((if b.flag .TRACE_STATUS_RUNNING then b else b.traceBegin).traceEnd id 0))) ∧
    (p.op = 1 → exec (.traceStop id p) s = .next (s.withBlk (b.traceSettle.traceHalt.traceEnd id 0))) ∧
    (p.op = 2 → exec (.traceTrigger id p) s = .next (s.withBlk ((b.trigger 1).traceEnd id 0))) ∧
    (p.op = 4 → exec (.traceFlush id p) s = .next (s.withBlk (b.traceSettle.traceFlush.traceEnd id 0)))) ∧
  (∀ (s : State) (id : Nat) (p : TraceParams) (c : Cmd), s.live → s.blk.Starts id (.traceControl p) c → p.op = 3 →
    exec (.traceMark id p) s = .next (s.withBlk
      (((s.blk.launched id).traceRec 0x058 7 6 c.ctx p.marker p.value 0).traceEnd id 0))) ∧
  (∀ (s : State) (q : Quire) (rest : List Quire), s.live → s.blk.trace.staged = q :: rest → s.blk.rget .TRACE_BUF_CFG_SIZE ≠ 0 →
    let a := s.blk.rget .TRACE_BUF_BASE_ADDR * 4096 + q.num % s.blk.rget .TRACE_BUF_CFG_SIZE * 2048
    let b := { s.blk with trace := { s.blk.trace with staged := rest } }
    (s.blk.flag .TRACE_BUF_BASE_LOC = true → s.blk.cutActive = false →
      exec .quireWrite s = .next (s.withBlk ((b.hostWrite a (q.encode s.blk.now)).quireDone q))) ∧
    (∀ b', s.blk.flag .TRACE_BUF_BASE_LOC = false → writeVa quireReq a (q.encode s.blk.now) b = (.ok (), b') →
      exec .quireWrite s = .next (s.withBlk (b'.quireDone q))))

/-- Class 0x08's commands complete: SEND leaves its message with the transport, RECV_POST offers its buffer, LINK_CONTROL's operations act on
their link, ROUTE_SET, MAC_FILTER_SET and STATS_READ with their action's result (R426, R434, R441 to R443, R454, R467, R469). -/
def Obligations.NetworkCommandResults : Prop :=
  (∀ (s : State) (id : Nat) (p : SendParams) (c : Cmd) (bs : List (BitVec 8)) (b : Block), s.live → s.blk.Starts id (.send p) c →
    sendTurn p c s.blk = true → p.bytes ≠ 0 → p.bytes ≤ 67108864 →
    readVa (c.req p.hint 0) p.srcVa p.bytes (s.blk.launched id) = (.ok bs, b) →
    (b.sendRecipe c p bs).2 = true → exec (.send id p) s = .next (s.withBlk (b.sendRecipe c p bs).1)) ∧
  (∀ (s : State) (id : Nat) (p : RecvParams) (c : Cmd), s.live → s.blk.Starts id (.recvPost p) c →
    p.bufBytes ≠ 0 → p.bufBytes ≤ 67108864 → (p.src = 0xFFFF ∨ p.src < 16384) →
    exec (.recvPost id p) s = .next (s.withBlk ((s.blk.launched id).setRunning c.id))) ∧
  (∀ (s : State) (id : Nat) (p : LinkParams) (c : Cmd), s.live → s.blk.Starts id (.linkControl p) c →
    let b := s.blk.launched id
    b.linkRange c p = false →
    (p.op = 0 → b.linkState p.engine ≠ 0 → b.mayTrain p.engine = true →
      exec (.linkRetrain id p) s = .next (s.withBlk ((b.enterTrain p.engine).linkEnd id p 0 0))) ∧
    (p.op = 1 → exec (.linkDown id p) s = .next (s.withBlk
      ((((b.rset .OE_STATUS_WIDTH p.engine 0).setLink p.engine
        { b.link p.engine with adminDown := true, replay := [], waiting := [], dead := [] }).setLinkState p.engine 0).linkEnd id p 0 0))) ∧
    (p.op = 2 →
      let b1 := b.setLink p.engine { b.link p.engine with adminDown := false }
      exec (.linkUp id p) s = .next (s.withBlk
        ((if b1.linkState p.engine = 0 ∧ (b1.link p.engine).light ∧ b1.mayTrain p.engine then b1.enterTrain p.engine else b1).linkEnd
          id p 0 0))) ∧
    (∀ ex, p.op = 3 → b.hokuke p.engine = true → b.linkOpen p.engine = true → ex.length = 64 →
      exec (.measure id p ex) s = .next (s.withBlk ((b.measureLink p.engine ex).linkEnd id p 0
        ((b.measureLink p.engine ex).rget .OE_PEER_OFFSET_VALUE p.engine)))) ∧
    (p.op = 4 → b.flag .OE_STATUS_B_OK p.engine = true → exec (.forceB id p) s = .next (s.withBlk
      ((if b.rget .OE_STATUS_INPUT p.engine = 1 then b else b.switchTo p.engine true false).linkEnd id p 0 0))) ∧
    (p.op = 5 → b.flag .OE_STATUS_A_OK p.engine = true → exec (.returnA id p) s = .next (s.withBlk
      ((if b.rget .OE_STATUS_INPUT p.engine = 0 then b else b.switchTo p.engine false false).linkEnd id p 0 0)))) ∧
  (∀ id p, Concludes (.routeSet id p) id (.routeSet p) true (fun c => routeCmd c p)) ∧
  (∀ id p, Concludes (.macFilterSet id p) id (.macFilterSet p) true (fun c => filterCmd c p)) ∧
  (∀ id p, Concludes (.statsRead id p) id (.statsRead p) true (fun c => statsCopy c p))

/-- Rings' own events complete: a packet whose SEQ is the head's is queued, another SEQ makes the doorbell early, an early doorbell is read
again and stalls its ring 4 µs after it, the first command of a ring is dispatched, a command that is done completes, and coalescing's time
ends (R72, R73, R77 to R84, R90). -/
def Obligations.RingEventResults : Prop :=
  (∀ (s : State) (ring : Fin 256) (u : List (BitVec 8)) (b' : Block), s.live → s.blk.mayFetch ring = true →
    (s.blk.sqAux ring).early = false →
    let b := (s.blk.advanceTo (max (s.blk.sqAux ring).nextFetch s.blk.fetchNext)).fetchPaced ring
    b.readUnit ring (b.rget .SPAOG_SQ_HEAD_POS ring) = (.ok u, b') →
    (field u 4 4 ≠ b'.rget .SPAOG_SQ_HEAD_SEQ ring → exec (.packetFetch ring 0) s =
      .next (s.withBlk (b'.setSq ring { b'.sqAux ring with early := true, lastPoll := b'.clk.t }))) ∧
    (∀ m b'', field u 4 4 = b'.rget .SPAOG_SQ_HEAD_SEQ ring → field u 3 1 ≠ 0 → field u 3 1 ≤ 4 →
      (b'.setSq ring { b'.sqAux ring with early := false }).readUnits ring (b.rget .SPAOG_SQ_HEAD_POS ring + 1) (field u 3 1 - 1) =
        (.ok m, b'') →
      exec (.packetFetch ring 0) s = .next (s.withBlk (b''.queuePacket ring (field u 3 1) (u ++ m))))) ∧
  (∀ (s : State) (ring : Fin 256), s.live → s.blk.mayFetch ring = true → (s.blk.sqAux ring).early = true →
    ((s.blk.sqAux ring).lastPoll + 4096 < (s.blk.sqAux ring).tDb + 4 * usec → exec (.earlyDoorbellRepoll ring 0) s =
      .next (s.withBlk ((s.blk.advanceTo ((s.blk.sqAux ring).lastPoll + 4096)).fetchUnit ring 0))) ∧
    exec (.earlyDoorbell ring) s = .next (s.withBlk (s.blk.earlyEnd ring))) ∧
  (∀ (s : State) (ring : Fin 256) (c : Cmd), s.live → s.blk.dispatchable ring = some c →
    ((s.blk.packetErr c).isSome = true ∨ s.blk.firstServed ring c = true) →
    exec (.dispatch ring) s = .next (s.withBlk (s.blk.dispatchCmd ring c))) ∧
  (∀ (s : State) (id : Nat) (fail : Fin 3) (c : Cmd) (r : Result), s.live → s.blk.findCmd id = some c → c.phase = .done →
    c.result = some r → exec (.commandCompletion id fail) s = .next (s.withBlk (s.blk.complete c r fail))) ∧
  (∀ (s : State) (ring : Fin 256), s.live → 0 < (s.blk.cqAux ring).unsignalled → s.blk.rget .SPAOG_CQ_CFG_COAL_TIME ring ≠ 0 →
    exec (.coalTimeExpiry ring) s = .next (s.withBlk ((s.blk.advanceTo
      ((s.blk.cqAux ring).firstUnsig + s.blk.rget .SPAOG_CQ_CFG_COAL_TIME ring * usec)).signalCq ring)))

/-- Host writes to the rings' registers complete: doorbells, ring configuration, gates (R61, R62, R70, R71, R76, R86, R87). -/
def Obligations.RingRegisterResults : Prop :=
  (∀ (n : Fin 256) (v : BitVec 32), HostDoes (.spaogDb n v) (0x100000 + 64 * n.val)
    (fun b => (b.count .PERF_DOORBELLS_COUNT 0 1).doorbell n v.toNat)) ∧
  (∀ (n : Fin 256) (v : BitVec 32), HostDoes (.spaogCqDb n v) (0x104000 + 64 * n.val) (fun b => b.cqConsume n v.toNat)) ∧
  (∀ (n : Fin 256) (v : BitVec 32), HostDoes (.sqEnableSet n v) (sqOffset n 8) (fun b => b.writeSqCfg n (setBit v.toNat 0))) ∧
  (∀ (n : Fin 256) (v : BitVec 32), HostDoes (.sqEnableClear n v) (sqOffset n 8) (fun b => b.writeSqCfg n (clearBit v.toNat 0))) ∧
  (∀ (n : Fin 256) (v : BitVec 64), HostDoes (.spaogSqHead n v) (sqOffset n 16) (fun b => b.writeSqHead n v.toNat)) ∧
  (∀ (n : Fin 256) (v : BitVec 64), HostDoes (.cqEnableWrite n v) (0x112010 + 32 * n.val) (fun b => b.writeCqCfg n v.toNat)) ∧
  (∀ (g : Fin 4096) (v : BitVec 64), HostDoes (.spaogGate g v) (0x120000 + 8 * g.val) (fun b => b.writeGate g v.toNat))

/-- A mailbox's accesses complete, those of host agents over the link and those of the Ostler cores at once: locks, messages, doorbell bits
and their mask (R92 to R94, R97, R98). -/
def Obligations.MailboxResults : Prop :=
  (∀ (n : Fin 16) (a : Nat), hostAgent a = true →
    HostGets (.mbxLockRead n a) (lockOffset n a) 4 (fun b => b.mbxLockTry n a) ∧
    HostDoes (.mbxLockWrite n a) (lockOffset n a) (fun b => b.mbxRelease n a) ∧
    HostGets (.mbxTake n a) (mbxOffset n 8) 8 (fun b => b.mbxTakeOut n) ∧
    (∀ r, HostDoes (.mbxLockForce n a r) (mbxOffset n 0x1C) (fun b => b)) ∧
    (∀ v, HostDoes (.mbxMsg n a v) (mbxOffset n 0) (fun b => b.mbxPut n v.toNat)) ∧
    (∀ v, HostDoes (.mbxDb n a v) (mbxOffset n 0x20) (fun b => b.mbxRing n v.toNat)) ∧
    (∀ v, HostDoes (.mbxDbAck n a v) (mbxOffset n 0x24) (fun b => b.mbxAck n v.toNat)) ∧
    (∀ v, HostDoes (.mbxDbMask n a v) (mbxOffset n 0x28) (fun b => b.mbxMask n v.toNat))) ∧
  (∀ (n : Fin 16) (a : Nat) (s : State), coreAgent a = true → s.live →
    exec (.mbxLockRead n a) s = .next (s.withBlk (s.blk.mbxLockTry n a).2) ∧
    exec (.mbxLockWrite n a) s = .next (s.withBlk (s.blk.mbxRelease n a)) ∧
    exec (.mbxTake n a) s = .next (s.withBlk (s.blk.mbxTakeOut n).2) ∧
    exec (.mbxLockForce n a true) s = .next (s.withBlk (s.blk.rset .MBX_STATUS_OWNER n 0)) ∧
    (∀ v, exec (.mbxMsg n a v) s = .next (s.withBlk (s.blk.mbxPut n v.toNat))) ∧
    (∀ v, exec (.mbxDb n a v) s = .next (s.withBlk (s.blk.mbxRing n v.toNat))) ∧
    (∀ v, exec (.mbxDbAck n a v) s = .next (s.withBlk (s.blk.mbxAck n v.toNat))) ∧
    (∀ v, exec (.mbxDbMask n a v) s = .next (s.withBlk (s.blk.mbxMask n v.toNat))))

/-- Host writes with an effect of their own complete: tiles, the Hitch, the Vat, stacks, ports, Ostler's requests, trace, time, counters;
REGISTER_WRITE of an aligned 4 or 8 bytes below 64 MiB (R5, R26, R48, R56, R144, R158, R159, R218, R233, R518, R523, R530). -/
def Obligations.HostWriteResults : Prop :=
  (∀ (n : Fin 64) (v : BitVec 32), HostDoes (.tileCfgWrite n v) (tileOffset n 8) (fun b => b.writeTileCfg n v.toNat)) ∧
  (∀ (n : Fin 64), HostDoes (.tileCtlRelease n) (tileOffset n 0x10) (fun b => b.tileRelease n)) ∧
  (∀ (n : Fin 64), HostDoes (.tileCtlFlush n) (tileOffset n 0x10) (fun b => b.tileFlush n)) ∧
  (∀ (n : Fin 64) (k : Fin 16) (v : BitVec 32), HostDoes (.tileFlagWrite n k v) (tileOffset n (0x100 + 8 * k.val))
    (fun b => b.rset .TILE_FLAG_VALUE (flagIdx n k) v.toNat)) ∧
  (∀ (n : Fin 64) (v : BitVec 32), HostDoes (.tileVxCfgWrite n v) (tileOffset n 0x60) (fun b => b.vxCfg n v.toNat)) ∧
  HostDoes .hitchResume 0x200018 (fun b => if b.cutActive then b.resume else b) ∧
  (∀ (n : Fin 1024), HostDoes (.msixUnmask n) (0x24000C + 16 * n.val) (fun b => (b.rset .MSIX_CTL_MASK n 0).sendPending)) ∧
  (∀ (n : Fin 16), HostDoes (.vatKeepRelease n) 0x800010 (fun b => b.keepRelease n)) ∧
  (∀ (n : Fin 8) (pc : Fin 32), HostDoes (.forceMapout n pc) (0xA00018 + 0x40000 * n.val) (fun b => b.mapoutPcs n [pc.val])) ∧
  (∀ (m : Fin 16) (v : BitVec 32), HostDoes (.macRawtxTail m v) (macBase m + 0xF0)
    (fun b => (b.rset .MAC_RAWTX_TAIL_POSTED m v.toNat).rawSend m)) ∧
  (∀ (m : Fin 16) (v : BitVec 32), HostDoes (.macRawrxHead m v) (macBase m + 0xD0)
    (fun b => b.rset .MAC_RAWRX_HEAD_CONSUMED m v.toNat)) ∧
  (∀ (m : Fin 16), HostGets (.macTxtsPop m) (macBase m + 0xA0) 4
    (fun b => (b.word .MAC_TXTS_POP m, (b.onMac m (fun x => { x with txts := x.txts.drop 1 })).showTxts m))) ∧
  HostDoes .traceCtlTrigger 0x1800020 (fun b => b.trigger 2) ∧
  (∀ v, HostDoes (.gtimeStep v) 0x1800108 (fun b => b.gtimeStep v)) ∧
  (∀ v : BitVec 64, HostDoes (.perfCtlClear v) 0x1801600 (fun b => b.perfClear v.toNat)) ∧
  (∀ (off : Nat) (v : BitVec 64), off < 0x4000000 →
    (off % 4 = 0 → HostDoes (.registerWrite off 4 v) off (fun b => b.bar0Write off 4 (v.toNat % 2 ^ 32))) ∧
    (off % 8 = 0 → HostDoes (.registerWrite off 8 v) off (fun b => b.bar0Write off 8 (v.toNat % 2 ^ 64))))

/-- The Hitch's events complete: the link comes up or retrains, each reset, loss or power event cuts with its reason, PERST_N resets the front
end, IDE fails or is keyed, configuration requests are answered or applied (R29, R30, R49 to R58, R537). -/
def Obligations.HitchEventResults : Prop :=
  (∀ (s : State) (width gen : Nat), s.live → linkSupported width gen = true →
    (∀ cxl, s.blk.boot.perstN = false → s.blk.boot.pgMain = true → s.blk.flag .HITCH_STATUS_LINK_UP = false →
      exec (.linkUpHost width gen cxl) s = .next (s.withBlk
        ((Block.rset { s.blk with hitch := { s.blk.hitch with cxlOk := cxl } } .HITCH_STATUS_LINK_UP 0 1).setHostCaps width gen))) ∧
    (s.blk.flag .HITCH_STATUS_LINK_UP = true →
      exec (.hostLinkRetrain width gen) s = .next (s.withBlk (s.blk.setHostCaps width gen)))) ∧
  (∀ s : State, s.live → s.blk.flag .HITCH_STATUS_LINK_UP = true →
    exec .hotReset s = .next (s.withBlk (s.blk.cut 1)) ∧
    exec .surpriseLinkDown s = .next (s.withBlk (s.blk.cut 2)) ∧
    exec .functionLevelReset s = .next (s.withBlk (s.blk.cut 4)) ∧
    (s.blk.flag .CAPS_HOST_CXL = true → exec .cxlReset s = .next (s.withBlk (s.blk.cut 5))) ∧
    exec .d3hotEntry s = .next (s.withBlk (s.blk.cut 7)) ∧
    (s.blk.flag .HITCH_STATUS_IDE_STATE = true →
      exec .ideCheckFailure s = .next (s.withBlk ((s.blk.cut 6).rset .HITCH_STATUS_IDE_STATE 0 2))) ∧
    exec .ideRekeyComplete s = .next (s.withBlk (s.blk.rset .HITCH_STATUS_IDE_STATE 0 1))) ∧
  (∀ s : State, s.live →
    (s.blk.boot.perstN = false → exec .perstNAssert s = .next (s.withBlk
      ((Block.cut { s.blk with boot := { s.blk.boot with perstN := true } } 3).frontReset))) ∧
    exec .perstNDeassert s = .next (s.withBlk { s.blk with boot := { s.blk.boot with perstN := false, perstSeen := true } })) ∧
  (∀ s : State, s.live → s.blk.flag .HITCH_STATUS_LINK_UP = true → 1 < s.blk.stage → s.blk.stage ≠ 15 →
    (∀ d, exec (.configurationRequest (.read d)) s = .next (s.withBlk { s.blk with out := { s.blk.out with
      reads := s.blk.out.reads ++ [bytesOf 4 (Sparse.get Config.configReset s.blk.hitch.config d).toNat] } })) ∧
    (∀ d v, exec (.configurationRequest (.write d v)) s = .next (s.withBlk { s.blk with hitch := { s.blk.hitch with
      config := Sparse.set Config.configReset s.blk.hitch.config d
        (Config.configWrite d (Sparse.get Config.configReset s.blk.hitch.config d) v) } })) ∧
    (∀ en mask, exec (.configurationRequest (.msix en mask)) s = .next (s.withBlk
      (Block.sendPending { s.blk with hitch := { s.blk.hitch with msixEnable := en, funcMask := mask } }))) ∧
    (∀ k, 30 ≤ k → k ≤ 39 → exec (.configurationRequest (.bar2Size k)) s =
      .next (s.withBlk { s.blk with hitch := { s.blk.hitch with barSize := k } })))

/-- Accesses through BAR2, an HDM window and a peer window complete: a valid window of a context that exists gives the access its address in
that context; a peer access takes the lowest-numbered enabled window that holds its address (R31 to R40, R486, R535). -/
def Obligations.WindowResults : Prop :=
  (∀ (s : State) (w : WinOp), s.live → s.blk.flag .HITCH_STATUS_LINK_UP = true →
    (s.blk.flag .OSTLER_BOOT_STATUS_READY = false ∨ s.blk.flag .OSTLER_BOOT_STATUS_SECURITY = false ∨
      s.blk.rget .HITCH_STATUS_IDE_STATE = 1) → w.atomicOp = false →
    (w.win = 0 → s.blk.flag .HITCH_BAR2_MAP_VALID = true → s.blk.ctxExists (s.blk.rget .HITCH_BAR2_MAP_CTX) = true →
      exec (.bar2HdmAccess w) s = .next (s.withBlk (s.blk.windowAccess (s.blk.rget .HITCH_BAR2_MAP_CTX)
        (s.blk.rget .HITCH_BAR2_MAP_VA_BASE * 2 ^ 21 + w.offset) w.size 0 w.data w.offset false))) ∧
    (∀ i : Nat, w.win.val = i + 1 → s.blk.flag .CAPS_HOST_CXL = true → s.blk.flag .HITCH_HDM_MAP_VALID i = true →
      s.blk.ctxExists (s.blk.rget .HITCH_HDM_MAP_CTX i) = true →
      exec (.bar2HdmAccess w) s = .next (s.withBlk (s.blk.windowAccess (s.blk.rget .HITCH_HDM_MAP_CTX i)
        (s.blk.rget .HITCH_HDM_MAP_VA_BASE i * 2 ^ 28 + w.offset) w.size 0 w.data w.offset true)))) ∧
  (∀ (s : State) (addr : Nat) (requester : BitVec 16) (w : Nat), s.live → s.blk.flag .HITCH_STATUS_LINK_UP = true →
    s.blk.flag .HITCH_CFG_P2P = true → s.blk.peerSecure = true → s.blk.peerWindow addr = some w →
    (s.blk.flag .HITCH_WIN_CTL_REQ_CHECK w = true → s.blk.rget .HITCH_WIN_CTL_REQUESTER w = requester.toNat) →
    s.blk.ctxExists (s.blk.rget .HITCH_WIN_CTL_CTX w) = true →
    let va := s.blk.rget .HITCH_WIN_TARGET_TARGET_VA w * 4096 + (addr - s.blk.rget .HITCH_WIN_BASE_ADDR w)
    (∀ data, exec (.peerWrite addr requester data) s = .next (s.withBlk
      (s.blk.windowAccess (s.blk.rget .HITCH_WIN_CTL_CTX w) va data.length 1 (some data) addr false))) ∧
    (∀ n, s.blk.flag .HITCH_WIN_CTL_READ w = true → exec (.peerRead addr requester n) s = .next (s.withBlk
      (s.blk.windowAccess (s.blk.rget .HITCH_WIN_CTL_CTX w) va n 1 none addr false))))

/-- Power-up and trust complete: each power-good input in its turn and its fall, the boot stages, an image, a configuration and a token, SPDM,
the watchdog, the sideband, and the host's requests to Ostler (R470 to R487, R500, R552, R553). -/
def Obligations.BootResults : Prop :=
  (∀ s : State, s.live →
    (s.blk.boot.pgAux = false → exec .pgAuxAssert s = .next (s.withBlk s.blk.auxUp)) ∧
    (s.blk.boot.pgAux = true → exec .pgMainAssert s = .next (s.withBlk
      { s.blk with boot := { s.blk.boot with pgMain := true }, clk := { s.blk.clk with running := true } })) ∧
    (s.blk.boot.pgMain = true → exec .pgStackAssert s = .next (s.withBlk { s.blk with boot := { s.blk.boot with pgStack := true } })) ∧
    (s.blk.boot.pgStack = true → exec .pgOptAssert s = .next (s.withBlk { s.blk with boot := { s.blk.boot with pgOpt := true } })) ∧
    (s.blk.stage = 1 → exec (.romTestDone true) s = .next (s.withBlk s.blk.romPassed) ∧ exec (.romTestDone false) s =
      .next (s.withBlk (((s.blk.rset .OSTLER_BOOT_STATUS_ERROR 0 7).setStage 15).moduleFault 0x16 0x058))) ∧
    (s.blk.stage = 3 → exec .verifyDone s = .next (s.withBlk (if s.blk.verifyError = 0 then s.blk.imageRuns
      else (Block.setStage { s.blk.rset .OSTLER_BOOT_STATUS_ERROR 0 s.blk.verifyError with
        boot := { s.blk.boot with stagingRO := false } } 2)))) ∧
    (∀ r, s.blk.stage = 4 → s.blk.boot.pgStack = true → s.blk.boot.pgOpt = true →
      exec (.initDone r) s = .next (s.withBlk (s.blk.initDone r))) ∧
    (s.blk.flag .OSTLER_DEBUG_STATUS_BUSY = true → exec .tokenVerifyDone s = .next (s.withBlk s.blk.tokenDone)) ∧
    (∀ req, s.blk.flag .HITCH_STATUS_LINK_UP = true → (s.blk.stage = 4 ∨ s.blk.stage = 5) →
      exec (.spdmRequest req) s = .next (s.withBlk { s.blk with
        boot := { s.blk.boot with spdmLog := s.blk.boot.spdmLog ++ [req] },
        out := { s.blk.out with reads := s.blk.out.reads ++ [Config.spdmAnswer req s.blk.boot.spdmLog.length] } })) ∧
    (∀ core : Fin 4, (s.blk.stage = 4 ∨ s.blk.stage = 5) →
      exec (.ostlerWatchdog core) s = .next (s.withBlk (s.blk.moduleFault 0x16 (0x058 + core.val))))) ∧
  (∀ s : State, s.blk.boot.pgAux = true →
    exec (.powerGoodFall 0) s = .next (s.withBlk s.blk.powerOff) ∧
    (∀ pg : Fin 4, pg ≠ 0 → s.blk.boot.good pg = true → s.blk.boot.stopped = false → exec (.powerGoodFall pg) s = .next (s.withBlk
      ((Block.sbAlert { s.blk with boot := s.blk.boot.falls pg } 4).emergency pg.val))) ∧
    (∀ x, exec (.sidebandTransfer x) s = .next (s.withBlk (s.blk.sideband x)))) ∧
  HostDoes .go 0x10008 Block.go ∧ HostDoes .submit 0x10060 Block.submit ∧
  (∀ (o : Nat) (bs : List (BitVec 8)), o + bs.length ≤ 0x2000000 →
    HostDoes (.stagingWrite o bs) (0x2000000 + o) (fun b => b.writeStaging o bs))

/-- Curb's events complete: a power sample, a temperature sample, the thermal trip, a regulator's silence; and the maxima that a read returns
to 0 (R5, R543, R544, R548). -/
def Obligations.CurbResults : Prop :=
  (∀ s : State, s.live → s.blk.clk.running = true →
    (∀ mw g v, exec (.curbSample mw g v) s = .next (s.withBlk ((s.blk.curbTake mw).curbDecide mw g v))) ∧
    (∀ temps g v, exec (.thermalSample temps g v) s = .next (s.withBlk ((s.blk.tempTake temps).thermalWarn.thermalThrottle g v)))) ∧
  (∀ s : State, s.live → s.blk.boot.pgAux = true →
    exec .thermalTrip s = .next (s.withBlk
      (((Block.curbAction { s.blk with out := { s.blk.out with thermtrip := true } } 8).sbAlert 1).emergency 0)) ∧
    (∀ rail : Fin 2, exec (.avsAckTimeout rail) s = .next (s.withBlk
      (Block.emergency { s.blk with boot := { s.blk.boot with avsStopped := true } } rail.val)))) ∧
  HostGets .curbPowerPeakRead 0x1D00000 8 (fun b => (b.word .CURB_POWER 0, b.rset .CURB_POWER_PEAK_MW_K 0 0)) ∧
  HostGets .ostlerInterruptMaxNs (RegId.offset .OSTLER_INTERRUPT_MAX_NS 0) 8
    (fun b => (b.rget .OSTLER_INTERRUPT_MAX_NS_COUNT, b.rset .OSTLER_INTERRUPT_MAX_NS_COUNT 0 0)) ∧
  HostGets .droverFlipMaxNs (RegId.offset .DROVER_FLIP_MAX_NS 0) 8
    (fun b => (b.rget .DROVER_FLIP_MAX_NS_COUNT, b.rset .DROVER_FLIP_MAX_NS_COUNT 0 0))

/-- Accesses at a home slice complete: a read or write of a line, an atomic whose code and format the table lists, a delta at the parity line,
and the retirement of a slice with enough errors (R210, R228, R232, R236, R239). -/
def Obligations.VatRowResults : Prop :=
  (∀ (s : State) (a : VatOp) (pl : Place) (bs : List (BitVec 8)) (b : Block), s.live → s.blk.place a.mpa = some pl →
    a.parity = false → a.fault = .none →
    localAccess (s.blk.reqOf (vatOpReq a)) a.mpa (min a.size (128 - a.mpa % 128))
      (a.data.map (fun bs => fun _ => sliceBytes bs 0 (min a.size (128 - a.mpa % 128)))) false s.blk = (.ok bs, b) →
    exec (.vatAccess a) s = .next (s.withBlk b)) ∧
  (∀ (s : State) (a : AtomicOp) (n : Nat) (bs : List (BitVec 8)) (b : Block), s.live → atomicSize a.op a.fmt = some n → a.mpa % n = 0 →
    localAccess (s.blk.reqOf ⟨⟨a.src, a.ctx, none, a.cmd⟩, a.hint, a.uses, 10⟩) a.mpa n
      (some (atomicBytes a.op a.fmt a.value a.cmp)) true s.blk = (.ok bs, b) →
    exec (.vatAtomic a) s = .next (s.withBlk b)) ∧
  (∀ (s : State) (mpa : Nat) (fillFails : Bool) (pl : Place) (ps : Slot), s.live → s.blk.place mpa = some pl → pl.parity = some ps →
    exec (.parityDelta mpa fillFails) s = .next (s.withBlk
      ((if fillFails && !(s.blk.vline ps.key).valid then s.blk.rebuildParity pl else s.blk).delta pl))) ∧
  (∀ (s : State) (slice : Fin 128), s.live → s.blk.sliceDue slice = true →
    exec (.sliceRetirement slice) s = .next (s.withBlk (s.blk.retireSlice slice)))

/-- The stacks' events complete: a fill that passes, passes when read again or fails into a held stripe, a reconstruction, a rebuild of a
parity line, a row's repair or retirement, a map-out, a scrub (R203, R213, R214, R216 to R225, R554). -/
def Obligations.StackResults : Prop :=
  (∀ (s : State) (mpa fails : Nat) (chkBad : Option (List Nat)) (cmd : Option Nat) (pl : Place), s.live → s.blk.place mpa = some pl →
    let re := s.blk.rget .STACK_CFG_REREADS pl.slot.s
    let b := ((s.blk.stackRead pl.slot).count .STACK_RD_LINES_COUNT pl.slot.s (min fails re)).count .STACK_CRC_MISMATCH_COUNT pl.slot.s
      (min fails (re + 1))
    (fails = 0 → exec (.stackFill mpa fails chkBad cmd) s = .next (s.withBlk b)) ∧
    (fails ≠ 0 → fails ≤ re → exec (.stackFill mpa fails chkBad cmd) s = .next (s.withBlk
      ((b.count .STACK_REREAD_OK_COUNT pl.slot.s 1).absorbed (lineErr pl mpa (b2n pl.parity.isSome))))) ∧
    (re < fails → chkBad = none →
      (∀ ps, pl.parity = some ps → exec (.stackFill mpa fails chkBad cmd) s = .next (s.withBlk (b.holdStripe ps pl.slot))) ∧
      (pl.parity = none → exec (.stackFill mpa fails chkBad cmd) s = .next (s.withBlk (b.loseRead pl (mpa / 128) cmd))))) ∧
  (∀ (s : State) (mpa : Nat) (ok : Bool) (cmd : Option Nat) (pl : Place) (ps : Slot), s.live → s.blk.place mpa = some pl →
    pl.parity = some ps → s.blk.mem.holding.contains ps.key = true →
    let b := s.blk.releaseStripe ps pl.slot
    ((ok && b.rebuildable pl (mpa / 128) && !b.lineLost (mpa / 128)) = true →
      let b1 := b.rebuildLine pl (mpa / 128)
      let b2 := if b1.slotUsable pl.slot then b1.stackWrite pl.slot else b1
      exec (.reconstruction mpa ok cmd) s = .next (s.withBlk (b2.absorbed (lineErr pl mpa 1)))) ∧
    ((ok && b.rebuildable pl (mpa / 128) && !b.lineLost (mpa / 128)) = false →
      exec (.reconstruction mpa ok cmd) s = .next (s.withBlk
        ((b.count .REAM_DOUBLE_COUNT ps.s 1).loseRead pl (mpa / 128) cmd)))) ∧
  (∀ (s : State) (mpa : Nat) (pl : Place), s.live → s.blk.place mpa = some pl →
    exec (.parityRebuild mpa) s = .next (s.withBlk (s.blk.rebuildParity pl)) ∧
    (∀ spare, exec (.rowRepair mpa spare) s = .next (s.withBlk
      (if spare && decide (Sparse.get (always 0) (s.blk.noteRow pl.slot).mem.repairs pl.slot.bank <
          (s.blk.noteRow pl.slot).rget .STACK_CFG_PPR_MAX pl.slot.s)
        then (s.blk.noteRow pl.slot).repairRow pl.slot else (s.blk.noteRow pl.slot).retireRow pl.slot)))) ∧
  (∀ (s : State) (stack : Fin 8) (pcs : List (Fin 32)) (cause : Fin 4) (hit : List Nat), s.live →
    let b := s.blk.mapoutPcs stack (s.blk.mapoutUnits stack (pcs.map (fun u => u.val)) cause)
    exec (.mapout stack pcs cause hit) s = .next (s.withBlk
      (if b.rget .STACK_STATUS_STATE stack = 2 ∧ s.blk.rget .STACK_STATUS_STATE stack ≠ 2
        then hit.foldl (fun b id => b.stackHits stack id) b else b))) ∧
  (∀ (s : State) (stack : Fin 8) (mismatch : Bool), s.live → s.blk.flag .STACK_CFG_SCRUB_EN stack = true →
    s.blk.rget .STACK_STATUS_STATE stack ≠ 2 →
    let b := s.blk.scrubNext stack
    b.slotUsable (s.blk.scrubSlot stack) = true →
    (∀ pl l, b.lostAt (s.blk.scrubSlot stack) = some (pl, l) →
      exec (.scrubRead stack mismatch) s = .next (s.withBlk (b.fill ⟨0x40 + stack, 0xFF, none, none⟩ pl l).1)) ∧
    (b.lostAt (s.blk.scrubSlot stack) = none →
      exec (.scrubRead stack mismatch) s = .next (s.withBlk
        (if mismatch then (b.stackRead (s.blk.scrubSlot stack)).scrubMismatch (s.blk.scrubSlot stack)
          else b.stackRead (s.blk.scrubSlot stack)))))

/-- The engines' link events complete: a lane drops, a signal is lost, comes back or stays away, a laser input falls or rises, a switch-over, a
training or its time ends, light arrives (R426 to R433, chapter 15's link states); flits and NAKs of an open link are taken, and the links are
measured again MEASURE_MS after their last measurement (R434, R435, R443). -/
def Obligations.LinkResults : Prop :=
  (∀ (s : State) (engine lane : Fin 8), s.live → s.blk.hokuke engine = true →
    bitAt (s.blk.rget .CAPS_OE_LANE_MASK engine) lane = true → s.blk.linkOpen engine = true →
    exec (.laneDrop engine lane) s = .next (s.withBlk (s.blk.dropLane engine lane))) ∧
  (∀ (s : State) (engine : Fin 8), s.live → s.blk.hokuke engine = true → s.blk.linkOpen engine = true →
    exec (.lossOfSignal engine) s =
      .next (s.withBlk ((s.blk.setLink engine { s.blk.link engine with light := false }).enterHold engine))) ∧
  (∀ (s : State) (engine : Fin 8), s.live → s.blk.linkState engine = 4 →
    (s.blk.clk.t ≤ (s.blk.link engine).since + 50 * usec → (s.blk.link engine).switching = none →
      exec (.signalBack engine) s =
        .next (s.withBlk ((s.blk.setLink engine { s.blk.link engine with light := true }).leaveHold engine))) ∧
    exec (.holdTimeout engine) s =
      .next (s.withBlk ((s.blk.advanceTo ((s.blk.link engine).since + 50 * usec)).enterTrain engine))) ∧
  (∀ (s : State) (engine : Fin 8) (input : Bool) (power : BitVec 16), s.live → s.blk.flag .CAPS_OE_PRESENT engine = true →
    (s.blk.flag (inputOk input) engine = true →
      let b := (s.blk.rset (inputOk input) engine 0).rset (inputPwr input) engine power.toNat
      (b.flag (inputOk (!input)) engine = false → exec (.laserInputLoss engine input power) s = .next (s.withBlk (b.loseEngine engine))) ∧
      (b.flag (inputOk (!input)) engine = true → b.rget .OE_STATUS_INPUT engine = b2n input →
        exec (.laserInputLoss engine input power) s = .next (s.withBlk (b.switchTo engine (!input) true))) ∧
      (b.flag (inputOk (!input)) engine = true → b.rget .OE_STATUS_INPUT engine ≠ b2n input →
        exec (.laserInputLoss engine input power) s = .next (s.withBlk b))) ∧
    (((s.blk.rget .OE_CFG_LOSS_DBM engine : Nat) : Int) * 100 ≤ power.toInt →
      exec (.laserInputReturn engine input power) s =
        .next (s.withBlk ((s.blk.rset (inputOk input) engine 1).rset (inputPwr input) engine power.toNat)))) ∧
  (∀ (s : State) (engine : Fin 8) (t : Nat), s.live → (s.blk.link engine).switching = some (t, false) →
    let b := s.blk.setLink engine { s.blk.link engine with switching := none }
    exec (.laserSwitchDone engine) s = .next (s.withBlk (if b.linkState engine = 4 ∧ (s.blk.link engine).light = true then b.leaveHold engine else b))) ∧
  (∀ (s : State) (engine : Fin 8) (t : Trained), s.live → s.blk.hokuke engine = true → s.blk.linkState engine = 1 →
    let lanes := (List.range 8).filter (fun l => t.lanes.getLsbD l && bitAt (s.blk.rget .CAPS_OE_LANE_MASK engine) l)
    4 ≤ lanes.length → s.blk.clash engine t = false →
    let b := ((s.blk.rset .OE_PEER_RANK engine t.rank).rset .OE_PEER_ENGINE engine t.engine)
    let b := b.setLink engine { b.link engine with serial := t.serial, light := true }
    let b := lanes.foldl (fun b l => b.rset .OE_LANE_LOCK (engine.val * 8 + l) 1) b
    let b := ((b.rset .OE_PEER_VALID engine 1).rset .OE_STATUS_WIDTH engine lanes.length).setLinkState engine (if lanes.length = 8 then 2 else 3)
    exec (.trainingDone engine t) s =
      .next (s.withBlk (if t.exchanges.length = 64 then b.measureLink engine t.exchanges else b))) ∧
  (∀ (s : State) (engine : Fin 8), s.live → s.blk.linkState engine = 1 →
    exec (.trainingTimeout engine) s =
      .next (s.withBlk ((s.blk.advanceTo ((s.blk.link engine).since + 150 * msec)).failLink engine))) ∧
  (∀ (s : State) (engine : Fin 8), s.live →
    let b := s.blk.setLink engine { s.blk.link engine with light := true }
    exec (.lightPresent engine) s = .next (s.withBlk
      (if b.linkState engine = 0 ∧ b.mayTrain engine ∧ b.flag .OSTLER_BOOT_STATUS_READY then b.enterTrain engine else b))) ∧
  (∀ (s : State) (engine : Fin 8) (f : Flit), s.live → s.blk.hokuke engine = true → s.blk.linkOpen engine = true →
    s.blk.net.silent = false → exec (.flitReceive engine f) s = .next (s.withBlk (s.blk.flitArrives engine f))) ∧
  (∀ (s : State) (engine : Fin 8) (seq : BitVec 24) (bad : List (Fin 8)), s.live → s.blk.hokuke engine = true →
    s.blk.linkOpen engine = true → s.blk.net.silent = false →
    exec (.nak engine seq bad) s = .next (s.withBlk (s.blk.nakArrives engine seq.toNat (bad.map Fin.val)))) ∧
  (∀ (s : State) (links : List (Fin 8 × List Exchange)), s.live → s.blk.rget .GTIME_CFG_MEASURE_MS ≠ 0 →
    let b := (s.blk.advanceTo (s.blk.net.measureT + s.blk.rget .GTIME_CFG_MEASURE_MS * msec)).remeasured
    exec (.timeRemeasure links) s = .next (s.withBlk (links.foldl (fun b x =>
      if b.hokuke x.1 && b.linkOpen x.1 && decide (x.2.length = 64) then b.measureLink x.1 x.2 else b) b)))

/-- The transport's events complete: a packet is taken and delivered, ACK and SACK settle messages in flight, the ACK timer and the SACK timer
send, a message without answer is sent again or fails, a refused one goes again after 10 µs, a datagram segment leaves (R438 to R442, R456). -/
def Obligations.TransportResults : Prop :=
  (∀ (s : State) (via : Option (Fin 16)) (p : Packet) (b : Block), s.live → s.blk.net.silent = false →
    s.blk.takePsn via p.src p.psn = (b, true) →
    exec (.transportReceive via p) s = .next (s.withBlk ((b.deliver p).ackDue via p.src p.psn))) ∧
  (∀ (s : State) (via : Option (Fin 16)) (src apsn : Nat) (ecn : Bool) (short : List (Nat × Option Nat)), s.live →
    s.blk.net.silent = false →
    exec (.ack via src apsn ecn short) s = .next (s.withBlk (s.blk.ackArrives via src apsn ecn short))) ∧
  (∀ (s : State) (mac : Fin 16) (src apsn : Nat) (marks : List (Fin 256)) (ecn : Bool), s.live → s.blk.net.silent = false →
    exec (.sack mac src apsn marks ecn) s = .next (s.withBlk (s.blk.sackArrives mac src apsn (marks.map Fin.val) ecn))) ∧
  (∀ (s : State) (src : Nat), s.live → (s.blk.peer src).unacked ≠ 0 →
    exec (.ackTimer src) s = .next (s.withBlk ((s.blk.advanceTo ((s.blk.peer src).firstT + 2 * usec)).sendAck src))) ∧
  (∀ (s : State) (src t : Nat), s.live → (s.blk.peer src).sackT = some t → (s.blk.peer src).rxAhead ≠ [] →
    exec (.sackRepeat src) s = .next (s.withBlk ((s.blk.advanceTo (t + 2 * usec)).sendSack src))) ∧
  (∀ (s : State) (flight : Nat) (f : Flight), s.live → s.blk.net.flights.find? (fun f => decide (f.id = flight)) = some f →
    (f.count ≠ 0 → s.blk.reachable f.out.dst = true → f.unacked ≠ [] →
      let b := s.blk.advanceTo (f.sentT + s.blk.rget .HOKUKE_CFG_RTO_US * usec)
      exec (.rtoExpiry flight) s = .next (s.withBlk
        (if b.rget .HOKUKE_CFG_RETRIES ≤ f.tries then b.flightFails f else b.resend f f.unacked (f.tries + 1)))) ∧
    (∀ t0 id, f.refused = true → f.whole = true → f.rnr = some t0 → f.cmd = some id →
      let b := s.blk.advanceTo (f.rnrLast + 10 * usec)
      b.clk.t < t0 + b.rget .HOKUKE_CFG_RNR_US * usec → b.reachable f.out.dst = true →
      exec (.rnrRetry flight) s = .next (s.withBlk (b.sendAgain f))) ∧
    (∀ cuts m, f.mac = some m → f.cut < f.count → s.blk.net.silent = false → s.blk.notPaused m (s.blk.framePri m f.out) = true →
      exec (.transportSegmentSend flight cuts) s = .next (s.withBlk (s.blk.segmentSent f m cuts))))

/-- The Ethernet ports' events complete: a port comes up or goes down, a frame of a running port is counted and taken, pauses expire, are
refreshed and end, the pause watchdog trips and its hold-off ends, verification goes on, a sender's rate rises (R447 to R465). -/
def Obligations.PortResults : Prop :=
  (∀ (s : State) (mac : Fin 16) (up : Bool), s.live → s.blk.macUsed mac = true → s.blk.flag .MAC_STATUS_LINK mac ≠ up →
    exec (.portLinkChange mac up) s = .next (s.withBlk (s.blk.portChanged mac up))) ∧
  (∀ (s : State) (mac : Fin 16) (f : FrameIn), s.live → s.blk.macUsed mac = true → s.blk.flag .MAC_STATUS_LINK mac = true →
    s.blk.flag .MAC_CFG_RX_EN mac = true →
    let b := s.blk.takeVerify mac f.verify
    (f.bytes = [] → f.asmErr = false → exec (.frameReceive mac f) s = .next (s.withBlk b)) ∧
    (f.bytes ≠ [] ∨ f.asmErr = true → exec (.frameReceive mac f) s = .next (s.withBlk
      (if (b.frameCounts mac f).2 then (b.frameCounts mac f).1.classify mac f.bytes f.drained else (b.frameCounts mac f).1)))) ∧
  (∀ (s : State) (mac : Fin 16) (pri : Fin 8) (p : Pause), s.live →
    (s.blk.mac mac).pauses.find? (fun p => decide (p.pri = pri.val)) = some p →
    exec (.pauseExpiry mac pri) s = .next (s.withBlk ((s.blk.advanceTo p.until_).takePause mac pri 0)) ∧
    (p.since + s.blk.wdTime mac ≤ max s.blk.clk.t p.until_ → exec (.pauseWatchdog mac pri true) s = .next (s.withBlk
      (((s.blk.advanceTo (p.since + s.blk.wdTime mac)).trip mac pri true).takePause mac pri 0)))) ∧
  (∀ (s : State) (mac : Fin 16) (pri : Fin 8) (x : Xoff), s.live →
    (s.blk.mac mac).xoffs.find? (fun x => decide (x.pri = pri.val)) = some x →
    exec (.pauseRefresh mac pri) s = .next (s.withBlk
      ((s.blk.advanceTo (x.last + s.blk.quanta mac (s.blk.rget .MAC_FLOW_PAUSE_QUANTA mac) / 2)).pauseAgain mac pri)) ∧
    exec (.pauseWatchdog mac pri false) s = .next (s.withBlk
      (((s.blk.advanceTo (x.since + s.blk.wdTime mac)).trip mac pri false).xoffEnds mac pri))) ∧
  (∀ (s : State) (mac : Fin 16) (pri : Fin 8), s.live → (s.blk.mac mac).xoffs.any (fun x => decide (x.pri = pri.val)) = true →
    exec (.xon mac pri) s = .next (s.withBlk ((s.blk.xonAt mac pri).sendPause mac pri 0))) ∧
  (∀ (s : State) (mac : Fin 16) (pri : Fin 8) (tx : Bool) (h : Holdoff), s.live →
    (s.blk.mac mac).holdoffs.find? (fun h => decide (h.pri = pri.val) && decide (h.tx = tx)) = some h →
    let b := ((s.blk.advanceTo h.until_).onMac mac (fun x => { x with holdoffs := x.holdoffs.filter (fun y => !decide (y = h)) })).pauseRegs mac
    exec (.watchdogHoldoffEnd mac pri tx) s = .next (s.withBlk (if tx then b else b.checkXoff mac pri))) ∧
  (∀ (s : State) (mac : Fin 16), s.live → s.blk.verifying mac = true →
    let x := s.blk.mac mac
    let b := s.blk.advanceTo (x.verifyT + s.blk.rget .MAC_PREEMPT_VERIFY_MS mac * msec)
    exec (.verifyTimeout mac) s = .next (s.withBlk
      (if 3 ≤ x.verifyN then (b.rset .MAC_STATUS_VERIFY_FAIL mac 1).preemptRegs mac else b.verifyAgain mac))) ∧
  (∀ (s : State) (mac : Fin 16) (rank : Nat) (r : Rate), s.live →
    (s.blk.mac mac).rates.find? (fun r => decide (r.rank = rank)) = some r →
    exec (.rateIncrease mac rank) s = .next (s.withBlk
      ((s.blk.advanceTo (r.incT + s.blk.rget .MAC_RC_CFG_RC_INC_US mac * usec)).rateUp mac r)))

/-- A step runs the command at the front of the queue with the queue's rest; on an empty queue one tick of 4 ns passes (R16, R17; that an empty
queue means a tick is the model's choice, log entry 2). -/
def Obligations.StepRunsFront : Prop :=
  (∀ (c : Instr) (rest : List Instr) (s : State), s.pending = c :: rest → step s = exec c { s with pending := rest }) ∧
  (∀ s : State, s.pending = [] → step s = .next (s.withBlk s.blk.tick)) ∧
  (∀ b : Block, b.clk.running = true → b.clk.step = 0 → b.clk.slew = 0 → b.rget .GTIME_SLEW_RATE_PPB = 0 → b.clk.g + 64 < 2 ^ 68 →
    b.tick.now = b.now + 4 ∨ b.tick.now + 2 ^ 64 = b.now + 4)

/-- Every command answers a next state from every state, save a register access outside the 64 MiB of BAR0, which stops (R26); and what it
does depends on the queue in nothing: the queue stays, and another queue stays likewise. -/
def Obligations.CommandsAnswer : Prop :=
  (∀ (i : Instr) (s : State), (∀ off n v, i = .registerWrite off n v → off < 0x4000000) → ∃ b : Block, exec i s = .next (s.withBlk b)) ∧
  (∀ (off n : Nat) (v : BitVec 64) (s : State), 0x4000000 ≤ off → exec (.registerWrite off n v) s = .fault .bar0Range) ∧
  (∀ (i : Instr) (s t : State) (q : List Instr), exec i s = .next t →
    t.pending = s.pending ∧ exec i { s with pending := q } = .next { t with pending := q })

/-- After a power-good fall, a thermal trip or a silent regulator the module takes no further action until power is removed (R472): every
step of every command but the fall of PG_AUX leaves it stopped and changes nothing but the clock, the power inputs that fall,
and what the sideband holds and answers. -/
def Obligations.StoppedModuleStays : Prop :=
  ∀ s t : State, s.blk.boot.stopped = true → (∀ rest, s.pending ≠ .powerGoodFall 0 :: rest) → step s = .next t →
    t.blk.boot.stopped = true ∧
    t.blk = { s.blk with clk := t.blk.clk, boot := t.blk.boot, out := t.blk.out } ∧
    t.blk.out = { s.blk.out with alert := t.blk.out.alert, sideband := t.blk.out.sideband } ∧
    t.blk.boot = { s.blk.boot with pgMain := t.blk.boot.pgMain, pgStack := t.blk.boot.pgStack, pgOpt := t.blk.boot.pgOpt,
                                   sbAlert := t.blk.boot.sbAlert, sbMask := t.blk.boot.sbMask, sbAddr := t.blk.boot.sbAddr }

/-- From a module fault on no further command starts, save the two that Ostler still serves, and no kernel issues an instruction (R501). -/
def Obligations.ModuleFaultStops : Prop :=
  (∀ (i : Instr) (id : Nat) (c : Cmd) (s : State), startOf i = some id → s.blk.faulted = true → s.blk.findCmd id = some c →
    c.phase = .waiting → ostlerServes c.opcode = false → exec i s = .next s) ∧
  (∀ (i : Instr) (n : Fin 64) (s : State), vxTileOf i = some n → s.blk.faulted = true → exec i s = .next s)

/-- What reset leaves: no command waits, every register holds the power-up value of its chapter, every memory reads 0, no command is in
flight, the vector engines are clear, global time stands still at 0 (R7, R71, R126, R165, R206, R522; that OTP is blank and
that unwritten host memory reads 0 are the model's choices, log entries 4 and 5). -/
def Obligations.PowerUpState : Prop :=
  State.reset.pending = [] ∧
  (∀ (f : Fld) (i : Nat), State.reset.blk.rget f i = bits (powerUp (f.reg.key (f.word i))).toNat (f.lo % 64) f.width) ∧
  (∀ n : Fin 256, State.reset.blk.rget .SPAOG_SQ_DBVAL_LIMIT n = 0xFFFFFFFF ∧ State.reset.blk.rget .SPAOG_SQ_HEAD_SEQ n = 0 ∧
    State.reset.blk.rget .SPAOG_SQ_CFG_ENABLE n = 0 ∧ State.reset.blk.rget .SPAOG_CQ_CFG_ENABLE n = 0) ∧
  (∀ n : Fin 1024, State.reset.blk.rget .MSIX_CTL_MASK n = 1) ∧
  (∀ n : Nat, (State.reset.blk.tile n).vx = Vx.init ∧ (State.reset.blk.tile n).vx.vl = 512 ∧
    (∀ a, (State.reset.blk.tile n).store.read a = 0) ∧ (∀ r w, (State.reset.blk.tile n).vx.word r w = 0) ∧
    (∀ r, (State.reset.blk.tile n).vx.sreg r = 0)) ∧
  State.reset.blk.cmds = [] ∧ State.reset.blk.clk.g = 0 ∧ State.reset.blk.clk.running = false ∧
  (∀ a, State.reset.blk.host.read a = 0) ∧ (∀ a, State.reset.blk.boot.otp.read a = 0)

/-- Simultaneous events apply in ascending rank and, within a rank, in ascending source number; writes of one rank keep the order in which
they were accepted, and a mailbox's accesses from the module follow by owner number (R19, R21, R95; the class of each
command is the model's reading, log entry 8). -/
def Obligations.EventOrder : Prop :=
  ∀ (b : Block) (cs : List Instr),
    (b.orderTick cs).Perm cs ∧
    (b.orderTick cs).Pairwise (fun x y => eventRank x < eventRank y ∨ (eventRank x = eventRank y ∧ b.eventPlace x ≤ b.eventPlace y)) ∧
    (∀ r p : Nat, (b.orderTick cs).filter (fun x => decide (eventRank x = r ∧ b.eventPlace x = p)) =
      cs.filter (fun x => decide (eventRank x = r ∧ b.eventPlace x = p)))

/-- Serial arithmetic of n bits (R9): a precedes b when (b − a) mod 2^n lies in 1 to 2^(n−1) − 1; of two values that differ, one precedes the
other unless their difference is exactly 2^(n−1), and then neither does; no value precedes itself, and never both. -/
def Obligations.SerialOrder : Prop :=
  ∀ n a b : Nat, 1 ≤ n → a < 2 ^ n → b < 2 ^ n →
    (precedes n a b = true ↔ (1 : Int) ≤ ((b : Int) - a) % 2 ^ n ∧ ((b : Int) - a) % 2 ^ n ≤ 2 ^ (n - 1) - 1) ∧
    (precedes n a b = true → precedes n b a = false) ∧
    (precedes n a b = false ∧ precedes n b a = false ↔ a = b ∨ ((b : Int) - a) % 2 ^ n = 2 ^ (n - 1))

/-- The parameters that decoding gives are well formed: every field fits its width. -/
def Obligations.DecodedParamsFit : Prop := ∀ (op : Nat) (len : Nat) (l : List Byte), (parseParams op len l).wf = true

/-- The word of a VX instruction and its fields determine each other: no bit is dropped and none is read twice. -/
def Obligations.VxWordRoundTrip : Prop :=
  (∀ (op : BitVec 8) (f : VxFields), vxOpcode (vxEncode op f) = op ∧ vxDecode (vxEncode op f) = f) ∧
  (∀ w : BitVec 64, vxEncode (vxOpcode w) (vxDecode w) = w) ∧
  (∀ (op op' : BitVec 8) (f f' : VxFields), vxEncode op f = vxEncode op' f' → op = op' ∧ f = f')

/-- A host write that does not reach its register changes nothing: not with the link down (R56), and else, where the security mode (R486), the
boot (R473) or a missing unit (R28) holds it off, nothing but counters and the error log's signals. -/
def Obligations.HostWritesHeldOff : Prop :=
  ∀ (i : Instr) (off : Nat) (s : State), hostWriteOf i = some off →
    (s.blk.flag .HITCH_STATUS_LINK_UP = false → exec i s = .next s) ∧
    (s.blk.hostWrote.secureOk off = false ∨ (s.blk.hostWrote.flag .OSTLER_BOOT_STATUS_READY = false ∧ earlyOffset off = false) ∨
      s.blk.hostWrote.unitGone off = true → ∃ t : State, exec i s = .next t ∧ s.blk.OnlyRegs [] t.blk)

/-- What a message does (R97): a write to MBX_MSG while FULL is 0 stores it, sets FULL and doorbell bit 31; one while FULL is 1 is dropped and
sets OVERRUN; a read of MBX_TAKE returns the message and FULL and clears FULL; whoever holds the lock. -/
def Obligations.MailboxMessage : Prop :=
  (∀ (n : Fin 16) (a : Nat) (v : BitVec 32) (s : State), s.live → s.blk.Reaches a (mbxOffset n 0) →
    ∃ t : State, exec (.mbxMsg n a v) s = .next t ∧
      (s.blk.flag .MBX_STATUS_FULL n = false →
        t.blk.rget .MBX_TAKE_MSG n = v.toNat ∧ t.blk.rget .MBX_STATUS_FULL n = 1 ∧
        t.blk.rget .MBX_DB_BITS n = s.blk.rget .MBX_DB_BITS n ||| 2 ^ 31 ∧
        t.blk.rget .MBX_STATUS_OVERRUN n = s.blk.rget .MBX_STATUS_OVERRUN n) ∧
      (s.blk.flag .MBX_STATUS_FULL n = true →
        t.blk.rget .MBX_TAKE_MSG n = s.blk.rget .MBX_TAKE_MSG n ∧ t.blk.rget .MBX_STATUS_FULL n = 1 ∧
        t.blk.rget .MBX_DB_BITS n = s.blk.rget .MBX_DB_BITS n ∧ t.blk.rget .MBX_STATUS_OVERRUN n = 1)) ∧
  (∀ (n : Fin 16) (a : Nat) (s : State), s.live →
    (hostAgent a = true → s.blk.HostReads (mbxOffset n 8) →
      ∃ t : State, exec (.mbxTake n a) s = .next t ∧ t.blk.rget .MBX_STATUS_FULL n = 0 ∧
        t.blk.out.reads = s.blk.out.reads ++
          [bytesOf 8 (if s.blk.flag .MBX_STATUS_FULL n then s.blk.rget .MBX_TAKE_MSG n + 2 ^ 32 else 0)]) ∧
    (coreAgent a = true → ∃ t : State, exec (.mbxTake n a) s = .next t ∧ t.blk.rget .MBX_STATUS_FULL n = 0))

/-- A write to MBX_LOCK by the current owner releases the lock, whatever is written; one by any other agent leaves it and sets LOCK_ERR;
an Ostler core's MBX_LOCK_FORCE releases it whatever its owner (R94); a read takes a free lock and answers 0, or answers the
owner and changes nothing (R93). -/
def Obligations.MailboxLock : Prop :=
  (∀ (n : Fin 16) (a : Nat) (s : State), s.live → s.blk.Reaches a (lockOffset n a) →
    ∃ t : State, exec (.mbxLockWrite n a) s = .next t ∧
      (s.blk.rget .MBX_STATUS_OWNER n = a →
        t.blk.rget .MBX_STATUS_OWNER n = 0 ∧ t.blk.rget .MBX_STATUS_LOCK_ERR n = s.blk.rget .MBX_STATUS_LOCK_ERR n) ∧
      (s.blk.rget .MBX_STATUS_OWNER n ≠ a →
        t.blk.rget .MBX_STATUS_OWNER n = s.blk.rget .MBX_STATUS_OWNER n ∧ t.blk.rget .MBX_STATUS_LOCK_ERR n = 1)) ∧
  (∀ (n : Fin 16) (a : Nat) (s : State), s.live → coreAgent a = true →
    ∃ t : State, exec (.mbxLockForce n a true) s = .next t ∧ t.blk.rget .MBX_STATUS_OWNER n = 0) ∧
  (∀ (n : Fin 16) (a : Nat) (s : State), s.live →
    (hostAgent a = true → s.blk.HostReads (lockOffset n a) →
      ∃ t : State, exec (.mbxLockRead n a) s = .next t ∧
        t.blk.rget .MBX_STATUS_OWNER n = (if s.blk.rget .MBX_STATUS_OWNER n = 0 then a else s.blk.rget .MBX_STATUS_OWNER n) ∧
        t.blk.out.reads = s.blk.out.reads ++ [bytesOf 4 (s.blk.rget .MBX_STATUS_OWNER n)]) ∧
    (coreAgent a = true →
      ∃ t : State, exec (.mbxLockRead n a) s = .next t ∧
        t.blk.rget .MBX_STATUS_OWNER n = (if s.blk.rget .MBX_STATUS_OWNER n = 0 then a else s.blk.rget .MBX_STATUS_OWNER n)))

/-- A set, unmasked doorbell bit raises the mailbox's interrupt (R98), delivered once as it rises: to an MSI-X vector, to an Ostler core, or
to a tile's flag, which counts by 1 modulo 2^32 (R99); acknowledging all set bits ends it. -/
def Obligations.MailboxInterrupt : Prop :=
  (∀ (n : Fin 16) (a : Nat) (v : BitVec 32) (s : State), s.live → coreAgent a = true →
    ∃ t : State, exec (.mbxDb n a v) s = .next t ∧ t.blk.rget .MBX_DB_BITS n = s.blk.rget .MBX_DB_BITS n ||| v.toNat ∧
      (s.blk.mbxRaised n = true ∨ (s.blk.rget .MBX_DB_BITS n ||| v.toNat) &&& (2 ^ 32 - 1 - s.blk.rget .MBX_DB_MASK_MASK n) = 0 →
        t.blk = s.blk.rset .MBX_DB_BITS n (s.blk.rget .MBX_DB_BITS n ||| v.toNat)) ∧
      (s.blk.mbxRaised n = false → (s.blk.rget .MBX_DB_BITS n ||| v.toNat) &&& (2 ^ 32 - 1 - s.blk.rget .MBX_DB_MASK_MASK n) ≠ 0 →
        (s.blk.rget .MBX_ROUTE_CLASS n = 0 →
          t.blk = (s.blk.rset .MBX_DB_BITS n (s.blk.rget .MBX_DB_BITS n ||| v.toNat)).fireVector (s.blk.rget .MBX_ROUTE_INDEX n)) ∧
        (s.blk.rget .MBX_ROUTE_CLASS n = 1 → s.blk.rget .MBX_ROUTE_INDEX n ≤ 3 →
          t.blk.out.coreIrq = s.blk.out.coreIrq ++ [s.blk.rget .MBX_ROUTE_INDEX n]) ∧
        (s.blk.rget .MBX_ROUTE_CLASS n = 2 → s.blk.tileWorks (s.blk.rget .MBX_ROUTE_INDEX n) = true →
          let k := flagIdx (s.blk.rget .MBX_ROUTE_INDEX n) (s.blk.rget .MBX_ROUTE_FLAG n)
          t.blk.rget .TILE_FLAG_VALUE k = (s.blk.rget .TILE_FLAG_VALUE k + 1) % 2 ^ 32))) ∧
  (∀ (n : Fin 16) (a : Nat) (v : BitVec 32) (s : State), s.live → coreAgent a = true →
    s.blk.rget .MBX_DB_BITS n &&& v.toNat = s.blk.rget .MBX_DB_BITS n →
    ∃ t : State, exec (.mbxDbAck n a v) s = .next t ∧ t.blk.rget .MBX_DB_BITS n = 0 ∧ t.blk.mbxRaised n = false)

/-- A mailbox's rows change nothing but the fields that each names, of that mailbox alone, the tile flag to which its interrupt is routed, and
what signals; memories, commands in flight, tiles and every other register stay. -/
def Obligations.MailboxFrame : Prop :=
  ∀ (n : Fin 16) (a : Nat) (v : BitVec 32) (r : Bool) (s t : State),
    let k := flagIdx (s.blk.rget .MBX_ROUTE_INDEX n) (s.blk.rget .MBX_ROUTE_FLAG n)
    (exec (.mbxLockRead n a) s = .next t → s.blk.OnlyRegs [(.MBX_STATUS_OWNER, n)] t.blk) ∧
    (exec (.mbxLockWrite n a) s = .next t → s.blk.OnlyRegs [(.MBX_STATUS_OWNER, n), (.MBX_STATUS_LOCK_ERR, n)] t.blk) ∧
    (exec (.mbxLockForce n a r) s = .next t → s.blk.OnlyRegs [(.MBX_STATUS_OWNER, n)] t.blk) ∧
    (exec (.mbxMsg n a v) s = .next t → s.blk.OnlyRegs
      [(.MBX_TAKE_MSG, n), (.MBX_STATUS_FULL, n), (.MBX_STATUS_OVERRUN, n), (.MBX_DB_BITS, n), (.TILE_FLAG_VALUE, k)] t.blk) ∧
    (exec (.mbxTake n a) s = .next t → s.blk.OnlyRegs [(.MBX_TAKE_MSG, n), (.MBX_STATUS_FULL, n)] t.blk) ∧
    (exec (.mbxDb n a v) s = .next t → s.blk.OnlyRegs [(.MBX_DB_BITS, n), (.TILE_FLAG_VALUE, k)] t.blk) ∧
    (exec (.mbxDbAck n a v) s = .next t → s.blk.OnlyRegs [(.MBX_DB_BITS, n), (.TILE_FLAG_VALUE, k)] t.blk) ∧
    (exec (.mbxDbMask n a v) s = .next t → s.blk.OnlyRegs [(.MBX_DB_MASK_MASK, n), (.TILE_FLAG_VALUE, k)] t.blk)

/-- A write to SPAOG_CQ_DB that would report more records consumed than have been written, compared under R9, is ignored and records an
error-log entry (R86): class 0x20 at the log's next slot, and WRITTEN counts it; one that reports as many or fewer sets the count consumed, and
one exactly 2^31 away, which neither precedes nor follows, is stale (R9) and changes nothing. -/
def Obligations.ConsumeDoorbell : Prop :=
  ∀ (n : Fin 256) (v : BitVec 32) (s : State), s.live → s.blk.HostWrites (0x104000 + 64 * n.val) →
    ∃ t : State, exec (.spaogCqDb n v) s = .next t ∧
      (v.toNat = s.blk.rget .SPAOG_CQ_TAIL_WRITTEN n ∨ precedes 32 v.toNat (s.blk.rget .SPAOG_CQ_TAIL_WRITTEN n) = true →
        t.blk = s.blk.hostWrote.rset .SPAOG_CQ_HEAD_CONSUMED n v.toNat ∧ t.blk.rget .SPAOG_CQ_HEAD_CONSUMED n = v.toNat) ∧
      (precedes 32 (s.blk.rget .SPAOG_CQ_TAIL_WRITTEN n) v.toNat = true →
        s.blk.OnlyRegs [] t.blk ∧
        t.blk.rget .OSTLER_ERRLOG_STATUS_WRITTEN = (s.blk.rget .OSTLER_ERRLOG_STATUS_WRITTEN + 1) % 2 ^ 32 ∧
        (let e := Sparse.get (always ErrEntry.blank) t.blk.errlog (s.blk.rget .OSTLER_ERRLOG_STATUS_WRITTEN % 4096)
         e.seq = s.blk.rget .OSTLER_ERRLOG_STATUS_WRITTEN ∧ e.cls = 0x20 ∧ e.source = 0x056 ∧ e.addr = 0x104000 + 64 * n.val)) ∧
      (v.toNat ≠ s.blk.rget .SPAOG_CQ_TAIL_WRITTEN n → precedes 32 v.toNat (s.blk.rget .SPAOG_CQ_TAIL_WRITTEN n) = false →
        precedes 32 (s.blk.rget .SPAOG_CQ_TAIL_WRITTEN n) v.toNat = false → t.blk = s.blk.hostWrote)

/-- TILE_CFG accepts a write only while the tile is IDLE, no group or slot is open, and LEGACY_ROWS is a multiple of 8 from 8 to 2,048; any
other write is ignored and sets CFG_REJECT (R144, R148). -/
def Obligations.TileConfigWrite : Prop :=
  ∀ (n : Fin 64) (v : BitVec 32) (s : State), s.live → s.blk.HostWrites (tileOffset n 8) →
    let rows := bits v.toNat 2 12
    let ok := s.blk.rget .TILE_STATUS_STATE n = 0 ∧ (∀ g ∈ (s.blk.tile n).groups, g.2.isOpen = false) ∧
      8 ≤ rows ∧ rows ≤ 2048 ∧ rows % 8 = 0
    ∃ t : State, exec (.tileCfgWrite n v) s = .next t ∧
      (ok → t.blk.rget .TILE_CFG_ACC_MODE n = bits v.toNat 0 1 ∧ t.blk.rget .TILE_CFG_LEGACY_BF16 n = bits v.toNat 1 1 ∧
        t.blk.rget .TILE_CFG_LEGACY_ROWS n = rows ∧ t.blk.rget .TILE_STATUS_CFG_REJECT n = s.blk.rget .TILE_STATUS_CFG_REJECT n) ∧
      (¬ok → t.blk.rget .TILE_STATUS_CFG_REJECT n = 1 ∧ t.blk.word .TILE_CFG n = s.blk.word .TILE_CFG n)

/-- Host accesses to plain registers change nothing but the fields that each names, of that ring, gate, tile or port alone, and what signals:
counters, MSI-X, the error log, the trace unit. -/
def Obligations.HostRegisterFrame : Prop :=
  ∀ (s t : State),
    (∀ (q : Fin 256) v, exec (.spaogCqDb q v) s = .next t → s.blk.OnlyRegs [(.SPAOG_CQ_HEAD_CONSUMED, q)] t.blk) ∧
    (∀ (q : Fin 256) v, exec (.spaogSqHead q v) s = .next t →
      s.blk.OnlyRegs [(.SPAOG_SQ_HEAD_SEQ, q), (.SPAOG_SQ_HEAD_POS, q), (.SPAOG_SQ_DBVAL_LIMIT, q)] t.blk) ∧
    (∀ (q : Fin 256) v, exec (.cqEnableWrite q v) s = .next t → s.blk.OnlyRegs
      [(.SPAOG_CQ_CFG_ENABLE, q), (.SPAOG_CQ_CFG_SIZE_LOG2, q), (.SPAOG_CQ_CFG_VECTOR, q), (.SPAOG_CQ_CFG_COAL_COUNT, q),
       (.SPAOG_CQ_CFG_COAL_TIME, q), (.SPAOG_CQ_CFG_CTX, q), (.SPAOG_CQ_CFG_FAULT, q), (.SPAOG_CQ_CFG_LOST, q)] t.blk) ∧
    (∀ (g : Fin 4096) v, exec (.spaogGate g v) s = .next t →
      s.blk.OnlyRegs [(.SPAOG_GATE_VALUE, g), (.SPAOG_GATE_CTX, g), (.SPAOG_GATE_ENABLE, g)] t.blk) ∧
    (∀ (n : Fin 64) v, exec (.tileCfgWrite n v) s = .next t → s.blk.OnlyRegs
      [(.TILE_CFG_ACC_MODE, n), (.TILE_CFG_LEGACY_BF16, n), (.TILE_CFG_LEGACY_ROWS, n), (.TILE_STATUS_ACC_MODE, n),
       (.TILE_STATUS_CFG_REJECT, n)] t.blk) ∧
    (∀ (n : Fin 64) (k : Fin 16) v, exec (.tileFlagWrite n k v) s = .next t →
      s.blk.OnlyRegs [(.TILE_FLAG_VALUE, flagIdx n k)] t.blk) ∧
    (∀ (n : Fin 64) v, exec (.tileVxCfgWrite n v) s = .next t → s.blk.OnlyRegs
      [(.TILE_VX_CFG_SVC_EN, n), (.TILE_VX_CFG_SHARE, n), (.TILE_STATUS_CFG_REJECT, n)] t.blk) ∧
    (∀ (m : Fin 16) v, exec (.macRawrxHead m v) s = .next t → s.blk.OnlyRegs [(.MAC_RAWRX_HEAD_CONSUMED, m)] t.blk) ∧
    (exec .traceCtlTrigger s = .next t → s.blk.OnlyRegs [] t.blk) ∧
    (exec .curbPowerPeakRead s = .next t → s.blk.OnlyRegs [(.CURB_POWER_PEAK_MW_K, 0)] t.blk) ∧
    (exec .droverFlipMaxNs s = .next t → s.blk.OnlyRegs [(.DROVER_FLIP_MAX_NS_COUNT, 0)] t.blk)

/-- A write of PERF_CTL sets the counters that it selects to 0, and the others hold (R518). -/
def Obligations.CountersCleared : Prop :=
  ∀ (v : BitVec 64) (s : State), s.live → s.blk.HostWrites 0x1801600 →
    ∃ t : State, exec (.perfCtlClear v) s = .next t ∧
      (∀ k : Fin 64, t.blk.rget .PERF_CTR_COUNT k = if bitAt v.toNat k then 0 else s.blk.rget .PERF_CTR_COUNT k) ∧
      s.blk.OnlyRegs [] t.blk

/-- What an instruction of the vector engine that meets no parity error leaves alone while its kernel goes on: everything but its own tile, TILE_VX_STATUS and the service
count of that tile, the draws of free values and what signals; of its tile everything but the engine and, for a store, the tile
store; of the engine the instruction memory, the service buffer and the launch (R165, R182, R185). -/
def Obligations.VxFrame : Prop :=
  ∀ (i : Instr) (n : Fin 64) (s t : State), vxTileOf i = some n → vxPar i = none → exec i s = .next t →
    (t.blk.tile n).vx.cmd = (s.blk.tile n).vx.cmd →
    (∃ b : Block, b = { s.blk with tiles := t.blk.tiles, free := t.blk.free } ∧
      b.OnlyRegs [(.TILE_VX_STATUS_PC, n), (.TILE_VX_STATUS_VL, n), (.TILE_VX_STATUS_RUNNING, n), (.TILE_VX_STATUS_SVC_ACTIVE, n),
        (.TILE_VX_SVC_CYCLES_COUNT, n)] t.blk) ∧
    (∀ m : Nat, m ≠ n → t.blk.tile m = s.blk.tile m) ∧
    (∃ (x : Vx) (m : Memory), t.blk.tile n = { s.blk.tile n with vx := x, store := m }) ∧
    (vxStoreRow i = false → (t.blk.tile n).store = (s.blk.tile n).store) ∧
    (t.blk.tile n).vx.imem = (s.blk.tile n).vx.imem ∧ (t.blk.tile n).vx.svc = (s.blk.tile n).vx.svc ∧
    (t.blk.tile n).vx.base = (s.blk.tile n).vx.base ∧ (t.blk.tile n).vx.replayed = (s.blk.tile n).vx.replayed

/-- A store of the vector engine writes the words of V[D] below VL, or S[D], at the addresses that it computes, and every other byte of the
tile store reads as before (R169, R171, R172). -/
def Obligations.VxStoreBytes : Prop :=
  (∀ (tile : Fin 64) (f : VxFields) (s t : State) (c : Cmd) (p : VkernParams), s.live →
    let stores := fun (i : Instr) (op : BitVec 8) (as : Vx → List Nat) =>
      s.blk.VxRuns tile op f 0 c p → exec i s = .next t →
      let x := s.blk.vxFetched tile op f 0
      vxFirstBad p (x.pc - 1) 4 true (as x) = none →
      (∀ a, (∀ w ∈ as x, a < w ∨ w + 4 ≤ a) → (t.blk.tile tile).store.read a = (s.blk.tile tile).store.read a) ∧
      (∀ k, k < x.vl → (∀ j, k < j → j < x.vl → (as x)[j]! + 4 ≤ (as x)[k]! ∨ (as x)[k]! + 4 ≤ (as x)[j]!) →
        (t.blk.tile tile).store.readNat ((as x)[k]!) 4 = x.word f.rd k)
    stores (.vst tile f) 0x31 (fun x => x.seqAddrs f) ∧
    stores (.vsts tile f) 0x33 (fun x => x.strideAddrs f) ∧
    stores (.vstx tile f) 0x35 (fun x => x.indexAddrs f)) ∧
  (∀ (tile : Fin 64) (f : VxFields) (s t : State) (c : Cmd) (p : VkernParams), s.live → s.blk.VxRuns tile 0x37 f 0 c p →
    exec (.sst tile f) s = .next t →
    let x := s.blk.vxFetched tile 0x37 f 0
    let a := (x.addr f).toNat
    vxBad p (x.pc - 1) a 8 true = none →
    (∀ k, k < a ∨ a + 8 ≤ k → (t.blk.tile tile).store.read k = (s.blk.tile tile).store.read k) ∧
    (t.blk.tile tile).store.readNat a 8 = (x.sreg f.rd).toNat)

/-- A lane instruction acts on every element below VL and leaves the other words of its destination, and every other vector register, as
they were (R166, R169); `g` is what the instruction computes for each element. -/
def Obligations.LanesBelowVl : Prop :=
  ∀ (x : Vx) (f : VxFields) (g : Vx → Nat → Nat), f.fm ≤ 8 → x.vl ≤ 512 →
    (∀ i, i < x.count f.fm → (vxLanes f g x).elem f.rd f.fm i = g x i % 2 ^ fmtBits f.fm) ∧
    (∀ w, x.vl ≤ w → w < 512 → (vxLanes f g x).word f.rd w = x.word f.rd w) ∧
    (∀ r w, r ≠ f.rd → (f.fm = 8 → r ≠ f.rd + 1) → w < 512 → (vxLanes f g x).word r w = x.word r w) ∧
    (f.fm = 8 → ∀ w, x.vl ≤ w → w < 512 → (vxLanes f g x).word (f.rd + 1) w = x.word (f.rd + 1) w)

/-- At the start of execution, S1 to S(NARGS) hold ARG[0] to ARG[NARGS − 1], and every other scalar register holds 0; VL is 512 and PC is
ENTRY; the vector registers hold what R165 leaves in them (R183): as VKERN starts a kernel whose code load succeeds. -/
def Obligations.KernelStart : Prop :=
  ∀ (s : State) (id : Nat) (p : VkernParams) (c : Cmd) (b : Block), s.live → s.blk.TileStarts id (.vkern p) c →
    codeLoad c p (if p.resetBusy then (s.blk.entered id c).rset .TILE_VEC_BUSY_COUNT c.tile 0 else s.blk.entered id c) = (.ok (), b) →
    ∃ t : State, exec (.vkern id p) s = .next t ∧
      let x := (t.blk.tile c.tile).vx
      x.vl = 512 ∧ x.pc = p.entry ∧
      (∀ k, k < p.nargs → x.sreg (k + 1) = BitVec.ofNat 64 (p.args.getD k 0)) ∧
      (∀ r, r = 0 ∨ p.nargs < r → x.sreg r = 0) ∧
      (∀ r w, x.word r w = (b.tile c.tile).vx.word r w) ∧ x.imem = (b.tile c.tile).vx.imem

end
end

