-- ==== Sys2Proof/Laws/Sparse.lean ====
section
/-! SUPPORT. Laws of the sparse maps and of memory: a read after a write, and the canonical form that every operation
keeps. -/

namespace Sys2Proof.Machine

variable {α : Type}

theorem Sparse.get_del_self (d : Nat → α) (m : Sparse α) (k : Nat) : Sparse.get d (Sparse.del m k) k = d k := by
  induction m with
  | nil => rfl
  | cons p m ih =>
    by_cases h : p.1 = k
    · simp [Sparse.del, h, ih]
    · simp [Sparse.del, Sparse.get, h, ih]

theorem Sparse.get_del_ne (d : Nat → α) (m : Sparse α) {k j : Nat} (h : j ≠ k) :
    Sparse.get d (Sparse.del m k) j = Sparse.get d m j := by
  induction m with
  | nil => rfl
  | cons p m ih =>
    by_cases hk : p.1 = k
    · have : p.1 ≠ j := fun e => h (e ▸ hk)
      simp [Sparse.del, Sparse.get, hk, ih, Ne.symm h]
    · simp [Sparse.del, Sparse.get, hk, ih]

theorem Sparse.get_insert_self (d : Nat → α) (m : Sparse α) (k : Nat) (v : α) :
    Sparse.get d (Sparse.insert (Sparse.del m k) k v) k = v := by
  induction m with
  | nil => simp [Sparse.del, Sparse.insert, Sparse.get]
  | cons p m ih =>
    by_cases hk : p.1 = k
    · simpa [Sparse.del, hk] using ih
    · by_cases hl : k < p.1
      · simp [Sparse.del, hk, Sparse.insert, hl, Sparse.get]
      · simpa [Sparse.del, hk, Sparse.insert, hl, Sparse.get] using ih

theorem Sparse.get_insert_ne (d : Nat → α) (m : Sparse α) {k j : Nat} (v : α) (h : j ≠ k) :
    Sparse.get d (Sparse.insert m k v) j = Sparse.get d m j := by
  induction m with
  | nil => simp [Sparse.insert, Sparse.get, Ne.symm h]
  | cons p m ih =>
    by_cases hl : k < p.1
    · simp [Sparse.insert, hl, Sparse.get, Ne.symm h]
    · simp [Sparse.insert, hl, Sparse.get, ih]

/-- A read after a write to the same key gives the value written. -/
@[simp] theorem Sparse.get_set_self [DecidableEq α] (d : Nat → α) (m : Sparse α) (k : Nat) (v : α) :
    Sparse.get d (Sparse.set d m k v) k = v := by
  unfold Sparse.set
  split
  · next h => rw [Sparse.get_del_self, h]
  · exact Sparse.get_insert_self d m k v

/-- A write leaves every other key alone. -/
theorem Sparse.get_set_ne [DecidableEq α] (d : Nat → α) (m : Sparse α) {k j : Nat} (v : α) (h : j ≠ k) :
    Sparse.get d (Sparse.set d m k v) j = Sparse.get d m j := by
  unfold Sparse.set
  split
  · exact Sparse.get_del_ne d m h
  · rw [Sparse.get_insert_ne d _ v h, Sparse.get_del_ne d m h]

/-! ### The canonical form -/

/-- Every key of `m` is above `k`. -/
def Sparse.above (k : Nat) (m : Sparse α) : Prop := ∀ p ∈ m, k < p.1

theorem Sparse.sorted_cons (p : Nat × α) (m : Sparse α) :
    Sparse.sorted (p :: m) = true ↔ Sparse.above p.1 m ∧ Sparse.sorted m = true := by
  induction m generalizing p with
  | nil => simp [Sparse.sorted, Sparse.above]
  | cons q m ih =>
    have hq := ih q
    simp only [Sparse.sorted, Bool.and_eq_true, decide_eq_true_eq]
    constructor
    · rintro ⟨h1, h2⟩
      refine ⟨?_, h2⟩
      intro r hr
      rcases List.mem_cons.1 hr with rfl | hr
      · exact h1
      · exact Nat.lt_trans h1 ((hq.1 h2).1 r hr)
    · rintro ⟨h1, h2⟩
      exact ⟨h1 q List.mem_cons_self, h2⟩

theorem Sparse.mem_del {m : Sparse α} {k : Nat} {p : Nat × α} (h : p ∈ Sparse.del m k) : p ∈ m ∧ p.1 ≠ k := by
  induction m with
  | nil => simp [Sparse.del] at h
  | cons q m ih =>
    by_cases hq : q.1 = k
    · simp only [Sparse.del, hq, if_true] at h
      exact ⟨List.mem_cons_of_mem _ (ih h).1, (ih h).2⟩
    · simp only [Sparse.del, hq, if_false, List.mem_cons] at h
      rcases h with rfl | h
      · exact ⟨List.mem_cons_self, hq⟩
      · exact ⟨List.mem_cons_of_mem _ (ih h).1, (ih h).2⟩

theorem Sparse.mem_insert {m : Sparse α} {k : Nat} {v : α} {p : Nat × α} (h : p ∈ Sparse.insert m k v) :
    p = (k, v) ∨ p ∈ m := by
  induction m with
  | nil => simpa [Sparse.insert] using h
  | cons q m ih =>
    by_cases hl : k < q.1
    · simpa [Sparse.insert, hl] using h
    · simp only [Sparse.insert, hl, if_false, List.mem_cons] at h
      rcases h with rfl | h
      · exact Or.inr List.mem_cons_self
      · exact (ih h).imp id (List.mem_cons_of_mem _)

theorem Sparse.sorted_del {m : Sparse α} (h : Sparse.sorted m = true) (k : Nat) : Sparse.sorted (Sparse.del m k) = true := by
  induction m with
  | nil => rfl
  | cons q m ih =>
    obtain ⟨ha, hs⟩ := (Sparse.sorted_cons q m).1 h
    by_cases hq : q.1 = k
    · simpa [Sparse.del, hq] using ih hs
    · simp only [Sparse.del, hq, if_false]
      exact (Sparse.sorted_cons _ _).2 ⟨fun p hp => ha p (Sparse.mem_del hp).1, ih hs⟩

theorem Sparse.sorted_insert {m : Sparse α} (h : Sparse.sorted m = true) {k : Nat} (hk : ∀ p ∈ m, p.1 ≠ k) (v : α) :
    Sparse.sorted (Sparse.insert m k v) = true := by
  induction m with
  | nil => rfl
  | cons q m ih =>
    obtain ⟨ha, hs⟩ := (Sparse.sorted_cons q m).1 h
    by_cases hl : k < q.1
    · simp only [Sparse.insert, hl, if_true]
      refine (Sparse.sorted_cons _ _).2 ⟨?_, h⟩
      intro p hp
      rcases List.mem_cons.1 hp with rfl | hp
      · exact hl
      · exact Nat.lt_trans hl (ha p hp)
    · simp only [Sparse.insert, hl, if_false]
      refine (Sparse.sorted_cons _ _).2 ⟨?_, ih hs (fun p hp => hk p (List.mem_cons_of_mem _ hp))⟩
      intro p hp
      have hqk : q.1 ≠ k := hk q List.mem_cons_self
      rcases Sparse.mem_insert hp with rfl | hp
      · simp only; omega
      · exact ha p hp

/-- A write keeps the canonical form. -/
theorem Sparse.wf_set [DecidableEq α] {d : Nat → α} {m : Sparse α} (h : Sparse.wf d m = true) (k : Nat) (v : α) :
    Sparse.wf d (Sparse.set d m k v) = true := by
  simp only [Sparse.wf, Bool.and_eq_true, List.all_eq_true, decide_eq_true_eq] at h ⊢
  unfold Sparse.set
  split
  · exact ⟨Sparse.sorted_del h.1 k, fun p hp => h.2 p (Sparse.mem_del hp).1⟩
  · next hv =>
    refine ⟨Sparse.sorted_insert (Sparse.sorted_del h.1 k) (fun p hp => (Sparse.mem_del hp).2) v, ?_⟩
    intro p hp
    rcases Sparse.mem_insert hp with rfl | hp
    · exact hv
    · exact h.2 p (Sparse.mem_del hp).1

theorem Sparse.sorted_filter {m : Sparse α} (h : Sparse.sorted m = true) (f : Nat × α → Bool) :
    Sparse.sorted (m.filter f) = true := by
  induction m with
  | nil => rfl
  | cons q m ih =>
    obtain ⟨ha, hs⟩ := (Sparse.sorted_cons q m).1 h
    by_cases hf : f q
    · simp only [List.filter_cons, hf, if_true]
      exact (Sparse.sorted_cons _ _).2 ⟨fun p hp => ha p (List.mem_filter.1 hp).1, ih hs⟩
    · simpa [List.filter_cons, hf] using ih hs

/-! ### Memory -/

/-- A read after a write of a byte: the byte at its address, what was there elsewhere. -/
theorem Memory.read_write (m : Memory) (a b : Nat) (v : Byte) :
    (m.write a v).read b = if b = a then v else m.read b := by
  unfold Memory.read Memory.write
  by_cases h : b = a
  · subst h; simp
  · rw [Sparse.get_set_ne _ _ _ h, if_neg h]

/-- A write of bytes keeps the canonical form of memory. -/
theorem Memory.wf_writeBytes (bs : List Byte) {m : Memory} (h : m.wf = true) (a : Nat) : (m.writeBytes a bs).wf = true := by
  induction bs generalizing m a with
  | nil => exact h
  | cons b bs ih => exact ih (Sparse.wf_set h a b) (a + 1)

/-- Clearing a range keeps the canonical form of memory. -/
theorem Memory.wf_clear {m : Memory} (h : m.wf = true) (a n : Nat) : (m.clear a n).wf = true := by
  simp only [Memory.wf, Sparse.wf, Memory.clear, Bool.and_eq_true, List.all_eq_true] at h ⊢
  exact ⟨Sparse.sorted_filter h.1 _, fun p hp => h.2 p (List.mem_filter.1 hp).1⟩

/-- What a write of bytes leaves at an address: the byte written there, or what was there before. -/
theorem Memory.read_writeBytes (bs : List Byte) (m : Memory) (a b : Nat) :
    (m.writeBytes a bs).read b = if a ≤ b ∧ b < a + bs.length then bs.getD (b - a) 0 else m.read b := by
  induction bs generalizing m a with
  | nil =>
    rw [if_neg (by simp only [List.length_nil]; omega)]
    rfl
  | cons c bs ih =>
    rw [Memory.writeBytes, ih, Memory.read_write]
    by_cases h1 : b = a
    · subst h1
      rw [if_neg (by omega), if_pos rfl, if_pos (by simp only [List.length_cons]; omega)]
      simp
    · by_cases h2 : a + 1 ≤ b ∧ b < a + 1 + bs.length
      · rw [if_pos h2, if_pos (by simp only [List.length_cons]; omega)]
        obtain ⟨n, hn⟩ : ∃ n, b - a = n + 1 := ⟨b - a - 1, by omega⟩
        have : b - (a + 1) = n := by omega
        rw [hn, this, List.getD_cons_succ]
      · rw [if_neg h2, if_neg h1, if_neg (by simp only [List.length_cons]; omega)]

end Sys2Proof.Machine
end

