-- ==== Sys2Proof/Laws/Regs.lean ====
section
/-! SUPPORT. Laws of bit fields and of the register map: what a field reads after a field is written, and that writing a
register changes nothing but the register map. -/

namespace Sys2Proof.Machine

/-! ### Bit fields -/

theorem bits_lt (x lo n : Nat) : bits x lo n < 2 ^ n := Nat.mod_lt _ (Nat.two_pow_pos n)

/-- A number cut at a field: what lies above it, the field, what lies below. -/
theorem bits_split (x lo n : Nat) : x = x / 2 ^ (lo + n) * 2 ^ (lo + n) + bits x lo n * 2 ^ lo + x % 2 ^ lo := by
  have h1 := Nat.div_add_mod x (2 ^ lo)
  have h2 := Nat.div_add_mod (x / 2 ^ lo) (2 ^ n)
  have h3 : x / 2 ^ lo / 2 ^ n = x / 2 ^ (lo + n) := by rw [Nat.div_div_eq_div_mul, ← Nat.pow_add]
  unfold bits
  rw [← h3, Nat.pow_add]
  conv_lhs => rw [← h1, ← h2]
  ring

theorem setBits_eq (x lo n v : Nat) :
    setBits x lo n v = x / 2 ^ (lo + n) * 2 ^ (lo + n) + v % 2 ^ n * 2 ^ lo + x % 2 ^ lo := by
  have h := bits_split x lo n
  unfold setBits
  omega

/-- A field reads what was written to it. -/
@[simp] theorem bits_setBits_self (x lo n v : Nat) : bits (setBits x lo n v) lo n = v % 2 ^ n := by
  rw [setBits_eq, bits]
  have hl : x % 2 ^ lo < 2 ^ lo := Nat.mod_lt _ (Nat.two_pow_pos lo)
  have : x / 2 ^ (lo + n) * 2 ^ (lo + n) + v % 2 ^ n * 2 ^ lo + x % 2 ^ lo
      = 2 ^ lo * (x / 2 ^ (lo + n) * 2 ^ n + v % 2 ^ n) + x % 2 ^ lo := by rw [Nat.pow_add]; ring
  rw [this, Nat.mul_add_div (Nat.two_pow_pos lo), Nat.div_eq_of_lt hl, Nat.add_zero, Nat.mul_comm, Nat.mul_add_mod]
  exact Nat.mod_eq_of_lt (Nat.mod_lt _ (Nat.two_pow_pos n))

theorem testBit_setBits (x lo n v i : Nat) :
    (setBits x lo n v).testBit i = if lo ≤ i ∧ i < lo + n then v.testBit (i - lo) else x.testBit i := by
  rw [setBits_eq]
  have hl : x % 2 ^ lo < 2 ^ lo := Nat.mod_lt _ (Nat.two_pow_pos lo)
  have hv : v % 2 ^ n < 2 ^ n := Nat.mod_lt _ (Nat.two_pow_pos n)
  have e : x / 2 ^ (lo + n) * 2 ^ (lo + n) + v % 2 ^ n * 2 ^ lo + x % 2 ^ lo
      = 2 ^ lo * (2 ^ n * (x / 2 ^ (lo + n)) + v % 2 ^ n) + x % 2 ^ lo := by rw [Nat.pow_add]; ring
  rw [e, Nat.testBit_two_pow_mul_add _ hl]
  by_cases h1 : i < lo
  · rw [if_pos h1, if_neg (by omega), Nat.testBit_mod_two_pow]; simp [h1]
  · rw [if_neg h1, Nat.testBit_two_pow_mul_add _ hv]
    by_cases h2 : i - lo < n
    · rw [if_pos h2, if_pos (by omega), Nat.testBit_mod_two_pow]; simp [h2]
    · rw [if_neg h2, if_neg (by omega), Nat.testBit_div_two_pow]
      congr 1; omega

theorem testBit_bits (x lo n i : Nat) : (bits x lo n).testBit i = (decide (i < n) && x.testBit (lo + i)) := by
  unfold bits
  rw [Nat.testBit_mod_two_pow, Nat.testBit_div_two_pow, Nat.add_comm]

/-- A field beside the one that was written reads as before. -/
theorem bits_setBits_ne {x lo n v lo' n' : Nat} (h : lo' + n' ≤ lo ∨ lo + n ≤ lo') :
    bits (setBits x lo n v) lo' n' = bits x lo' n' := by
  apply Nat.eq_of_testBit_eq
  intro i
  rw [testBit_bits, testBit_bits, testBit_setBits]
  by_cases hi : i < n'
  · rw [if_neg (by omega)]
  · simp [hi]

theorem setBits_lt {x lo n v k : Nat} (hx : x < 2 ^ k) (h : lo + n ≤ k) : setBits x lo n v < 2 ^ k := by
  apply Nat.lt_pow_two_of_testBit
  intro i hi
  rw [testBit_setBits, if_neg (by omega)]
  exact Nat.testBit_lt_two_pow (Nat.lt_of_lt_of_le hx (Nat.pow_le_pow_right (by decide) hi))

/-! ### The register map -/

theorem Block.word_lt (b : Block) (r : RegId) (w : Nat) : b.word r w < 2 ^ 64 := BitVec.isLt _

@[simp] theorem Block.setWord_regs (b : Block) (r : RegId) (w v : Nat) :
    (b.setWord r w v).regs = Sparse.set powerUp b.regs (r.key w) (BitVec.ofNat 64 v) := rfl

/-- A word reads what was written to it. -/
theorem Block.word_setWord_self (b : Block) (r : RegId) (w v : Nat) : (b.setWord r w v).word r w = v % 2 ^ 64 := by
  simp [Block.word]

/-- Another word reads as before. -/
theorem Block.word_setWord_ne (b : Block) {r r' : RegId} {w w' v : Nat} (h : r'.key w' ≠ r.key w) :
    (b.setWord r w v).word r' w' = b.word r' w' := by
  unfold Block.word
  rw [Block.setWord_regs, Sparse.get_set_ne _ _ _ h]

/-- A field that lies in one 64-bit word, as every field of the table does. -/
def Fld.fits (f : Fld) : Bool := decide (f.lo % 64 + f.width ≤ 64)

/-- A field reads what was written to it, modulo its width. -/
theorem Block.rget_rset_self (b : Block) {f : Fld} (hf : f.fits = true) (i v : Nat) : (b.rset f i v).rget f i = v % 2 ^ f.width := by
  have h : f.lo % 64 + f.width ≤ 64 := by simpa [Fld.fits] using hf
  unfold Block.rget Block.rset
  rw [Block.word_setWord_self, Nat.mod_eq_of_lt (setBits_lt (Block.word_lt _ _ _) h), bits_setBits_self]

/-- A field that shares no bit with the one written reads as before. -/
theorem Block.rget_rset_ne (b : Block) {f g : Fld} {i j v : Nat} (hf : f.fits = true) (h : f.apart i g j) :
    (b.rset f i v).rget g j = b.rget g j := by
  have hw : f.lo % 64 + f.width ≤ 64 := by simpa [Fld.fits] using hf
  by_cases hk : g.reg.key (g.word j) = f.reg.key (f.word i)
  · rcases h with h | h
    · exact absurd hk.symm h
    · unfold Block.rget Block.rset
      have e : (b.setWord f.reg (f.word i) (setBits (b.word f.reg (f.word i)) (f.lo % 64) f.width v)).word g.reg (g.word j)
          = setBits (b.word f.reg (f.word i)) (f.lo % 64) f.width v := by
        unfold Block.word
        rw [hk, Block.setWord_regs, Sparse.get_set_self, BitVec.toNat_ofNat]
        exact Nat.mod_eq_of_lt (setBits_lt (BitVec.isLt _) hw)
      have e2 : b.word g.reg (g.word j) = b.word f.reg (f.word i) := by unfold Block.word; rw [hk]
      rw [e, e2]
      exact bits_setBits_ne (by omega)
  · unfold Block.rget Block.rset
    rw [Block.word_setWord_ne _ hk]

/-- Registers with different names share no word, within the words a register can have. -/
theorem RegId.key_ne {r r' : RegId} (h : r.code ≠ r'.code) {w w' : Nat} (hw : w < 2 ^ 24) (hw' : w' < 2 ^ 24) :
    r.key w ≠ r'.key w' := by
  unfold RegId.key
  omega

/-- Counting events of a counter leaves the fields of other registers alone. -/
theorem Block.rget_count_ne (b : Block) {f g : Fld} {i j n : Nat} (hf : f.fits = true) (h : f.apart i g j) :
    (b.count f i n).rget g j = b.rget g j := by
  unfold Block.count
  split
  · rfl
  · exact Block.rget_rset_ne b hf h

theorem Block.rget_count_self (b : Block) {f : Fld} (hf : f.fits = true) (i n : Nat) :
    (b.count f i n).rget f i = (b.rget f i + n) % 2 ^ f.width := by
  unfold Block.count
  split
  · next h =>
    subst h
    rw [Nat.add_zero, Nat.mod_eq_of_lt]
    exact bits_lt _ _ _
  · exact Block.rget_rset_self b hf i _

/-- What is not the register map stays: the one record update that a register write makes. -/
theorem Block.rset_eq (b : Block) (f : Fld) (i v : Nat) : b.rset f i v = { b with regs := (b.rset f i v).regs } := rfl

end Sys2Proof.Machine
end

