-- ==== Sys2Proof/Laws/State.lean ====
section
/-! SUPPORT. What the named updates of the state leave of each of its fields: one lemma for each field and update. The
update of one field is stated first, for any new value; the named updates are instances of it. -/

namespace Sys2Proof.Machine

/-! ### The field `regs` -/

theorem Block.with_regs_clk (b : Block) (x : Sparse (BitVec 64)) : ({ b with regs := x } : Block).clk = b.clk := rfl
theorem Block.with_regs_free (b : Block) (x : Sparse (BitVec 64)) : ({ b with regs := x } : Block).free = b.free := rfl
theorem Block.with_regs_cmds (b : Block) (x : Sparse (BitVec 64)) : ({ b with regs := x } : Block).cmds = b.cmds := rfl
theorem Block.with_regs_nextId (b : Block) (x : Sparse (BitVec 64)) : ({ b with regs := x } : Block).nextId = b.nextId := rfl
theorem Block.with_regs_jobs (b : Block) (x : Sparse (BitVec 64)) : ({ b with regs := x } : Block).jobs = b.jobs := rfl
theorem Block.with_regs_fetchNext (b : Block) (x : Sparse (BitVec 64)) : ({ b with regs := x } : Block).fetchNext = b.fetchNext := rfl
theorem Block.with_regs_lastServed (b : Block) (x : Sparse (BitVec 64)) : ({ b with regs := x } : Block).lastServed = b.lastServed := rfl
theorem Block.with_regs_sq (b : Block) (x : Sparse (BitVec 64)) : ({ b with regs := x } : Block).sq = b.sq := rfl
theorem Block.with_regs_cq (b : Block) (x : Sparse (BitVec 64)) : ({ b with regs := x } : Block).cq = b.cq := rfl
theorem Block.with_regs_hitch (b : Block) (x : Sparse (BitVec 64)) : ({ b with regs := x } : Block).hitch = b.hitch := rfl
theorem Block.with_regs_errlog (b : Block) (x : Sparse (BitVec 64)) : ({ b with regs := x } : Block).errlog = b.errlog := rfl
theorem Block.with_regs_trace (b : Block) (x : Sparse (BitVec 64)) : ({ b with regs := x } : Block).trace = b.trace := rfl
theorem Block.with_regs_boot (b : Block) (x : Sparse (BitVec 64)) : ({ b with regs := x } : Block).boot = b.boot := rfl
theorem Block.with_regs_curb (b : Block) (x : Sparse (BitVec 64)) : ({ b with regs := x } : Block).curb = b.curb := rfl
theorem Block.with_regs_host (b : Block) (x : Sparse (BitVec 64)) : ({ b with regs := x } : Block).host = b.host := rfl
theorem Block.with_regs_mem (b : Block) (x : Sparse (BitVec 64)) : ({ b with regs := x } : Block).mem = b.mem := rfl
theorem Block.with_regs_drover (b : Block) (x : Sparse (BitVec 64)) : ({ b with regs := x } : Block).drover = b.drover := rfl
theorem Block.with_regs_tiles (b : Block) (x : Sparse (BitVec 64)) : ({ b with regs := x } : Block).tiles = b.tiles := rfl
theorem Block.with_regs_relay (b : Block) (x : Sparse (BitVec 64)) : ({ b with regs := x } : Block).relay = b.relay := rfl
theorem Block.with_regs_beater (b : Block) (x : Sparse (BitVec 64)) : ({ b with regs := x } : Block).beater = b.beater := rfl
theorem Block.with_regs_farrier (b : Block) (x : Sparse (BitVec 64)) : ({ b with regs := x } : Block).farrier = b.farrier := rfl
theorem Block.with_regs_attends (b : Block) (x : Sparse (BitVec 64)) : ({ b with regs := x } : Block).attends = b.attends := rfl
theorem Block.with_regs_net (b : Block) (x : Sparse (BitVec 64)) : ({ b with regs := x } : Block).net = b.net := rfl
theorem Block.with_regs_out (b : Block) (x : Sparse (BitVec 64)) : ({ b with regs := x } : Block).out = b.out := rfl

/-! ### The field `cmds` -/

theorem Block.with_cmds_clk (b : Block) (x : List Cmd) : ({ b with cmds := x } : Block).clk = b.clk := rfl
theorem Block.with_cmds_free (b : Block) (x : List Cmd) : ({ b with cmds := x } : Block).free = b.free := rfl
theorem Block.with_cmds_regs (b : Block) (x : List Cmd) : ({ b with cmds := x } : Block).regs = b.regs := rfl
theorem Block.with_cmds_nextId (b : Block) (x : List Cmd) : ({ b with cmds := x } : Block).nextId = b.nextId := rfl
theorem Block.with_cmds_jobs (b : Block) (x : List Cmd) : ({ b with cmds := x } : Block).jobs = b.jobs := rfl
theorem Block.with_cmds_fetchNext (b : Block) (x : List Cmd) : ({ b with cmds := x } : Block).fetchNext = b.fetchNext := rfl
theorem Block.with_cmds_lastServed (b : Block) (x : List Cmd) : ({ b with cmds := x } : Block).lastServed = b.lastServed := rfl
theorem Block.with_cmds_sq (b : Block) (x : List Cmd) : ({ b with cmds := x } : Block).sq = b.sq := rfl
theorem Block.with_cmds_cq (b : Block) (x : List Cmd) : ({ b with cmds := x } : Block).cq = b.cq := rfl
theorem Block.with_cmds_hitch (b : Block) (x : List Cmd) : ({ b with cmds := x } : Block).hitch = b.hitch := rfl
theorem Block.with_cmds_errlog (b : Block) (x : List Cmd) : ({ b with cmds := x } : Block).errlog = b.errlog := rfl
theorem Block.with_cmds_trace (b : Block) (x : List Cmd) : ({ b with cmds := x } : Block).trace = b.trace := rfl
theorem Block.with_cmds_boot (b : Block) (x : List Cmd) : ({ b with cmds := x } : Block).boot = b.boot := rfl
theorem Block.with_cmds_curb (b : Block) (x : List Cmd) : ({ b with cmds := x } : Block).curb = b.curb := rfl
theorem Block.with_cmds_host (b : Block) (x : List Cmd) : ({ b with cmds := x } : Block).host = b.host := rfl
theorem Block.with_cmds_mem (b : Block) (x : List Cmd) : ({ b with cmds := x } : Block).mem = b.mem := rfl
theorem Block.with_cmds_drover (b : Block) (x : List Cmd) : ({ b with cmds := x } : Block).drover = b.drover := rfl
theorem Block.with_cmds_tiles (b : Block) (x : List Cmd) : ({ b with cmds := x } : Block).tiles = b.tiles := rfl
theorem Block.with_cmds_relay (b : Block) (x : List Cmd) : ({ b with cmds := x } : Block).relay = b.relay := rfl
theorem Block.with_cmds_beater (b : Block) (x : List Cmd) : ({ b with cmds := x } : Block).beater = b.beater := rfl
theorem Block.with_cmds_farrier (b : Block) (x : List Cmd) : ({ b with cmds := x } : Block).farrier = b.farrier := rfl
theorem Block.with_cmds_attends (b : Block) (x : List Cmd) : ({ b with cmds := x } : Block).attends = b.attends := rfl
theorem Block.with_cmds_net (b : Block) (x : List Cmd) : ({ b with cmds := x } : Block).net = b.net := rfl
theorem Block.with_cmds_out (b : Block) (x : List Cmd) : ({ b with cmds := x } : Block).out = b.out := rfl

/-! ### The field `tiles` -/

theorem Block.with_tiles_clk (b : Block) (x : Sparse Tile) : ({ b with tiles := x } : Block).clk = b.clk := rfl
theorem Block.with_tiles_free (b : Block) (x : Sparse Tile) : ({ b with tiles := x } : Block).free = b.free := rfl
theorem Block.with_tiles_regs (b : Block) (x : Sparse Tile) : ({ b with tiles := x } : Block).regs = b.regs := rfl
theorem Block.with_tiles_cmds (b : Block) (x : Sparse Tile) : ({ b with tiles := x } : Block).cmds = b.cmds := rfl
theorem Block.with_tiles_nextId (b : Block) (x : Sparse Tile) : ({ b with tiles := x } : Block).nextId = b.nextId := rfl
theorem Block.with_tiles_jobs (b : Block) (x : Sparse Tile) : ({ b with tiles := x } : Block).jobs = b.jobs := rfl
theorem Block.with_tiles_fetchNext (b : Block) (x : Sparse Tile) : ({ b with tiles := x } : Block).fetchNext = b.fetchNext := rfl
theorem Block.with_tiles_lastServed (b : Block) (x : Sparse Tile) : ({ b with tiles := x } : Block).lastServed = b.lastServed := rfl
theorem Block.with_tiles_sq (b : Block) (x : Sparse Tile) : ({ b with tiles := x } : Block).sq = b.sq := rfl
theorem Block.with_tiles_cq (b : Block) (x : Sparse Tile) : ({ b with tiles := x } : Block).cq = b.cq := rfl
theorem Block.with_tiles_hitch (b : Block) (x : Sparse Tile) : ({ b with tiles := x } : Block).hitch = b.hitch := rfl
theorem Block.with_tiles_errlog (b : Block) (x : Sparse Tile) : ({ b with tiles := x } : Block).errlog = b.errlog := rfl
theorem Block.with_tiles_trace (b : Block) (x : Sparse Tile) : ({ b with tiles := x } : Block).trace = b.trace := rfl
theorem Block.with_tiles_boot (b : Block) (x : Sparse Tile) : ({ b with tiles := x } : Block).boot = b.boot := rfl
theorem Block.with_tiles_curb (b : Block) (x : Sparse Tile) : ({ b with tiles := x } : Block).curb = b.curb := rfl
theorem Block.with_tiles_host (b : Block) (x : Sparse Tile) : ({ b with tiles := x } : Block).host = b.host := rfl
theorem Block.with_tiles_mem (b : Block) (x : Sparse Tile) : ({ b with tiles := x } : Block).mem = b.mem := rfl
theorem Block.with_tiles_drover (b : Block) (x : Sparse Tile) : ({ b with tiles := x } : Block).drover = b.drover := rfl
theorem Block.with_tiles_relay (b : Block) (x : Sparse Tile) : ({ b with tiles := x } : Block).relay = b.relay := rfl
theorem Block.with_tiles_beater (b : Block) (x : Sparse Tile) : ({ b with tiles := x } : Block).beater = b.beater := rfl
theorem Block.with_tiles_farrier (b : Block) (x : Sparse Tile) : ({ b with tiles := x } : Block).farrier = b.farrier := rfl
theorem Block.with_tiles_attends (b : Block) (x : Sparse Tile) : ({ b with tiles := x } : Block).attends = b.attends := rfl
theorem Block.with_tiles_net (b : Block) (x : Sparse Tile) : ({ b with tiles := x } : Block).net = b.net := rfl
theorem Block.with_tiles_out (b : Block) (x : Sparse Tile) : ({ b with tiles := x } : Block).out = b.out := rfl

/-! ### A word of a register -/

@[simp] theorem Block.setWord_clk (b : Block) (r : RegId) (w v : Nat) :
    (b.setWord r w v).clk = b.clk := Block.with_regs_clk b _
@[simp] theorem Block.setWord_free (b : Block) (r : RegId) (w v : Nat) :
    (b.setWord r w v).free = b.free := Block.with_regs_free b _
@[simp] theorem Block.setWord_cmds (b : Block) (r : RegId) (w v : Nat) :
    (b.setWord r w v).cmds = b.cmds := Block.with_regs_cmds b _
@[simp] theorem Block.setWord_nextId (b : Block) (r : RegId) (w v : Nat) :
    (b.setWord r w v).nextId = b.nextId := Block.with_regs_nextId b _
@[simp] theorem Block.setWord_jobs (b : Block) (r : RegId) (w v : Nat) :
    (b.setWord r w v).jobs = b.jobs := Block.with_regs_jobs b _
@[simp] theorem Block.setWord_fetchNext (b : Block) (r : RegId) (w v : Nat) :
    (b.setWord r w v).fetchNext = b.fetchNext := Block.with_regs_fetchNext b _
@[simp] theorem Block.setWord_lastServed (b : Block) (r : RegId) (w v : Nat) :
    (b.setWord r w v).lastServed = b.lastServed := Block.with_regs_lastServed b _
@[simp] theorem Block.setWord_sq (b : Block) (r : RegId) (w v : Nat) :
    (b.setWord r w v).sq = b.sq := Block.with_regs_sq b _
@[simp] theorem Block.setWord_cq (b : Block) (r : RegId) (w v : Nat) :
    (b.setWord r w v).cq = b.cq := Block.with_regs_cq b _
@[simp] theorem Block.setWord_hitch (b : Block) (r : RegId) (w v : Nat) :
    (b.setWord r w v).hitch = b.hitch := Block.with_regs_hitch b _
@[simp] theorem Block.setWord_errlog (b : Block) (r : RegId) (w v : Nat) :
    (b.setWord r w v).errlog = b.errlog := Block.with_regs_errlog b _
@[simp] theorem Block.setWord_trace (b : Block) (r : RegId) (w v : Nat) :
    (b.setWord r w v).trace = b.trace := Block.with_regs_trace b _
@[simp] theorem Block.setWord_boot (b : Block) (r : RegId) (w v : Nat) :
    (b.setWord r w v).boot = b.boot := Block.with_regs_boot b _
@[simp] theorem Block.setWord_curb (b : Block) (r : RegId) (w v : Nat) :
    (b.setWord r w v).curb = b.curb := Block.with_regs_curb b _
@[simp] theorem Block.setWord_host (b : Block) (r : RegId) (w v : Nat) :
    (b.setWord r w v).host = b.host := Block.with_regs_host b _
@[simp] theorem Block.setWord_mem (b : Block) (r : RegId) (w v : Nat) :
    (b.setWord r w v).mem = b.mem := Block.with_regs_mem b _
@[simp] theorem Block.setWord_drover (b : Block) (r : RegId) (w v : Nat) :
    (b.setWord r w v).drover = b.drover := Block.with_regs_drover b _
@[simp] theorem Block.setWord_tiles (b : Block) (r : RegId) (w v : Nat) :
    (b.setWord r w v).tiles = b.tiles := Block.with_regs_tiles b _
@[simp] theorem Block.setWord_relay (b : Block) (r : RegId) (w v : Nat) :
    (b.setWord r w v).relay = b.relay := Block.with_regs_relay b _
@[simp] theorem Block.setWord_beater (b : Block) (r : RegId) (w v : Nat) :
    (b.setWord r w v).beater = b.beater := Block.with_regs_beater b _
@[simp] theorem Block.setWord_farrier (b : Block) (r : RegId) (w v : Nat) :
    (b.setWord r w v).farrier = b.farrier := Block.with_regs_farrier b _
@[simp] theorem Block.setWord_attends (b : Block) (r : RegId) (w v : Nat) :
    (b.setWord r w v).attends = b.attends := Block.with_regs_attends b _
@[simp] theorem Block.setWord_net (b : Block) (r : RegId) (w v : Nat) :
    (b.setWord r w v).net = b.net := Block.with_regs_net b _
@[simp] theorem Block.setWord_out (b : Block) (r : RegId) (w v : Nat) :
    (b.setWord r w v).out = b.out := Block.with_regs_out b _

/-! ### A field of a register -/

@[simp] theorem Block.rset_clk (b : Block) (f : Fld) (i v : Nat) :
    (b.rset f i v).clk = b.clk := Block.with_regs_clk b _
@[simp] theorem Block.rset_free (b : Block) (f : Fld) (i v : Nat) :
    (b.rset f i v).free = b.free := Block.with_regs_free b _
@[simp] theorem Block.rset_cmds (b : Block) (f : Fld) (i v : Nat) :
    (b.rset f i v).cmds = b.cmds := Block.with_regs_cmds b _
@[simp] theorem Block.rset_nextId (b : Block) (f : Fld) (i v : Nat) :
    (b.rset f i v).nextId = b.nextId := Block.with_regs_nextId b _
@[simp] theorem Block.rset_jobs (b : Block) (f : Fld) (i v : Nat) :
    (b.rset f i v).jobs = b.jobs := Block.with_regs_jobs b _
@[simp] theorem Block.rset_fetchNext (b : Block) (f : Fld) (i v : Nat) :
    (b.rset f i v).fetchNext = b.fetchNext := Block.with_regs_fetchNext b _
@[simp] theorem Block.rset_lastServed (b : Block) (f : Fld) (i v : Nat) :
    (b.rset f i v).lastServed = b.lastServed := Block.with_regs_lastServed b _
@[simp] theorem Block.rset_sq (b : Block) (f : Fld) (i v : Nat) :
    (b.rset f i v).sq = b.sq := Block.with_regs_sq b _
@[simp] theorem Block.rset_cq (b : Block) (f : Fld) (i v : Nat) :
    (b.rset f i v).cq = b.cq := Block.with_regs_cq b _
@[simp] theorem Block.rset_hitch (b : Block) (f : Fld) (i v : Nat) :
    (b.rset f i v).hitch = b.hitch := Block.with_regs_hitch b _
@[simp] theorem Block.rset_errlog (b : Block) (f : Fld) (i v : Nat) :
    (b.rset f i v).errlog = b.errlog := Block.with_regs_errlog b _
@[simp] theorem Block.rset_trace (b : Block) (f : Fld) (i v : Nat) :
    (b.rset f i v).trace = b.trace := Block.with_regs_trace b _
@[simp] theorem Block.rset_boot (b : Block) (f : Fld) (i v : Nat) :
    (b.rset f i v).boot = b.boot := Block.with_regs_boot b _
@[simp] theorem Block.rset_curb (b : Block) (f : Fld) (i v : Nat) :
    (b.rset f i v).curb = b.curb := Block.with_regs_curb b _
@[simp] theorem Block.rset_host (b : Block) (f : Fld) (i v : Nat) :
    (b.rset f i v).host = b.host := Block.with_regs_host b _
@[simp] theorem Block.rset_mem (b : Block) (f : Fld) (i v : Nat) :
    (b.rset f i v).mem = b.mem := Block.with_regs_mem b _
@[simp] theorem Block.rset_drover (b : Block) (f : Fld) (i v : Nat) :
    (b.rset f i v).drover = b.drover := Block.with_regs_drover b _
@[simp] theorem Block.rset_tiles (b : Block) (f : Fld) (i v : Nat) :
    (b.rset f i v).tiles = b.tiles := Block.with_regs_tiles b _
@[simp] theorem Block.rset_relay (b : Block) (f : Fld) (i v : Nat) :
    (b.rset f i v).relay = b.relay := Block.with_regs_relay b _
@[simp] theorem Block.rset_beater (b : Block) (f : Fld) (i v : Nat) :
    (b.rset f i v).beater = b.beater := Block.with_regs_beater b _
@[simp] theorem Block.rset_farrier (b : Block) (f : Fld) (i v : Nat) :
    (b.rset f i v).farrier = b.farrier := Block.with_regs_farrier b _
@[simp] theorem Block.rset_attends (b : Block) (f : Fld) (i v : Nat) :
    (b.rset f i v).attends = b.attends := Block.with_regs_attends b _
@[simp] theorem Block.rset_net (b : Block) (f : Fld) (i v : Nat) :
    (b.rset f i v).net = b.net := Block.with_regs_net b _
@[simp] theorem Block.rset_out (b : Block) (f : Fld) (i v : Nat) :
    (b.rset f i v).out = b.out := Block.with_regs_out b _

/-! ### A command in flight -/

@[simp] theorem Block.updCmd_clk (b : Block) (id : Nat) (g : Cmd → Cmd) :
    (b.updCmd id g).clk = b.clk := Block.with_cmds_clk b _
@[simp] theorem Block.updCmd_free (b : Block) (id : Nat) (g : Cmd → Cmd) :
    (b.updCmd id g).free = b.free := Block.with_cmds_free b _
@[simp] theorem Block.updCmd_regs (b : Block) (id : Nat) (g : Cmd → Cmd) :
    (b.updCmd id g).regs = b.regs := Block.with_cmds_regs b _
@[simp] theorem Block.updCmd_nextId (b : Block) (id : Nat) (g : Cmd → Cmd) :
    (b.updCmd id g).nextId = b.nextId := Block.with_cmds_nextId b _
@[simp] theorem Block.updCmd_jobs (b : Block) (id : Nat) (g : Cmd → Cmd) :
    (b.updCmd id g).jobs = b.jobs := Block.with_cmds_jobs b _
@[simp] theorem Block.updCmd_fetchNext (b : Block) (id : Nat) (g : Cmd → Cmd) :
    (b.updCmd id g).fetchNext = b.fetchNext := Block.with_cmds_fetchNext b _
@[simp] theorem Block.updCmd_lastServed (b : Block) (id : Nat) (g : Cmd → Cmd) :
    (b.updCmd id g).lastServed = b.lastServed := Block.with_cmds_lastServed b _
@[simp] theorem Block.updCmd_sq (b : Block) (id : Nat) (g : Cmd → Cmd) :
    (b.updCmd id g).sq = b.sq := Block.with_cmds_sq b _
@[simp] theorem Block.updCmd_cq (b : Block) (id : Nat) (g : Cmd → Cmd) :
    (b.updCmd id g).cq = b.cq := Block.with_cmds_cq b _
@[simp] theorem Block.updCmd_hitch (b : Block) (id : Nat) (g : Cmd → Cmd) :
    (b.updCmd id g).hitch = b.hitch := Block.with_cmds_hitch b _
@[simp] theorem Block.updCmd_errlog (b : Block) (id : Nat) (g : Cmd → Cmd) :
    (b.updCmd id g).errlog = b.errlog := Block.with_cmds_errlog b _
@[simp] theorem Block.updCmd_trace (b : Block) (id : Nat) (g : Cmd → Cmd) :
    (b.updCmd id g).trace = b.trace := Block.with_cmds_trace b _
@[simp] theorem Block.updCmd_boot (b : Block) (id : Nat) (g : Cmd → Cmd) :
    (b.updCmd id g).boot = b.boot := Block.with_cmds_boot b _
@[simp] theorem Block.updCmd_curb (b : Block) (id : Nat) (g : Cmd → Cmd) :
    (b.updCmd id g).curb = b.curb := Block.with_cmds_curb b _
@[simp] theorem Block.updCmd_host (b : Block) (id : Nat) (g : Cmd → Cmd) :
    (b.updCmd id g).host = b.host := Block.with_cmds_host b _
@[simp] theorem Block.updCmd_mem (b : Block) (id : Nat) (g : Cmd → Cmd) :
    (b.updCmd id g).mem = b.mem := Block.with_cmds_mem b _
@[simp] theorem Block.updCmd_drover (b : Block) (id : Nat) (g : Cmd → Cmd) :
    (b.updCmd id g).drover = b.drover := Block.with_cmds_drover b _
@[simp] theorem Block.updCmd_tiles (b : Block) (id : Nat) (g : Cmd → Cmd) :
    (b.updCmd id g).tiles = b.tiles := Block.with_cmds_tiles b _
@[simp] theorem Block.updCmd_relay (b : Block) (id : Nat) (g : Cmd → Cmd) :
    (b.updCmd id g).relay = b.relay := Block.with_cmds_relay b _
@[simp] theorem Block.updCmd_beater (b : Block) (id : Nat) (g : Cmd → Cmd) :
    (b.updCmd id g).beater = b.beater := Block.with_cmds_beater b _
@[simp] theorem Block.updCmd_farrier (b : Block) (id : Nat) (g : Cmd → Cmd) :
    (b.updCmd id g).farrier = b.farrier := Block.with_cmds_farrier b _
@[simp] theorem Block.updCmd_attends (b : Block) (id : Nat) (g : Cmd → Cmd) :
    (b.updCmd id g).attends = b.attends := Block.with_cmds_attends b _
@[simp] theorem Block.updCmd_net (b : Block) (id : Nat) (g : Cmd → Cmd) :
    (b.updCmd id g).net = b.net := Block.with_cmds_net b _
@[simp] theorem Block.updCmd_out (b : Block) (id : Nat) (g : Cmd → Cmd) :
    (b.updCmd id g).out = b.out := Block.with_cmds_out b _

/-! ### The end of a command -/

@[simp] theorem Block.finish_clk (b : Block) (id st d e : Nat) :
    (b.finish id st d e).clk = b.clk := Block.with_cmds_clk b _
@[simp] theorem Block.finish_free (b : Block) (id st d e : Nat) :
    (b.finish id st d e).free = b.free := Block.with_cmds_free b _
@[simp] theorem Block.finish_regs (b : Block) (id st d e : Nat) :
    (b.finish id st d e).regs = b.regs := Block.with_cmds_regs b _
@[simp] theorem Block.finish_nextId (b : Block) (id st d e : Nat) :
    (b.finish id st d e).nextId = b.nextId := Block.with_cmds_nextId b _
@[simp] theorem Block.finish_jobs (b : Block) (id st d e : Nat) :
    (b.finish id st d e).jobs = b.jobs := Block.with_cmds_jobs b _
@[simp] theorem Block.finish_fetchNext (b : Block) (id st d e : Nat) :
    (b.finish id st d e).fetchNext = b.fetchNext := Block.with_cmds_fetchNext b _
@[simp] theorem Block.finish_lastServed (b : Block) (id st d e : Nat) :
    (b.finish id st d e).lastServed = b.lastServed := Block.with_cmds_lastServed b _
@[simp] theorem Block.finish_sq (b : Block) (id st d e : Nat) :
    (b.finish id st d e).sq = b.sq := Block.with_cmds_sq b _
@[simp] theorem Block.finish_cq (b : Block) (id st d e : Nat) :
    (b.finish id st d e).cq = b.cq := Block.with_cmds_cq b _
@[simp] theorem Block.finish_hitch (b : Block) (id st d e : Nat) :
    (b.finish id st d e).hitch = b.hitch := Block.with_cmds_hitch b _
@[simp] theorem Block.finish_errlog (b : Block) (id st d e : Nat) :
    (b.finish id st d e).errlog = b.errlog := Block.with_cmds_errlog b _
@[simp] theorem Block.finish_trace (b : Block) (id st d e : Nat) :
    (b.finish id st d e).trace = b.trace := Block.with_cmds_trace b _
@[simp] theorem Block.finish_boot (b : Block) (id st d e : Nat) :
    (b.finish id st d e).boot = b.boot := Block.with_cmds_boot b _
@[simp] theorem Block.finish_curb (b : Block) (id st d e : Nat) :
    (b.finish id st d e).curb = b.curb := Block.with_cmds_curb b _
@[simp] theorem Block.finish_host (b : Block) (id st d e : Nat) :
    (b.finish id st d e).host = b.host := Block.with_cmds_host b _
@[simp] theorem Block.finish_mem (b : Block) (id st d e : Nat) :
    (b.finish id st d e).mem = b.mem := Block.with_cmds_mem b _
@[simp] theorem Block.finish_drover (b : Block) (id st d e : Nat) :
    (b.finish id st d e).drover = b.drover := Block.with_cmds_drover b _
@[simp] theorem Block.finish_tiles (b : Block) (id st d e : Nat) :
    (b.finish id st d e).tiles = b.tiles := Block.with_cmds_tiles b _
@[simp] theorem Block.finish_relay (b : Block) (id st d e : Nat) :
    (b.finish id st d e).relay = b.relay := Block.with_cmds_relay b _
@[simp] theorem Block.finish_beater (b : Block) (id st d e : Nat) :
    (b.finish id st d e).beater = b.beater := Block.with_cmds_beater b _
@[simp] theorem Block.finish_farrier (b : Block) (id st d e : Nat) :
    (b.finish id st d e).farrier = b.farrier := Block.with_cmds_farrier b _
@[simp] theorem Block.finish_attends (b : Block) (id st d e : Nat) :
    (b.finish id st d e).attends = b.attends := Block.with_cmds_attends b _
@[simp] theorem Block.finish_net (b : Block) (id st d e : Nat) :
    (b.finish id st d e).net = b.net := Block.with_cmds_net b _
@[simp] theorem Block.finish_out (b : Block) (id st d e : Nat) :
    (b.finish id st d e).out = b.out := Block.with_cmds_out b _

/-! ### A tile -/

@[simp] theorem Block.setTile_clk (b : Block) (n : Nat) (x : Tile) :
    (b.setTile n x).clk = b.clk := Block.with_tiles_clk b _
@[simp] theorem Block.setTile_free (b : Block) (n : Nat) (x : Tile) :
    (b.setTile n x).free = b.free := Block.with_tiles_free b _
@[simp] theorem Block.setTile_regs (b : Block) (n : Nat) (x : Tile) :
    (b.setTile n x).regs = b.regs := Block.with_tiles_regs b _
@[simp] theorem Block.setTile_cmds (b : Block) (n : Nat) (x : Tile) :
    (b.setTile n x).cmds = b.cmds := Block.with_tiles_cmds b _
@[simp] theorem Block.setTile_nextId (b : Block) (n : Nat) (x : Tile) :
    (b.setTile n x).nextId = b.nextId := Block.with_tiles_nextId b _
@[simp] theorem Block.setTile_jobs (b : Block) (n : Nat) (x : Tile) :
    (b.setTile n x).jobs = b.jobs := Block.with_tiles_jobs b _
@[simp] theorem Block.setTile_fetchNext (b : Block) (n : Nat) (x : Tile) :
    (b.setTile n x).fetchNext = b.fetchNext := Block.with_tiles_fetchNext b _
@[simp] theorem Block.setTile_lastServed (b : Block) (n : Nat) (x : Tile) :
    (b.setTile n x).lastServed = b.lastServed := Block.with_tiles_lastServed b _
@[simp] theorem Block.setTile_sq (b : Block) (n : Nat) (x : Tile) :
    (b.setTile n x).sq = b.sq := Block.with_tiles_sq b _
@[simp] theorem Block.setTile_cq (b : Block) (n : Nat) (x : Tile) :
    (b.setTile n x).cq = b.cq := Block.with_tiles_cq b _
@[simp] theorem Block.setTile_hitch (b : Block) (n : Nat) (x : Tile) :
    (b.setTile n x).hitch = b.hitch := Block.with_tiles_hitch b _
@[simp] theorem Block.setTile_errlog (b : Block) (n : Nat) (x : Tile) :
    (b.setTile n x).errlog = b.errlog := Block.with_tiles_errlog b _
@[simp] theorem Block.setTile_trace (b : Block) (n : Nat) (x : Tile) :
    (b.setTile n x).trace = b.trace := Block.with_tiles_trace b _
@[simp] theorem Block.setTile_boot (b : Block) (n : Nat) (x : Tile) :
    (b.setTile n x).boot = b.boot := Block.with_tiles_boot b _
@[simp] theorem Block.setTile_curb (b : Block) (n : Nat) (x : Tile) :
    (b.setTile n x).curb = b.curb := Block.with_tiles_curb b _
@[simp] theorem Block.setTile_host (b : Block) (n : Nat) (x : Tile) :
    (b.setTile n x).host = b.host := Block.with_tiles_host b _
@[simp] theorem Block.setTile_mem (b : Block) (n : Nat) (x : Tile) :
    (b.setTile n x).mem = b.mem := Block.with_tiles_mem b _
@[simp] theorem Block.setTile_drover (b : Block) (n : Nat) (x : Tile) :
    (b.setTile n x).drover = b.drover := Block.with_tiles_drover b _
@[simp] theorem Block.setTile_relay (b : Block) (n : Nat) (x : Tile) :
    (b.setTile n x).relay = b.relay := Block.with_tiles_relay b _
@[simp] theorem Block.setTile_beater (b : Block) (n : Nat) (x : Tile) :
    (b.setTile n x).beater = b.beater := Block.with_tiles_beater b _
@[simp] theorem Block.setTile_farrier (b : Block) (n : Nat) (x : Tile) :
    (b.setTile n x).farrier = b.farrier := Block.with_tiles_farrier b _
@[simp] theorem Block.setTile_attends (b : Block) (n : Nat) (x : Tile) :
    (b.setTile n x).attends = b.attends := Block.with_tiles_attends b _
@[simp] theorem Block.setTile_net (b : Block) (n : Nat) (x : Tile) :
    (b.setTile n x).net = b.net := Block.with_tiles_net b _
@[simp] theorem Block.setTile_out (b : Block) (n : Nat) (x : Tile) :
    (b.setTile n x).out = b.out := Block.with_tiles_out b _

/-! ### A counter -/

@[simp] theorem Block.count_clk (b : Block) (f : Fld) (i n : Nat) : (b.count f i n).clk = b.clk := by
  unfold Block.count; split
  · rfl
  · exact Block.rset_clk b f i _
@[simp] theorem Block.count_free (b : Block) (f : Fld) (i n : Nat) : (b.count f i n).free = b.free := by
  unfold Block.count; split
  · rfl
  · exact Block.rset_free b f i _
@[simp] theorem Block.count_cmds (b : Block) (f : Fld) (i n : Nat) : (b.count f i n).cmds = b.cmds := by
  unfold Block.count; split
  · rfl
  · exact Block.rset_cmds b f i _
@[simp] theorem Block.count_nextId (b : Block) (f : Fld) (i n : Nat) : (b.count f i n).nextId = b.nextId := by
  unfold Block.count; split
  · rfl
  · exact Block.rset_nextId b f i _
@[simp] theorem Block.count_jobs (b : Block) (f : Fld) (i n : Nat) : (b.count f i n).jobs = b.jobs := by
  unfold Block.count; split
  · rfl
  · exact Block.rset_jobs b f i _
@[simp] theorem Block.count_fetchNext (b : Block) (f : Fld) (i n : Nat) : (b.count f i n).fetchNext = b.fetchNext := by
  unfold Block.count; split
  · rfl
  · exact Block.rset_fetchNext b f i _
@[simp] theorem Block.count_lastServed (b : Block) (f : Fld) (i n : Nat) : (b.count f i n).lastServed = b.lastServed := by
  unfold Block.count; split
  · rfl
  · exact Block.rset_lastServed b f i _
@[simp] theorem Block.count_sq (b : Block) (f : Fld) (i n : Nat) : (b.count f i n).sq = b.sq := by
  unfold Block.count; split
  · rfl
  · exact Block.rset_sq b f i _
@[simp] theorem Block.count_cq (b : Block) (f : Fld) (i n : Nat) : (b.count f i n).cq = b.cq := by
  unfold Block.count; split
  · rfl
  · exact Block.rset_cq b f i _
@[simp] theorem Block.count_hitch (b : Block) (f : Fld) (i n : Nat) : (b.count f i n).hitch = b.hitch := by
  unfold Block.count; split
  · rfl
  · exact Block.rset_hitch b f i _
@[simp] theorem Block.count_errlog (b : Block) (f : Fld) (i n : Nat) : (b.count f i n).errlog = b.errlog := by
  unfold Block.count; split
  · rfl
  · exact Block.rset_errlog b f i _
@[simp] theorem Block.count_trace (b : Block) (f : Fld) (i n : Nat) : (b.count f i n).trace = b.trace := by
  unfold Block.count; split
  · rfl
  · exact Block.rset_trace b f i _
@[simp] theorem Block.count_boot (b : Block) (f : Fld) (i n : Nat) : (b.count f i n).boot = b.boot := by
  unfold Block.count; split
  · rfl
  · exact Block.rset_boot b f i _
@[simp] theorem Block.count_curb (b : Block) (f : Fld) (i n : Nat) : (b.count f i n).curb = b.curb := by
  unfold Block.count; split
  · rfl
  · exact Block.rset_curb b f i _
@[simp] theorem Block.count_host (b : Block) (f : Fld) (i n : Nat) : (b.count f i n).host = b.host := by
  unfold Block.count; split
  · rfl
  · exact Block.rset_host b f i _
@[simp] theorem Block.count_mem (b : Block) (f : Fld) (i n : Nat) : (b.count f i n).mem = b.mem := by
  unfold Block.count; split
  · rfl
  · exact Block.rset_mem b f i _
@[simp] theorem Block.count_drover (b : Block) (f : Fld) (i n : Nat) : (b.count f i n).drover = b.drover := by
  unfold Block.count; split
  · rfl
  · exact Block.rset_drover b f i _
@[simp] theorem Block.count_tiles (b : Block) (f : Fld) (i n : Nat) : (b.count f i n).tiles = b.tiles := by
  unfold Block.count; split
  · rfl
  · exact Block.rset_tiles b f i _
@[simp] theorem Block.count_relay (b : Block) (f : Fld) (i n : Nat) : (b.count f i n).relay = b.relay := by
  unfold Block.count; split
  · rfl
  · exact Block.rset_relay b f i _
@[simp] theorem Block.count_beater (b : Block) (f : Fld) (i n : Nat) : (b.count f i n).beater = b.beater := by
  unfold Block.count; split
  · rfl
  · exact Block.rset_beater b f i _
@[simp] theorem Block.count_farrier (b : Block) (f : Fld) (i n : Nat) : (b.count f i n).farrier = b.farrier := by
  unfold Block.count; split
  · rfl
  · exact Block.rset_farrier b f i _
@[simp] theorem Block.count_attends (b : Block) (f : Fld) (i n : Nat) : (b.count f i n).attends = b.attends := by
  unfold Block.count; split
  · rfl
  · exact Block.rset_attends b f i _
@[simp] theorem Block.count_net (b : Block) (f : Fld) (i n : Nat) : (b.count f i n).net = b.net := by
  unfold Block.count; split
  · rfl
  · exact Block.rset_net b f i _
@[simp] theorem Block.count_out (b : Block) (f : Fld) (i n : Nat) : (b.count f i n).out = b.out := by
  unfold Block.count; split
  · rfl
  · exact Block.rset_out b f i _

/-! ### The queue -/

@[simp] theorem State.run_next (s : State) (f : Block → Block) :
    s.run f = .next { s with blk := if s.blk.boot.stopped then s.blk else f s.blk } := rfl

@[simp] theorem State.always_next (s : State) (f : Block → Block) : s.always f = .next { s with blk := f s.blk } := rfl

end Sys2Proof.Machine
end

