-- ==== Sys2Proof/Laws/Engine.lean ====
section
/-! SUPPORT. Laws of the ways in which a command reaches its meaning: the rows of engines and tiles, host accesses, the issue of
an instruction, the entry of a collective. A proof about one command cites these and never unfolds them. -/

namespace Sys2Proof.Machine

/-- A command of a module that acts changes the block by its meaning. -/
theorem State.run_live {s : State} (h : s.live) (f : Block → Block) : s.run f = .next (s.withBlk (f s.blk)) := by
  unfold State.live at h
  simp [State.withBlk, h]

/-- A command of a module that has stopped changes nothing. -/
theorem State.run_stopped {s : State} (h : s.blk.boot.stopped = true) (f : Block → Block) : s.run f = .next s := by
  simp [h]

@[simp] theorem State.withBlk_blk (s : State) (b : Block) : (s.withBlk b).blk = b := rfl
@[simp] theorem State.withBlk_pending (s : State) (b : Block) : (s.withBlk b).pending = s.pending := rfl

theorem Block.startable_of_starts {b : Block} {id : Nat} {p : Params} {c : Cmd} (h : b.Starts id p c) : b.startable id p = some c := by
  unfold Block.startable
  rw [h.found]
  simp [h.params, h.waits, h.free, h.turn]

/-- A row of an engine's command that may start runs its meaning. -/
theorem Block.runCmd_starts {b : Block} {id : Nat} {p : Params} {c : Cmd} (h : b.Starts id p c) {ready : Cmd → Block → Bool}
    (hr : ready c b = true) (go : Cmd → Block → Block) : b.runCmd id p ready go = go c (b.launched id) := by
  unfold Block.runCmd
  rw [Block.startable_of_starts h]
  simp [hr, Block.launched]

/-- A row of a tile's command that may start runs its meaning. -/
theorem Block.tileCmd_starts {b : Block} {id : Nat} {p : Params} {c : Cmd} (h : b.TileStarts id p c) (go : Cmd → Block → Block) :
    b.tileCmd id p go = (go c (b.entered id c)).notePrim c.tile := by
  unfold Block.tileCmd
  rw [Block.runCmd_starts h.starts h.ready]
  simp only [h.inRange, Block.entered]

/-- A host write that reaches its register applies its effect to the block in which it is counted. -/
theorem Block.barWrite_reaches {b : Block} {off : Nat} (h : b.HostWrites off) (f : Block → Block) :
    b.barWrite off f = f b.hostWrote := by
  have h1 := h.up
  have h2 := h.secure
  have h3 := h.served
  have h4 := h.there
  unfold Block.hostWrote at *
  unfold Block.barWrite
  rcases h3 with h3 | h3 <;> simp [h1, h2, h3, h4]

/-- A host read that reaches its register is answered. -/
theorem Block.barRead_reaches {b : Block} {off : Nat} (h : b.HostReads off) (n : Nat) (f : Block → Nat × Block) :
    b.barRead off n f = (f b).2.answer (bytesOf n (f b).1) := by
  have h1 := h.up
  have h2 := h.secure
  have h3 := h.served
  have h4 := h.there
  unfold Block.barRead
  rcases h3 with h3 | h3 <;> simp [h1, h2, h3, h4]

/-- A later pass goes on with its group. -/
theorem Block.collStart_open {b : Block} {c : Cmd} {g e k : Nat} {gs : GroupSt} (h : b.CollOpen c g e k gs)
    (go : GroupSt → Block → Block) : b.collStart c g e k true go = go gs (b.unhold c.id) := by
  unfold Block.collStart
  rw [h.defined, h.group]
  have he : c.opcode ≠ 0x0407 → epochState e gs.epoch = 0 := fun hn => h.epoch.resolve_left hn
  by_cases hc : c.opcode = 0x0407
  · simp [hc, h.open_]
  · simp [he hc, h.open_]

/-- A collective that enters flight goes on with its group. -/
theorem Block.collStart_enters {b : Block} {c : Cmd} {g e k : Nat} {gs : GroupSt} (h : b.CollEnters c g e k gs)
    (go : GroupSt → Block → Block) : b.collStart c g e k false go = go gs (b.unhold c.id) := by
  unfold Block.collStart
  rw [h.defined, h.group]
  simp only [h.open_, h.fresh, h.room]
  have he : c.opcode ≠ 0x0407 → epochState e gs.epoch = 0 := fun hn => h.epoch.resolve_left hn
  by_cases hc : c.opcode = 0x0407
  · rcases h.turn with ht | ht <;> simp [hc, ht]
  · have := he hc
    rcases h.turn with ht | ht <;> simp [this, ht]

/-- A kernel runs on the tile that its command names. -/
theorem Block.kernel_tile {b : Block} {n : Nat} {c : Cmd} {p : VkernParams} (h : b.kernel n = some (c, p)) : c.tile = n := by
  unfold Block.kernel at h
  split at h <;> try contradiction
  split at h <;> try contradiction
  split at h <;> try contradiction
  split at h <;> try contradiction
  next hc => simp only [Option.some.injEq, Prod.mk.injEq] at h; rw [← h.1]; exact hc.2.1

/-- A command found by a number has that number. -/
theorem Block.findCmd_id {b : Block} {id : Nat} {c : Cmd} (h : b.findCmd id = some c) : c.id = id := by
  unfold Block.findCmd at h
  simpa using List.find?_some h

/-- The row of an instruction, with its issue named. -/
theorem Block.vxRow_eq {b : Block} {n : Nat} {c : Cmd} {p : VkernParams} (h : b.kernel n = some (c, p)) (op : BitVec 8) (f : VxFields)
    (stall : Nat) (body : VxBody) :
    b.vxRow n op f stall body =
      (if Sparse.get (always 0) (b.tile n).vx.imem (b.tile n).vx.pc ≠ vxEncode op f then b
       else if !(vxForm op f).legal f then
         (if pastMax p (b.tile n).vx.cyc then b else b.vxEnd c 0x1007 (b.tile n).vx.pc (vxEncode op f).toNat)
       else if pastMax p (b.vxIssue n op f stall).1 then b
       else match body c p (b.vxFetched n op f stall) b with
         | .error e => (b.setVx n { (b.vxIssue n op f stall).2 with cyc := (b.vxIssue n op f stall).1 }).vxStop c e
         | .ok (z, b') => b.vxRetired b' n op f stall z) := by
  unfold Block.vxRow
  rw [h]
  rfl

/-- An instruction that issues: what its meaning leaves is retired. -/
theorem Block.vxRow_runs {b : Block} {n : Nat} {op : BitVec 8} {f : VxFields} {stall : Nat} {c : Cmd} {p : VkernParams}
    (h : b.VxRuns n op f stall c p) {body : VxBody} {z : Vx} {b' : Block} (hb : body c p (b.vxFetched n op f stall) b = .ok (z, b')) :
    b.vxRow n op f stall body = b.vxRetired b' n op f stall z := by
  rw [Block.vxRow_eq h.kernel, if_neg (not_not_intro h.word), if_neg (by simp [h.legal]), if_neg (by simp [h.inTime]), hb]

/-- An instruction that ends its kernel: the engine stands at its issue, and the kernel ends as its meaning says. -/
theorem Block.vxRow_stops {b : Block} {n : Nat} {op : BitVec 8} {f : VxFields} {stall : Nat} {c : Cmd} {p : VkernParams}
    (h : b.VxRuns n op f stall c p) {body : VxBody} {e : VxStop} (hb : body c p (b.vxFetched n op f stall) b = .error e) :
    b.vxRow n op f stall body =
      (b.setVx n { (b.vxIssue n op f stall).2 with cyc := (b.vxIssue n op f stall).1 }).vxStop c e := by
  rw [Block.vxRow_eq h.kernel, if_neg (not_not_intro h.word), if_neg (by simp [h.legal]), if_neg (by simp [h.inTime]), hb]

/-- An instruction that only changes the engine completes. -/
theorem vxDoes_pure {i : Instr} {tile : Fin 64} {op : BitVec 8} {f : VxFields} {stall : Nat} {g : Vx → Vx}
    (h : ∀ s, exec i s = s.vx tile op f stall (vxPure g)) : VxDoes i tile op f stall g := by
  intro s c p hl hr
  rw [h s, State.vx, State.run_live hl, Block.vxRow_runs hr (body := vxPure g) rfl]

end Sys2Proof.Machine
end

