-- ==== Sys2Proof/Laws/Ops.lean ====
section
/-! SUPPORT. Laws of the shared operations: what writing a register leaves, and that counters, vectors, module events, the error log,
the trace unit and the performance counters change nothing but what signals. One lemma for each operation; a frame proof cites
them and never unfolds the operation. -/

namespace Sys2Proof.Machine

/-! ### Register numbers -/

theorem RegId.code_inj {r r' : RegId} (h : r.code = r'.code) : r = r' := by
  have := congrArg RegId.ofNat h
  simpa [RegId.code, RegId.ofNat_ctorIdx] using this

theorem RegId.key_ne_of_ne {r r' : RegId} (h : r ≠ r') {w w' : Nat} (hw : w < 2 ^ 24) (hw' : w' < 2 ^ 24) : r.key w ≠ r'.key w' :=
  RegId.key_ne (fun e => h (RegId.code_inj e)) hw hw'

/-! ### Changes of registers and signals -/

namespace Block.OnlyRegs

variable {rs rs' : List (Fld × Nat)} {b b' b'' : Block}

theorem refl (rs : List (Fld × Nat)) (b : Block) : b.OnlyRegs rs b := ⟨rfl, fun _ _ _ _ _ => rfl⟩

theorem trans (h : b.OnlyRegs rs b') (h' : b'.OnlyRegs rs b'') : b.OnlyRegs rs b'' := by
  refine ⟨?_, fun g j hw h1 h2 => (h'.regs g j hw h1 h2).trans (h.regs g j hw h1 h2)⟩
  have e := h.rest
  have e' := h'.rest
  unfold Block.onlySignals at e e' ⊢
  rw [e']
  rw [e]

theorem mono (h : b.OnlyRegs rs b') (hs : ∀ r ∈ rs, r ∈ rs') : b.OnlyRegs rs' b' :=
  ⟨h.rest, fun g j hw h1 h2 => h.regs g j hw h1 (fun p hp => h2 p (hs p hp))⟩

theorem of_nil (h : b.OnlyRegs [] b') : b.OnlyRegs rs b' := h.mono (by simp)

theorem trans' {c : Block} (h' : b'.OnlyRegs rs c) (h : b.OnlyRegs rs b') : b.OnlyRegs rs c := h.trans h'

/-- A change of a field that signals. -/
theorem of_out (rs : List (Fld × Nat)) (b : Block) (x : OutSt) : b.OnlyRegs rs { b with out := x } := ⟨rfl, fun _ _ _ _ _ => rfl⟩
theorem of_hitch (rs : List (Fld × Nat)) (b : Block) (x : HitchSt) : b.OnlyRegs rs { b with hitch := x } := ⟨rfl, fun _ _ _ _ _ => rfl⟩
theorem of_trace (rs : List (Fld × Nat)) (b : Block) (x : TraceSt) : b.OnlyRegs rs { b with trace := x } := ⟨rfl, fun _ _ _ _ _ => rfl⟩
theorem of_errlog (rs : List (Fld × Nat)) (b : Block) (x : Sparse ErrEntry) : b.OnlyRegs rs { b with errlog := x } :=
  ⟨rfl, fun _ _ _ _ _ => rfl⟩

theorem foldl {α : Type} (l : List α) (f : Block → α → Block) (h : ∀ (a : α) (b : Block), a ∈ l → b.OnlyRegs rs (f b a)) (b : Block) :
    b.OnlyRegs rs (l.foldl f b) := by
  induction l generalizing b with
  | nil => exact refl rs b
  | cons a l ih =>
    exact (h a b (by simp)).trans (ih (fun a' b' ha => h a' b' (by simp [ha])) _)

theorem ite {p : Prop} [Decidable p] {x y : Block} (hx : p → b.OnlyRegs rs x) (hy : ¬p → b.OnlyRegs rs y) :
    b.OnlyRegs rs (if p then x else y) := by
  split
  · exact hx ‹_›
  · exact hy ‹_›

end Block.OnlyRegs

open Block.OnlyRegs

theorem Block.with_regs_signals (b : Block) (x : Sparse (BitVec 64)) : b.onlySignals { b with regs := x } := rfl

theorem Block.setWord_signals (b : Block) (r : RegId) (w v : Nat) : b.onlySignals (b.setWord r w v) := Block.with_regs_signals b _

theorem Block.rset_signals (b : Block) (f : Fld) (i v : Nat) : b.onlySignals (b.rset f i v) := Block.setWord_signals b _ _ _

theorem Block.setWord_only {rs : List (Fld × Nat)} {r : RegId} (hr : r ∈ signalRegs) (b : Block) {w : Nat} (hw : w < 2 ^ 24) (v : Nat) :
    b.OnlyRegs rs (b.setWord r w v) := by
  refine ⟨Block.setWord_signals b r w v, fun g j hw' h1 _ => ?_⟩
  unfold Block.rget
  rw [Block.word_setWord_ne b (RegId.key_ne_of_ne ?_ hw' hw)]
  rintro rfl
  exact h1 hr

theorem Block.sig_only {rs : List (Fld × Nat)} {f : Fld} (hr : f.reg ∈ signalRegs) (b : Block) {i : Nat} (hw : f.word i < 2 ^ 24)
    (v : Nat) : b.OnlyRegs rs (b.rset f i v) := Block.setWord_only hr b hw _

theorem Block.rset_only {rs : List (Fld × Nat)} {f : Fld} {i : Nat} (hf : f.fits = true) (h : (f, i) ∈ rs) (b : Block) (v : Nat) :
    b.OnlyRegs rs (b.rset f i v) := by
  constructor
  · exact Block.rset_signals b f i v
  · intro g j _ _ ha
    have hn : f.apart i g j := ha (f, i) h
    exact Block.rget_rset_ne b hf hn

theorem Block.count_only {rs : List (Fld × Nat)} {f : Fld} (hr : f.reg ∈ signalRegs) (b : Block) {i : Nat}
    (hw : f.word i < 2 ^ 24) (n : Nat) : b.OnlyRegs rs (b.count f i n) :=
  ite (fun _ => refl _ _) (fun _ => Block.sig_only hr b hw _)

theorem Block.countSat_only {rs : List (Fld × Nat)} {f : Fld} (hr : f.reg ∈ signalRegs) (b : Block) {i : Nat}
    (hw : f.word i < 2 ^ 24) (n : Nat) : b.OnlyRegs rs (b.countSat f i n) := Block.sig_only hr b hw _

theorem Block.counter_only {rs : List (Fld × Nat)} {f : Fld} {i : Nat} (hf : f.fits = true) (h : (f, i) ∈ rs) (b : Block) (n : Nat) :
    b.OnlyRegs rs (b.count f i n) := ite (fun _ => refl _ _) (fun _ => Block.rset_only hf h b _)

/-! ### Signals -/

theorem Block.sendVector_only (rs : List (Fld × Nat)) (b : Block) (v : Nat) : b.OnlyRegs rs (b.sendVector v) :=
  (of_out rs b _).trans (Block.count_only (by decide) _ (by decide) _)

theorem Block.fireVector_only (rs : List (Fld × Nat)) (b : Block) (v : Nat) : b.OnlyRegs rs (b.fireVector v) := by
  unfold Block.fireVector
  refine ite (fun _ => refl _ _) (fun hv => ite (fun _ => ite (fun _ => refl _ _) (fun _ => ?_)) (fun _ => Block.sendVector_only rs b v))
  exact (Block.setWord_only (by decide) b (by omega) _).trans (of_hitch rs _ _)

theorem Block.raiseEvent_only (rs : List (Fld × Nat)) (b : Block) (e : Nat) : b.OnlyRegs rs (b.raiseEvent e) := by
  unfold Block.raiseEvent
  exact (Block.sig_only (by decide) b (by decide) _).trans
    (ite (fun _ => Block.fireVector_only rs _ _) (fun _ => refl _ _))

theorem Block.traceDrop_only (rs : List (Fld × Nat)) (b : Block) (r : TraceRec) : b.OnlyRegs rs (b.traceDrop r) :=
  (of_trace rs b _).trans (Block.countSat_only (by decide) _ (by decide) _)

theorem Block.traceSettle_only (rs : List (Fld × Nat)) (b : Block) : b.OnlyRegs rs b.traceSettle := by
  unfold Block.traceSettle
  exact ite (fun _ => refl _ _) (fun _ => (of_trace rs b _).trans (foldl _ _ (fun a b _ => Block.traceDrop_only rs b a) _))

theorem Block.traceHalt_only (rs : List (Fld × Nat)) (b : Block) : b.OnlyRegs rs b.traceHalt := by
  unfold Block.traceHalt
  exact ite (fun _ => ((of_trace rs b _).trans (Block.sig_only (by decide) _ (by decide) _)).trans
    (Block.raiseEvent_only rs _ _)) (fun _ => refl _ _)

theorem Block.traceClosed_only (rs : List (Fld × Nat)) (b : Block) (q : Nat) : b.OnlyRegs rs (b.traceClosed q) := by
  unfold Block.traceClosed
  exact ite (fun _ => Block.traceHalt_only rs b) (fun _ => refl _ _)

theorem Block.traceAdd_only (rs : List (Fld × Nat)) (b : Block) (r : TraceRec) : b.OnlyRegs rs (b.traceAdd r) :=
  ite (fun _ => of_trace rs b _) (fun _ => (of_trace rs b _).trans (Block.traceClosed_only rs _ _))

theorem Block.tracePut_only (rs : List (Fld × Nat)) (b : Block) (r : TraceRec) : b.OnlyRegs rs (b.tracePut r) := by
  unfold Block.tracePut
  split
  · next n t0 t1 _ =>
    exact ((Block.traceAdd_only rs b _).trans (of_trace rs _ _)).trans
      (ite (fun _ => Block.traceAdd_only rs _ _) (fun _ => Block.countSat_only (by decide) _ (by decide) _))
  · exact ite (fun _ => Block.traceAdd_only rs _ _) (fun _ => Block.countSat_only (by decide) _ (by decide) _)

theorem Block.traceFlush_only (rs : List (Fld × Nat)) (b : Block) : b.OnlyRegs rs b.traceFlush := by
  unfold Block.traceFlush
  exact ite (fun _ => refl _ _) (fun _ => (of_trace rs b _).trans (Block.traceClosed_only rs _ _))

theorem Block.traceRec_only (rs : List (Fld × Nat)) (b : Block) (source kind rank ctx x y z : Nat) :
    b.OnlyRegs rs (b.traceRec source kind rank ctx x y z) := by
  unfold Block.traceRec
  refine ite (fun _ => ite (fun _ => (Block.traceSettle_only rs b).trans ?_)
    (fun _ => ite (fun _ => Block.countSat_only (by decide) _ (by decide) _) (fun _ => refl _ _))) (fun _ => refl _ _)
  exact ite (fun _ => of_trace rs _ _) (fun _ => ite (fun _ => Block.tracePut_only rs _ _) (fun _ => Block.traceDrop_only rs _ _))

theorem Block.tracePutHeld_only (rs : List (Fld × Nat)) (b : Block) : b.OnlyRegs rs b.tracePutHeld :=
  (of_trace rs b _).trans (foldl _ Block.tracePut (fun a b _ => Block.tracePut_only rs b a) _)

theorem Block.traceDropsEnd_only (rs : List (Fld × Nat)) (b : Block) : b.OnlyRegs rs b.traceDropsEnd := by
  unfold Block.traceDropsEnd
  split
  · exact (Block.traceAdd_only rs b _).trans (of_trace rs _ _)
  · exact refl rs b

theorem Block.triggerNote_only (rs : List (Fld × Nat)) (b : Block) : b.OnlyRegs rs b.triggerNote :=
  ((Block.sig_only (by decide) b (by decide) _).trans (Block.sig_only (by decide) _ (by decide) _)).trans
    (ite (fun _ => of_trace rs _ _) (fun _ => refl _ _))

theorem Block.trigger_only (rs : List (Fld × Nat)) (b : Block) (cause : Nat) : b.OnlyRegs rs (b.trigger cause) := by
  unfold Block.trigger
  refine ite (fun _ => ?_) (fun _ => refl _ _)
  refine (((Block.traceSettle_only rs b).trans (Block.tracePutHeld_only rs _)).trans (Block.traceDropsEnd_only rs _)).trans ?_
  exact ((Block.triggerNote_only rs _).trans (Block.tracePut_only rs _ _)).trans (Block.raiseEvent_only rs _ _)

theorem Block.mem_listed {b : Block} {r : RegId} {p : Nat × Nat} (h : p ∈ b.listed r) : p.1 < 2 ^ 24 := by
  unfold Block.listed at h
  rw [List.mem_filterMap] at h
  obtain ⟨q, _, hq⟩ := h
  split at hq
  · cases hq
    exact Nat.mod_lt _ (by decide)
  · cases hq

theorem Block.perfCross_only (rs : List (Fld × Nat)) (b : Block) (k count th : Nat) (trig : Bool) :
    b.OnlyRegs rs (b.perfCross k count th trig) :=
  (((Block.sig_only (by decide) b (by decide) _).trans (Block.raiseEvent_only rs _ _)).trans
    (Block.traceRec_only rs _ _ _ _ _ _ _ _)).trans (ite (fun _ => Block.trigger_only rs _ _) (fun _ => refl _ _))

theorem Block.perf_only (rs : List (Fld × Nat)) (b : Block) (source event sub ctx n : Nat) :
    b.OnlyRegs rs (b.perf source event sub ctx n) := by
  unfold Block.perf
  refine ite (fun _ => refl _ _) (fun _ => foldl _ _ (fun kv b hkv => ?_) b)
  have hk : Fld.PERF_CTR_COUNT.word kv.1 < 2 ^ 24 := by
    have h1 : Fld.PERF_CTR_COUNT.word kv.1 = kv.1 := by
      show kv.1 * Fld.PERF_CTR_COUNT.reg.words + 0 = kv.1
      have : Fld.PERF_CTR_COUNT.reg.words = 1 := by decide
      rw [this]; omega
    rw [h1]
    exact Block.mem_listed hkv
  refine ite (fun _ => (Block.count_only (by decide) b hk n).trans ?_) (fun _ => refl _ _)
  exact ite (fun _ => Block.perfCross_only rs _ _ _ _ _) (fun _ => refl _ _)

theorem Block.errStore_only (rs : List (Fld × Nat)) (b : Block) (e : ErrIn) : b.OnlyRegs rs (b.errStore e) :=
  ((of_errlog rs b _).trans (Block.sig_only (by decide) _ (by decide) _)).trans
    (ite (fun _ => (Block.countSat_only (by decide) _ (by decide) _).trans (Block.raiseEvent_only rs _ _))
      (fun _ => refl _ _))

theorem Block.errLog_only (rs : List (Fld × Nat)) (b : Block) (e : ErrIn) : b.OnlyRegs rs (b.errLog e) :=
  (((((Block.errStore_only rs b e).trans (Block.raiseEvent_only rs _ _)).trans
    (Block.count_only (by decide) _ (by decide) _)).trans (Block.count_only (by decide) _ (by decide) _)).trans
    (Block.traceRec_only rs _ _ _ _ _ _ _ _)).trans (ite (fun _ => Block.trigger_only rs _ _) (fun _ => refl _ _))

theorem Block.accessError_only (rs : List (Fld × Nat)) (b : Block) (source : Nat) (cmd : Option (Nat × Nat)) (status addr ctx : Nat) :
    b.OnlyRegs rs (b.accessError source cmd status addr ctx) := Block.errLog_only rs b _

theorem Block.lostEntry_only (rs : List (Fld × Nat)) (b : Block) (e : ErrIn) (g : Bool) : b.OnlyRegs rs (b.lostEntry e g) :=
  (Block.errLog_only rs b _).trans (ite (fun _ => Block.errLog_only rs _ _) (fun _ => refl _ _))

theorem Block.interruption_only (rs : List (Fld × Nat)) (b : Block) (ns : Nat) : b.OnlyRegs rs (b.interruption ns) :=
  ite (fun _ => Block.sig_only (by decide) b (by decide) _) (fun _ => refl _ _)

theorem Block.absorbed_only (rs : List (Fld × Nat)) (b : Block) (e : ErrIn) : b.OnlyRegs rs (b.absorbed e) :=
  (((Block.count_only (by decide) b (by decide) _).trans (Block.interruption_only rs _ _)).trans
    (Block.errLog_only rs _ _)).trans (Block.perf_only rs _ _ _ _ _ _)

theorem Block.coreInterrupt_only (rs : List (Fld × Nat)) (b : Block) (core : Nat) : b.OnlyRegs rs (b.coreInterrupt core) := of_out rs b _

theorem Block.answer_only (rs : List (Fld × Nat)) (b : Block) (bs : List Byte) : b.OnlyRegs rs (b.answer bs) :=
  (of_out rs b _).trans (Block.count_only (by decide) _ (by decide) _)

end Sys2Proof.Machine
end

