-- ==== Sys2Proof/Laws/Access.lean ====
section
/-! SUPPORT. Laws of host accesses and of the mailboxes: what a register access leaves, when it has no effect, and what delivering a
mailbox's interrupt touches. -/

namespace Sys2Proof.Machine
open Block.OnlyRegs

/-! ### Host accesses -/

/-- What a command does to the registers, from what its meaning does. -/
theorem State.run_next_only {s t : State} {f : Block → Block} (e : s.run f = .next t) (rs : List (Fld × Nat)) (h : s.blk.OnlyRegs rs (f s.blk)) :
    s.blk.OnlyRegs rs t.blk := by
  unfold State.run at e
  cases e
  show s.blk.OnlyRegs rs (if _ then _ else _)
  exact ite (fun _ => refl _ _) (fun _ => h)

theorem Block.hostWrote_only (rs : List (Fld × Nat)) (b : Block) : b.OnlyRegs rs b.hostWrote := Block.count_only (by decide) b (by decide) _

/-- A host write changes what its effect changes. -/
theorem Block.barWrite_only {rs : List (Fld × Nat)} {b : Block} {off : Nat} {f : Block → Block} (h : b.hostWrote.OnlyRegs rs (f b.hostWrote)) :
    b.OnlyRegs rs (b.barWrite off f) := by
  unfold Block.barWrite
  refine ite (fun _ => refl _ _) (fun _ => ?_)
  refine (Block.hostWrote_only rs b).trans ?_
  exact ite (fun _ => Block.accessError_only rs _ _ _ _ _ _) (fun _ => ite (fun _ => refl _ _) (fun _ => ite (fun _ => refl _ _) (fun _ => h)))

/-- A host read changes what its effect changes. -/
theorem Block.barRead_only {rs : List (Fld × Nat)} {b : Block} {off n : Nat} {f : Block → Nat × Block} (h : b.OnlyRegs rs (f b).2) :
    b.OnlyRegs rs (b.barRead off n f) := by
  unfold Block.barRead
  refine ite (fun _ => refl _ _) (fun _ => ?_)
  refine ite (fun _ => (Block.accessError_only rs _ _ _ _ _ _).trans (Block.answer_only rs _ _)) (fun _ => ?_)
  exact ite (fun _ => Block.answer_only rs _ _) (fun _ => h.trans (Block.answer_only rs _ _))

/-- With the link down a host write changes nothing. -/
theorem Block.barWrite_linkDown {b : Block} {off : Nat} {f : Block → Block} (h : b.flag .HITCH_STATUS_LINK_UP = false) : b.barWrite off f = b := by
  unfold Block.barWrite
  simp [h]

/-- A host write that is refused, held off or meant for an absent unit has no effect. -/
theorem Block.barWrite_held {b : Block} {off : Nat} {f : Block → Block} (h : b.hostWrote.secureOk off = false ∨
    (b.hostWrote.flag .OSTLER_BOOT_STATUS_READY = false ∧ earlyOffset off = false) ∨ b.hostWrote.unitGone off = true) :
    b.OnlyRegs [] (b.barWrite off f) := by
  unfold Block.barWrite
  refine ite (fun _ => refl _ _) (fun _ => ?_)
  refine (Block.hostWrote_only [] b).trans ?_
  show Block.OnlyRegs [] b.hostWrote (if (!b.hostWrote.secureOk off) = true then _ else if (!b.hostWrote.flag .OSTLER_BOOT_STATUS_READY && !earlyOffset off) = true then _ else if b.hostWrote.unitGone off = true then _ else _)
  refine ite (fun _ => Block.accessError_only [] _ _ _ _ _ _) (fun h1 => ite (fun _ => refl _ _) (fun h2 => ite (fun _ => refl _ _) (fun h3 => ?_)))
  exfalso
  rcases h with h | ⟨h, h'⟩ | h
  · simp [h] at h1
  · simp [h, h'] at h2
  · exact h3 h


/-! ### Fields apart -/

theorem Fld.apart_of_bits {f g : Fld} (i : Nat) (h : f.lo % 64 + f.width ≤ g.lo % 64 ∨ g.lo % 64 + g.width ≤ f.lo % 64) : f.apart i g i := .inr h
theorem Fld.apart_of_reg {f g : Fld} {i j : Nat} (h : f.reg ≠ g.reg) (h1 : f.word i < 2 ^ 24) (h2 : g.word j < 2 ^ 24) : f.apart i g j :=
  .inl (RegId.key_ne_of_ne h h1 h2)

theorem Fld.word_one {f : Fld} (hw : f.reg.words = 1) (h0 : f.lo / 64 = 0) (i : Nat) : f.word i = i := by unfold Fld.word; rw [hw, h0]; omega

theorem Block.flagUp_only {rs : List (Fld × Nat)} (b : Block) (n f : Nat) (h : (Fld.TILE_FLAG_VALUE, flagIdx n f) ∈ rs) : b.OnlyRegs rs (b.flagUp n f) :=
  Block.counter_only (by decide) h b 1

/-- Delivering a mailbox interrupt raises at most its tile flag. -/
theorem Block.mbxDeliver_only {rs : List (Fld × Nat)} (b : Block) (n : Nat)
    (h : (Fld.TILE_FLAG_VALUE, flagIdx (b.rget .MBX_ROUTE_INDEX n) (b.rget .MBX_ROUTE_FLAG n)) ∈ rs) : b.OnlyRegs rs (b.mbxDeliver n) := by
  unfold Block.mbxDeliver
  split
  · exact Block.fireVector_only rs _ _
  · exact ite (fun _ => Block.coreInterrupt_only rs _ _) (fun _ => Block.accessError_only rs _ _ _ _ _ _)
  · exact ite (fun _ => Block.flagUp_only _ _ _ h) (fun _ => Block.accessError_only rs _ _ _ _ _ _)
  · exact refl _ _

theorem Block.mbxChange_only {rs : List (Fld × Nat)} (b : Block) (n : Nat) (f : Block → Block) (hf : b.OnlyRegs rs (f b))
    (h : (Fld.TILE_FLAG_VALUE, flagIdx ((f b).rget .MBX_ROUTE_INDEX n) ((f b).rget .MBX_ROUTE_FLAG n)) ∈ rs) : b.OnlyRegs rs (b.mbxChange n f) := by
  unfold Block.mbxChange
  exact ite (fun _ => hf.trans (Block.mbxDeliver_only _ _ h)) (fun _ => hf)

/-- the route is kept by changes that do not touch MBX_ROUTE -/
theorem Block.route_keep {rs : List (Fld × Nat)} {b b' : Block} (n : Fin 16) (h : b.OnlyRegs rs b') (hr : ∀ p ∈ rs, p.1.reg ≠ .MBX_ROUTE ∧ p.1.word p.2 < 2 ^ 24) :
    b'.rget .MBX_ROUTE_INDEX n = b.rget .MBX_ROUTE_INDEX n ∧ b'.rget .MBX_ROUTE_FLAG n = b.rget .MBX_ROUTE_FLAG n ∧
    b'.rget .MBX_ROUTE_CLASS n = b.rget .MBX_ROUTE_CLASS n := by
  have hw : ∀ f : Fld, f.reg.words = 1 → f.lo / 64 = 0 → f.word n < 2 ^ 24 := fun f h1 h2 => by rw [Fld.word_one h1 h2]; omega
  have w1 : Fld.MBX_ROUTE_INDEX.word n < 2 ^ 24 := hw _ (by decide) (by decide)
  have w2 : Fld.MBX_ROUTE_FLAG.word n < 2 ^ 24 := hw _ (by decide) (by decide)
  have w3 : Fld.MBX_ROUTE_CLASS.word n < 2 ^ 24 := hw _ (by decide) (by decide)
  exact ⟨h.regs _ _ w1 (by decide) (fun p hp => Fld.apart_of_reg (hr p hp).1 (hr p hp).2 w1),
    h.regs _ _ w2 (by decide) (fun p hp => Fld.apart_of_reg (hr p hp).1 (hr p hp).2 w2),
    h.regs _ _ w3 (by decide) (fun p hp => Fld.apart_of_reg (hr p hp).1 (hr p hp).2 w3)⟩

theorem Block.mbxWrite_only {rs : List (Fld × Nat)} {b : Block} {a off : Nat} {f : Block → Block} (h : ∀ b', b.OnlyRegs [] b' → b'.OnlyRegs rs (f b')) :
    b.OnlyRegs rs (b.mbxWrite a off f) := by
  unfold Block.mbxWrite
  exact ite (fun _ => Block.barWrite_only (h _ (Block.hostWrote_only [] b))) (fun _ => ite (fun _ => h b (refl _ _)) (fun _ => refl _ _))

theorem Fld.word_lt_16 (f : Fld) (n : Fin 16) (h1 : f.reg.words = 1) (h2 : f.lo / 64 = 0) : f.word n < 2 ^ 24 := by rw [Fld.word_one h1 h2]; omega

theorem Block.mbxRing_only {rs : List (Fld × Nat)} (b : Block) (n : Fin 16) (v : Nat) (h1 : (Fld.MBX_DB_BITS, n.val) ∈ rs)
    (h : (Fld.TILE_FLAG_VALUE, flagIdx (b.rget .MBX_ROUTE_INDEX n) (b.rget .MBX_ROUTE_FLAG n)) ∈ rs) : b.OnlyRegs rs (b.mbxRing n v) := by
  unfold Block.mbxRing
  have e : b.OnlyRegs [(Fld.MBX_DB_BITS, n.val)] (b.rset .MBX_DB_BITS n (b.rget .MBX_DB_BITS n ||| v)) :=
    Block.rset_only (by decide) (by simp) b _
  have hk := Block.route_keep n e (by intro p hp; simp only [List.mem_singleton] at hp; subst hp; exact ⟨(by decide : RegId.MBX_DB ≠ .MBX_ROUTE), Fld.word_lt_16 .MBX_DB_BITS n (by decide) (by decide)⟩)
  refine Block.mbxChange_only b n _ (Block.rset_only (by decide) h1 b _) ?_
  rw [hk.1, hk.2.1]
  exact h

theorem Block.mbxAck_only {rs : List (Fld × Nat)} (b : Block) (n : Fin 16) (v : Nat) (h1 : (Fld.MBX_DB_BITS, n.val) ∈ rs)
    (h : (Fld.TILE_FLAG_VALUE, flagIdx (b.rget .MBX_ROUTE_INDEX n) (b.rget .MBX_ROUTE_FLAG n)) ∈ rs) : b.OnlyRegs rs (b.mbxAck n v) := by
  unfold Block.mbxAck
  have e : ∀ x, b.OnlyRegs [(Fld.MBX_DB_BITS, n.val)] (b.rset .MBX_DB_BITS n x) := fun x => Block.rset_only (by decide) (by simp) b _
  have hk := fun x => Block.route_keep n (e x) (by intro p hp; simp only [List.mem_singleton] at hp; subst hp; exact ⟨(by decide : RegId.MBX_DB ≠ .MBX_ROUTE), Fld.word_lt_16 .MBX_DB_BITS n (by decide) (by decide)⟩)
  refine Block.mbxChange_only b n _ (Block.rset_only (by decide) h1 b _) ?_
  rw [(hk _).1, (hk _).2.1]
  exact h

theorem Block.mbxMask_only {rs : List (Fld × Nat)} (b : Block) (n : Fin 16) (v : Nat) (h1 : (Fld.MBX_DB_MASK_MASK, n.val) ∈ rs)
    (h : (Fld.TILE_FLAG_VALUE, flagIdx (b.rget .MBX_ROUTE_INDEX n) (b.rget .MBX_ROUTE_FLAG n)) ∈ rs) : b.OnlyRegs rs (b.mbxMask n v) := by
  unfold Block.mbxMask
  have e : ∀ x, b.OnlyRegs [(Fld.MBX_DB_MASK_MASK, n.val)] (b.rset .MBX_DB_MASK_MASK n x) := fun x => Block.rset_only (by decide) (by simp) b _
  have hk := fun x => Block.route_keep n (e x) (by intro p hp; simp only [List.mem_singleton] at hp; subst hp; exact ⟨(by decide : RegId.MBX_DB_MASK ≠ .MBX_ROUTE), Fld.word_lt_16 .MBX_DB_MASK_MASK n (by decide) (by decide)⟩)
  refine Block.mbxChange_only b n _ (Block.rset_only (by decide) h1 b _) ?_
  rw [(hk _).1, (hk _).2.1]
  exact h

theorem Block.mbxPut_only {rs : List (Fld × Nat)} (b : Block) (n : Fin 16) (v : Nat) (h0 : (Fld.MBX_TAKE_MSG, n.val) ∈ rs) (h1 : (Fld.MBX_STATUS_FULL, n.val) ∈ rs)
    (h2 : (Fld.MBX_STATUS_OVERRUN, n.val) ∈ rs) (h3 : (Fld.MBX_DB_BITS, n.val) ∈ rs)
    (h : (Fld.TILE_FLAG_VALUE, flagIdx (b.rget .MBX_ROUTE_INDEX n) (b.rget .MBX_ROUTE_FLAG n)) ∈ rs) : b.OnlyRegs rs (b.mbxPut n v) := by
  unfold Block.mbxPut
  refine ite (fun _ => Block.rset_only (by decide) h2 b _) (fun _ => ?_)
  have e : b.OnlyRegs [(Fld.MBX_TAKE_MSG, n.val), (Fld.MBX_STATUS_FULL, n.val)] ((b.rset .MBX_TAKE_MSG n v).rset .MBX_STATUS_FULL n 1) :=
    (Block.rset_only (by decide) (by simp) b _).trans (Block.rset_only (by decide) (by simp) _ _)
  have hk := Block.route_keep n e (by
    intro p hp
    simp only [List.mem_cons, List.not_mem_nil, or_false] at hp
    rcases hp with rfl | rfl
    · exact ⟨(by decide : RegId.MBX_TAKE ≠ .MBX_ROUTE), Fld.word_lt_16 .MBX_TAKE_MSG n (by decide) (by decide)⟩
    · exact ⟨(by decide : RegId.MBX_STATUS ≠ .MBX_ROUTE), Fld.word_lt_16 .MBX_STATUS_FULL n (by decide) (by decide)⟩)
  refine ((Block.rset_only (by decide) h0 b _).trans (Block.rset_only (by decide) h1 _ _)).trans (Block.mbxRing_only _ n _ h3 ?_)
  rw [hk.1, hk.2.1]
  exact h

theorem Block.route_keep_nil {b b' : Block} (n : Fin 16) (h : b.OnlyRegs [] b') : b'.rget .MBX_ROUTE_INDEX n = b.rget .MBX_ROUTE_INDEX n ∧ b'.rget .MBX_ROUTE_FLAG n = b.rget .MBX_ROUTE_FLAG n ∧
    b'.rget .MBX_ROUTE_CLASS n = b.rget .MBX_ROUTE_CLASS n := Block.route_keep n h (by simp)


/-- A field of a register that is not written and does not signal keeps its value. -/
theorem Block.OnlyRegs.keep {rs : List (Fld × Nat)} {b b' : Block} {g : Fld} {j : Nat} (h : b.OnlyRegs rs b') (hg : g.word j < 2 ^ 24) (hs : g.reg ∉ signalRegs)
    (hr : ∀ p ∈ rs, p.1.reg ≠ g.reg ∧ p.1.word p.2 < 2 ^ 24) : b'.rget g j = b.rget g j :=
  h.regs g j hg hs (fun p hp => Fld.apart_of_reg (hr p hp).1 (hr p hp).2 hg)

theorem flagWord_lt (b : Block) (n m : Nat) : Fld.TILE_FLAG_VALUE.word (flagIdx (b.rget .MBX_ROUTE_INDEX n) m) < 2 ^ 24 := by
  rw [Fld.word_one (by decide) (by decide)]
  have : b.rget .MBX_ROUTE_INDEX n < 2 ^ 10 := bits_lt _ _ _
  unfold flagIdx
  omega

theorem Block.mbxDeliver_keep (b : Block) (n : Fin 16) {g : Fld} (h1 : g.reg.words = 1) (h2 : g.lo / 64 = 0) (hs : g.reg ∉ signalRegs) (hf : g.reg ≠ .TILE_FLAG) :
    (b.mbxDeliver n).rget g n = b.rget g n := by
  refine Block.OnlyRegs.keep (Block.mbxDeliver_only (rs := [(Fld.TILE_FLAG_VALUE, flagIdx (b.rget .MBX_ROUTE_INDEX n) (b.rget .MBX_ROUTE_FLAG n))]) b n (by simp)) (Fld.word_lt_16 _ _ h1 h2) hs ?_
  intro p hp
  simp only [List.mem_singleton] at hp
  subst hp
  exact ⟨fun e => hf e.symm, flagWord_lt _ _ _⟩

theorem Block.mbxChange_keep (b : Block) (n : Fin 16) (f : Block → Block) {g : Fld} (h1 : g.reg.words = 1) (h2 : g.lo / 64 = 0) (hs : g.reg ∉ signalRegs) (hf : g.reg ≠ .TILE_FLAG) :
    (b.mbxChange n f).rget g n = (f b).rget g n := by
  unfold Block.mbxChange
  dsimp only
  split
  · exact Block.mbxDeliver_keep _ n h1 h2 hs hf
  · rfl

theorem Block.mbxRing_bits (b : Block) (n : Fin 16) (v : Nat) (hv : v < 2 ^ 32) : (b.mbxRing n v).rget .MBX_DB_BITS n = b.rget .MBX_DB_BITS n ||| v := by
  unfold Block.mbxRing
  rw [Block.mbxChange_keep b n _ (by decide) (by decide) (by decide) (by decide), Block.rget_rset_self _ (by decide)]
  refine Nat.mod_eq_of_lt (Nat.or_lt_two_pow (bits_lt _ _ _) hv)

theorem Block.mbxRing_keep (b : Block) (n : Fin 16) (v : Nat) {g : Fld} (h1 : g.reg.words = 1) (h2 : g.lo / 64 = 0) (hs : g.reg ∉ signalRegs) (hf : g.reg ≠ .TILE_FLAG)
    (hd : g.reg ≠ .MBX_DB) : (b.mbxRing n v).rget g n = b.rget g n := by
  unfold Block.mbxRing
  rw [Block.mbxChange_keep b n _ h1 h2 hs hf]
  exact Block.rget_rset_ne b (by decide) (Fld.apart_of_reg (fun e => hd e.symm) (Fld.word_lt_16 _ _ (by decide) (by decide)) (Fld.word_lt_16 _ _ h1 h2))

theorem Block.hostWrote_keep (b : Block) (n : Fin 16) {g : Fld} (h1 : g.reg.words = 1) (h2 : g.lo / 64 = 0) (hs : g.reg ∉ signalRegs) : b.hostWrote.rget g n = b.rget g n :=
  Block.OnlyRegs.keep (Block.hostWrote_only [] b) (Fld.word_lt_16 _ _ h1 h2) hs (by simp)

theorem hostAgent_of_core {a : Nat} (h : coreAgent a = true) : hostAgent a = false := by
  simp only [coreAgent, hostAgent, decide_eq_true_eq, decide_eq_false_iff_not] at *
  omega

/-- A mailbox write that reaches its register applies its effect. -/
theorem Block.mbxWrite_reaches {b : Block} {a off : Nat} (h : b.Reaches a off) (f : Block → Block) :
    ∃ b', (b' = b ∨ b' = b.hostWrote) ∧ b.mbxWrite a off f = f b' := by
  unfold Block.mbxWrite
  rcases h with ⟨h, hw⟩ | h
  · exact ⟨_, .inr rfl, by rw [if_pos h, Block.barWrite_reaches hw]⟩
  · exact ⟨_, .inl rfl, by rw [if_neg (by simp [hostAgent_of_core h]), if_pos h]⟩

theorem Block.reaches_keep {b b' : Block} (h : b' = b ∨ b' = b.hostWrote) (n : Fin 16) {g : Fld} (h1 : g.reg.words = 1) (h2 : g.lo / 64 = 0) (hs : g.reg ∉ signalRegs) :
    b'.rget g n = b.rget g n := by
  rcases h with rfl | rfl
  · rfl
  · exact Block.hostWrote_keep b n h1 h2 hs


theorem Fld.word_lt_64 (f : Fld) (n : Fin 64) (h1 : f.reg.words = 1) (h2 : f.lo / 64 = 0) : f.word n < 2 ^ 24 := by rw [Fld.word_one h1 h2]; omega

theorem Fld.word_lt_256 (f : Fld) (n : Fin 256) (h1 : f.reg.words = 1) (h2 : f.lo / 64 = 0) : f.word n < 2 ^ 24 := by rw [Fld.word_one h1 h2]; omega

/-! ### Bits of a mask -/

/-- The positions of a mask's set bits. -/
theorem setPositions_mem (n x k : Nat) : k ∈ setPositions n x ↔ k < n ∧ x.testBit k = true := by
  induction n with
  | zero => simp [setPositions]
  | succ n ih =>
    unfold setPositions
    rw [List.mem_append, ih]
    by_cases h : x.testBit n
    · rw [if_pos h]
      simp only [List.mem_singleton]
      constructor
      · rintro (⟨h1, h2⟩ | rfl)
        · exact ⟨by omega, h2⟩
        · exact ⟨by omega, h⟩
      · rintro ⟨h1, h2⟩
        by_cases hk : k = n
        · exact .inr hk
        · exact .inl ⟨by omega, h2⟩
    · rw [if_neg h]
      simp only [List.not_mem_nil, or_false]
      constructor
      · rintro ⟨h1, h2⟩
        exact ⟨by omega, h2⟩
      · rintro ⟨h1, h2⟩
        refine ⟨?_, h2⟩
        rcases Nat.lt_succ_iff_lt_or_eq.mp h1 with h3 | rfl
        · exact h3
        · exact absurd h2 h

end Sys2Proof.Machine
end

