-- ==== Sys2Proof/Laws/Act.lean ====
section
/-! SUPPORT. Laws of the accesses' computations: how their steps run, one after another. -/

namespace Sys2Proof.Machine

theorem Act.bind_run {α β : Type} (m : Act α) (f : α → Act β) (b : Block) :
    (m >>= f) b = match m b with
      | (.ok a, b') => f a b'
      | (.error e, b') => (.error e, b') := by
  show (match m b with | (a, s) => (ExceptT.bindCont f a) s) = _
  obtain ⟨x, c⟩ : Except AccErr α × Block := m b
  cases x with
  | ok a => rfl
  | error e => rfl

/-- A step that succeeds hands its value on. -/
theorem Act.bind_ok {α β : Type} {m : Act α} {f : α → Act β} {b b' : Block} {a : α} (h : m b = (.ok a, b')) : (m >>= f) b = f a b' := by
  rw [Act.bind_run, h]

/-- A step that fails ends the computation. -/
theorem Act.bind_error {α β : Type} {m : Act α} {f : α → Act β} {b b' : Block} {e : AccErr} (h : m b = (.error e, b')) :
    (m >>= f) b = (.error e, b') := by
  rw [Act.bind_run, h]

theorem Act.pure_run {α : Type} (a : α) (b : Block) : (pure a : Act α) b = (.ok a, b) := rfl
theorem Act.get_run (b : Block) : (get : Act Block) b = (.ok b, b) := rfl
theorem Act.act_run (f : Block → Block) (b : Block) : act f b = (.ok (), f b) := rfl
theorem Act.throw_run {α : Type} (e : AccErr) (b : Block) : (throw e : Act α) b = (.error e, b) := rfl

end Sys2Proof.Machine
end

