-- ==== Sys2Proof/Laws/ErrLog.lean ====
section
/-! SUPPORT. Laws of the error log: what signalling leaves of it, and what a detection adds to it. -/

namespace Sys2Proof.Machine

/-- `b'` holds the error log of `b`. -/
structure SameLog (b b' : Block) : Prop where
  log : b'.errlog = b.errlog
  written : b'.rget .OSTLER_ERRLOG_STATUS_WRITTEN = b.rget .OSTLER_ERRLOG_STATUS_WRITTEN

namespace SameLog
theorem refl (b : Block) : SameLog b b := ⟨rfl, rfl⟩
theorem trans {a b c : Block} (h : SameLog a b) (h' : SameLog b c) : SameLog a c := ⟨h'.log.trans h.log, h'.written.trans h.written⟩
theorem of_out (b : Block) (x : OutSt) : SameLog b { b with out := x } := ⟨rfl, rfl⟩
theorem of_hitch (b : Block) (x : HitchSt) : SameLog b { b with hitch := x } := ⟨rfl, rfl⟩
theorem of_trace (b : Block) (x : TraceSt) : SameLog b { b with trace := x } := ⟨rfl, rfl⟩
theorem ite {p : Prop} [Decidable p] {b x y : Block} (hx : p → SameLog b x) (hy : ¬p → SameLog b y) : SameLog b (if p then x else y) := by
  split
  · exact hx ‹_›
  · exact hy ‹_›
theorem foldl {α : Type} (l : List α) (f : Block → α → Block) (h : ∀ a b, SameLog b (f b a)) (b : Block) : SameLog b (l.foldl f b) := by
  induction l generalizing b with
  | nil => exact refl b
  | cons a l ih => exact (h a b).trans (ih _)
theorem setWord (b : Block) {r : RegId} {w : Nat} (hr : r ≠ .OSTLER_ERRLOG_STATUS) (hw : w < 2 ^ 24) (v : Nat) : SameLog b (b.setWord r w v) := by
  constructor
  · exact Block.with_regs_errlog b _
  · unfold Block.rget
    have hk : Fld.OSTLER_ERRLOG_STATUS_WRITTEN.reg.key (Fld.OSTLER_ERRLOG_STATUS_WRITTEN.word 0) ≠ r.key w :=
      RegId.key_ne_of_ne (fun e => hr e.symm) (by decide) hw
    rw [Block.word_setWord_ne b hk]
theorem rset (b : Block) {f : Fld} {i : Nat} (hr : f.reg ≠ .OSTLER_ERRLOG_STATUS) (hw : f.word i < 2 ^ 24) (v : Nat) : SameLog b (b.rset f i v) := setWord b hr hw _
theorem count (b : Block) {f : Fld} {i : Nat} (hr : f.reg ≠ .OSTLER_ERRLOG_STATUS) (hw : f.word i < 2 ^ 24) (n : Nat) : SameLog b (b.count f i n) :=
  ite (fun _ => refl _) (fun _ => rset b hr hw _)
theorem countSat (b : Block) {f : Fld} {i : Nat} (hr : f.reg ≠ .OSTLER_ERRLOG_STATUS) (hw : f.word i < 2 ^ 24) (n : Nat) : SameLog b (b.countSat f i n) :=
  rset b hr hw _
theorem sendVector (b : Block) (v : Nat) : SameLog b (b.sendVector v) := (of_out b _).trans (count _ (by decide) (by decide) _)
theorem fireVector (b : Block) (v : Nat) : SameLog b (b.fireVector v) := by
  unfold Block.fireVector
  exact ite (fun _ => refl _) (fun hv => ite (fun _ => ite (fun _ => refl _) (fun _ => (setWord b (by decide) (by omega) _).trans (of_hitch _ _)))
    (fun _ => sendVector b v))
theorem raiseEvent (b : Block) (e : Nat) : SameLog b (b.raiseEvent e) := by
  unfold Block.raiseEvent
  exact (rset b (by decide) (by decide) _).trans (ite (fun _ => fireVector _ _) (fun _ => refl _))
theorem traceDrop (b : Block) (r : TraceRec) : SameLog b (b.traceDrop r) := (of_trace b _).trans (countSat _ (by decide) (by decide) _)
theorem traceSettle (b : Block) : SameLog b b.traceSettle := by
  unfold Block.traceSettle
  exact ite (fun _ => refl _) (fun _ => (of_trace b _).trans (foldl _ _ (fun a b => traceDrop b a) _))
theorem traceHalt (b : Block) : SameLog b b.traceHalt := by
  unfold Block.traceHalt
  exact ite (fun _ => ((of_trace b _).trans (rset _ (by decide) (by decide) _)).trans (raiseEvent _ _)) (fun _ => refl _)
theorem traceClosed (b : Block) (q : Nat) : SameLog b (b.traceClosed q) := by
  unfold Block.traceClosed
  exact ite (fun _ => traceHalt b) (fun _ => refl _)
theorem traceAdd (b : Block) (r : TraceRec) : SameLog b (b.traceAdd r) := ite (fun _ => of_trace b _) (fun _ => (of_trace b _).trans (traceClosed _ _))
theorem tracePut (b : Block) (r : TraceRec) : SameLog b (b.tracePut r) := by
  unfold Block.tracePut
  split
  · exact ((traceAdd b _).trans (of_trace _ _)).trans (ite (fun _ => traceAdd _ _) (fun _ => countSat _ (by decide) (by decide) _))
  · exact ite (fun _ => traceAdd _ _) (fun _ => countSat _ (by decide) (by decide) _)
theorem traceRec (b : Block) (source kind rank ctx x y z : Nat) : SameLog b (b.traceRec source kind rank ctx x y z) := by
  unfold Block.traceRec
  refine ite (fun _ => ite (fun _ => (traceSettle b).trans ?_) (fun _ => ite (fun _ => countSat _ (by decide) (by decide) _) (fun _ => refl _))) (fun _ => refl _)
  exact ite (fun _ => of_trace _ _) (fun _ => ite (fun _ => tracePut _ _) (fun _ => traceDrop _ _))
theorem tracePutHeld (b : Block) : SameLog b b.tracePutHeld := (of_trace b _).trans (foldl _ Block.tracePut (fun a b => tracePut b a) _)
theorem traceDropsEnd (b : Block) : SameLog b b.traceDropsEnd := by
  unfold Block.traceDropsEnd
  split
  · exact (traceAdd b _).trans (of_trace _ _)
  · exact refl b
theorem triggerNote (b : Block) : SameLog b b.triggerNote :=
  ((rset b (by decide) (by decide) _).trans (rset _ (by decide) (by decide) _)).trans (ite (fun _ => of_trace _ _) (fun _ => refl _))
theorem trigger (b : Block) (cause : Nat) : SameLog b (b.trigger cause) := by
  unfold Block.trigger
  refine ite (fun _ => ?_) (fun _ => refl _)
  exact ((((traceSettle b).trans (tracePutHeld _)).trans (traceDropsEnd _)).trans ((triggerNote _).trans (tracePut _ _))).trans (raiseEvent _ _)
end SameLog

/-- The error log stores an entry at WRITTEN modulo 4,096 and counts it (R518). -/
theorem Block.errStore_log (b : Block) (e : ErrIn) :
    (b.errStore e).errlog = Sparse.set (always ErrEntry.blank) b.errlog (b.rget .OSTLER_ERRLOG_STATUS_WRITTEN % 4096) (b.errEntry (b.rget .OSTLER_ERRLOG_STATUS_WRITTEN) e) ∧
    (b.errStore e).rget .OSTLER_ERRLOG_STATUS_WRITTEN = (b.rget .OSTLER_ERRLOG_STATUS_WRITTEN + 1) % 2 ^ 32 := by
  unfold Block.errStore
  dsimp only
  generalize hb' : ({ b with errlog := Sparse.set (always ErrEntry.blank) b.errlog (b.rget .OSTLER_ERRLOG_STATUS_WRITTEN % 4096) (b.errEntry (b.rget .OSTLER_ERRLOG_STATUS_WRITTEN) e) } : Block) = b'
  have h1 : (b'.rset .OSTLER_ERRLOG_STATUS_WRITTEN 0 (b.rget .OSTLER_ERRLOG_STATUS_WRITTEN + 1)).errlog = b'.errlog := Block.with_regs_errlog b' _
  have h2 := Block.rget_rset_self b' (f := .OSTLER_ERRLOG_STATUS_WRITTEN) (by decide) 0 (b.rget .OSTLER_ERRLOG_STATUS_WRITTEN + 1)
  have h3 : b'.errlog = Sparse.set (always ErrEntry.blank) b.errlog (b.rget .OSTLER_ERRLOG_STATUS_WRITTEN % 4096) (b.errEntry (b.rget .OSTLER_ERRLOG_STATUS_WRITTEN) e) := by rw [← hb']
  split
  · have h4 := SameLog.raiseEvent ((b'.rset .OSTLER_ERRLOG_STATUS_WRITTEN 0 (b.rget .OSTLER_ERRLOG_STATUS_WRITTEN + 1)).countSat .OSTLER_ERRLOG_STATUS_OVERFLOW 0 1) 2
    constructor
    · rw [h4.log]
      exact (Block.with_regs_errlog (b'.rset .OSTLER_ERRLOG_STATUS_WRITTEN 0 (b.rget .OSTLER_ERRLOG_STATUS_WRITTEN + 1)) _).trans (h1.trans h3)
    · rw [h4.written]
      unfold Block.countSat
      rw [Block.rget_rset_ne _ (by decide) (Fld.apart_of_bits _ (by decide)), h2]
      rfl
  · exact ⟨h1.trans h3, h2⟩

/-- So does a whole detection. -/
theorem Block.errLog_log (b : Block) (e : ErrIn) :
    (b.errLog e).errlog = Sparse.set (always ErrEntry.blank) b.errlog (b.rget .OSTLER_ERRLOG_STATUS_WRITTEN % 4096) (b.errEntry (b.rget .OSTLER_ERRLOG_STATUS_WRITTEN) e) ∧
    (b.errLog e).rget .OSTLER_ERRLOG_STATUS_WRITTEN = (b.rget .OSTLER_ERRLOG_STATUS_WRITTEN + 1) % 2 ^ 32 := by
  have h : SameLog (b.errStore e) (b.errLog e) :=
    ((((SameLog.raiseEvent _ _).trans (SameLog.count _ (by decide) (by decide) _)).trans (SameLog.count _ (by decide) (by decide) _)).trans
      (SameLog.traceRec _ _ _ _ _ _ _ _)).trans (SameLog.ite (fun _ => SameLog.trigger _ _) (fun _ => SameLog.refl _))
  rw [h.log, h.written]
  exact Block.errStore_log b e

end Sys2Proof.Machine
end

