-- ==== Sys2Proof/Laws/Order.lean ====
section
/-! SUPPORT. Laws of the order of one tick's events: it permutes them, sorts them, and keeps the order of equals. -/

namespace Sys2Proof.Machine

section
variable {α : Type} (le : α → α → Bool)
theorem insertBy_perm (x : α) (l : List α) : (insertBy le x l).Perm (x :: l) := by
  induction l with
  | nil => exact .refl _
  | cons y ys ih =>
    unfold insertBy
    split
    · exact .refl _
    · exact (List.Perm.cons y ih).trans (List.Perm.swap x y ys)

theorem orderBy_perm (l : List α) : (orderBy le l).Perm l := by
  induction l with
  | nil => exact .refl _
  | cons x l ih => exact (insertBy_perm le x _).trans (List.Perm.cons x ih)

theorem insertBy_sorted {R : α → α → Prop} (h1 : ∀ x y, le x y = true → R x y) (h2 : ∀ x y, le x y = false → R y x)
    (ht : ∀ x y z, R x y → R y z → R x z) (x : α) (l : List α) (h : l.Pairwise R) : (insertBy le x l).Pairwise R := by
  induction l with
  | nil => simp [insertBy]
  | cons y ys ih =>
    unfold insertBy
    have hy := List.pairwise_cons.mp h
    split
    · next hxy =>
      refine List.pairwise_cons.mpr ⟨fun z hz => ?_, h⟩
      rcases List.mem_cons.mp hz with rfl | hz
      · exact h1 _ _ hxy
      · exact ht _ _ _ (h1 _ _ hxy) (hy.1 z hz)
    · next hxy =>
      refine List.pairwise_cons.mpr ⟨fun z hz => ?_, ih hy.2⟩
      rcases List.mem_cons.mp ((insertBy_perm le x ys).mem_iff.mp hz) with rfl | hz
      · exact h2 _ _ (by simpa using hxy)
      · exact hy.1 z hz

theorem orderBy_sorted {R : α → α → Prop} (h1 : ∀ x y, le x y = true → R x y) (h2 : ∀ x y, le x y = false → R y x)
    (ht : ∀ x y z, R x y → R y z → R x z) (l : List α) : (orderBy le l).Pairwise R := by
  induction l with
  | nil => exact List.Pairwise.nil
  | cons x l ih => exact insertBy_sorted le h1 h2 ht x _ ih

theorem insertBy_filter (q : α → Bool) (hq : ∀ x y, q x = true → q y = true → le x y = true) (x : α) (l : List α) :
    (insertBy le x l).filter q = (x :: l).filter q := by
  induction l with
  | nil => rfl
  | cons y ys ih =>
    unfold insertBy
    split
    · rfl
    · next hxy =>
      rw [List.filter_cons, ih]
      by_cases hx : q x
      · have hy : q y = false := by
          by_contra hc
          exact hxy (hq x y hx (by simpa using hc))
        simp [hx, hy]
      · simp [hx, List.filter_cons]

theorem orderBy_filter (q : α → Bool) (hq : ∀ x y, q x = true → q y = true → le x y = true) (l : List α) :
    (orderBy le l).filter q = l.filter q := by
  induction l with
  | nil => rfl
  | cons x l ih =>
    show (insertBy le x (orderBy le l)).filter q = _
    rw [insertBy_filter le q hq, List.filter_cons, List.filter_cons, ih]
end

end Sys2Proof.Machine
end

