-- ==== Sys2Proof/Laws/Reset.lean ====
section
/-! SUPPORT. Laws of the state after reset: a register field reads what the register table gives for it. -/

namespace Sys2Proof.Machine

/-- The power-up value of one 64-bit part of a register. -/
def puRow (r : RegInfo) (part : Nat) : BitVec 64 :=
  BitVec.ofNat 64 (r.fields.foldl (fun a f => if f.lo / 64 = part then a + f.reset * 2 ^ (f.lo % 64) else a) 0)

theorem powerUp_eq (k : Nat) {i : RegInfo} (hi : regTable[k / 2 ^ 24]? = some i) :
    powerUp k = puRow i (k % 2 ^ 24 % ceilDiv i.width 64) := by
  unfold powerUp puRow
  simp only [hi]

theorem RegId.key_div (r : RegId) {w : Nat} (hw : w < 2 ^ 24) : r.key w / 2 ^ 24 = r.code := by unfold RegId.key; omega

theorem RegId.key_mod (r : RegId) {w : Nat} (hw : w < 2 ^ 24) : r.key w % 2 ^ 24 = w := by unfold RegId.key; omega

theorem powerUp_key (r : RegId) {w : Nat} (hw : w < 2 ^ 24) {i : RegInfo} (hi : regTable[r.code]? = some i) :
    powerUp (r.key w) = puRow i (w % ceilDiv i.width 64) := by
  have h := powerUp_eq (r.key w) (i := i) (by rw [RegId.key_div r hw]; exact hi)
  rw [RegId.key_mod r hw] at h
  exact h

theorem Sparse.get_powerUp_nil (k : Nat) : Sparse.get powerUp ([] : Sparse (BitVec 64)) k = powerUp k := by simp only [Sparse.get]

theorem reset_regs : State.reset.blk.regs = [] := by simp only [State.reset, Block.reset]

theorem reset_rget (f : Fld) (i : Nat) : State.reset.blk.rget f i = bits (powerUp (f.reg.key (f.word i))).toNat (f.lo % 64) f.width := by
  simp only [Block.rget, Block.word, reset_regs, Sparse.get_powerUp_nil]

theorem reset_one {f : Fld} {i v : Nat} {r : RegInfo} (hw : f.reg.words = 1) (h0 : f.lo / 64 = 0) (hi : i < 2 ^ 24)
    (hr : regTable[f.reg.code]? = some r) (h1 : ceilDiv r.width 64 = 1) (hv : bits (puRow r 0).toNat (f.lo % 64) f.width = v) :
    State.reset.blk.rget f i = v := by
  have hwd : f.word i = i := by unfold Fld.word; rw [hw, h0]; omega
  rw [reset_rget, hwd, powerUp_key _ hi hr, h1, Nat.mod_one, hv]

theorem reset_tile (n : Nat) : State.reset.blk.tile n = Tile.init := rfl

/-- Whether a field of a one-word register has the reset value `v`. -/
def okOne (f : Fld) (v : Nat) : Bool :=
  match regTable[f.reg.code]? with
  | some r => decide (f.reg.words = 1 ∧ f.lo / 64 = 0 ∧ ceilDiv r.width 64 = 1 ∧ bits (puRow r 0).toNat (f.lo % 64) f.width = v)
  | none => false

theorem reset_ok {f : Fld} {i v : Nat} (hi : i < 2 ^ 24) (h : okOne f v = true) : State.reset.blk.rget f i = v := by
  unfold okOne at h
  split at h
  · next r hr =>
    have h' := of_decide_eq_true h
    exact reset_one h'.1 h'.2.1 hi hr h'.2.2.1 h'.2.2.2
  · cases h

end Sys2Proof.Machine
end

