-- ==== Sys2Proof/Laws/Vx.lean ====
section
/-! SUPPORT. Laws of the tiles and their vector engines: reads after writes of scalar registers, vector words and elements, what the
engine's own updates leave of the block, and how a kernel's end shows. -/

namespace Sys2Proof.Machine

/-! ### Vector registers -/

/-- A word of a vector register reads what was written to it, and the others read as before. -/
theorem Vx.word_setWord (x : Vx) {r w q k v : Nat} (hw : w < 512) (hk : k < 512) :
    (x.setWord r w v).word q k = if q = r ∧ k = w then v % 2 ^ 32 else x.word q k := by
  unfold Vx.setWord Vx.word
  by_cases h : q = r ∧ k = w
  · obtain ⟨rfl, rfl⟩ := h
    simp
  · rw [if_neg h, Sparse.get_set_ne _ _ _ (by omega)]

theorem Vx.word_lt (x : Vx) (r w : Nat) : x.word r w < 2 ^ 32 := BitVec.isLt _

/-- The element widths (R104). -/
theorem fmtBits_cases {fmt : Nat} (h : fmt ≤ 8) : fmtBits fmt = 4 ∨ fmtBits fmt = 8 ∨ fmtBits fmt = 16 ∨ fmtBits fmt = 32 ∨ fmtBits fmt = 64 := by
  interval_cases fmt <;> simp [fmtBits]
theorem fmtBits_64 {fmt : Nat} (h : fmt ≤ 8) (h6 : fmtBits fmt = 64) : fmt = 8 := by
  interval_cases fmt <;> simp_all [fmtBits]

theorem Vx.word_setElem_low (x : Vx) {r fmt i v q k : Nat} (hf : fmtBits fmt ≠ 64) (hi : i * fmtBits fmt / 32 < 512) (hk : k < 512) (h : ¬ (q = r ∧ k = i * fmtBits fmt / 32)) :
    (x.setElem r fmt i v).word q k = x.word q k := by
  unfold Vx.setElem
  dsimp only
  rw [if_neg hf, Vx.word_setWord _ hi hk, if_neg h]

/-- An element reads what was written to it, and the others of its register read as before. -/
theorem Vx.elem_setElem (x : Vx) {r fmt i j v : Nat} (hf : fmt ≤ 8) (hi : fmtBits fmt = 64 → i < 512) (hj : fmtBits fmt = 64 → j < 512)
    (hi' : fmtBits fmt ≠ 64 → i * fmtBits fmt / 32 < 512) (hj' : fmtBits fmt ≠ 64 → j * fmtBits fmt / 32 < 512) :
    (x.setElem r fmt i v).elem r fmt j = if j = i then v % 2 ^ fmtBits fmt else x.elem r fmt j := by
  by_cases h64 : fmtBits fmt = 64
  · have a := hi h64
    have b := hj h64
    unfold Vx.elem Vx.setElem
    dsimp only
    rw [if_pos h64, if_pos h64, if_pos h64, Vx.word_setWord _ a b, Vx.word_setWord _ a b, Vx.word_setWord _ a b, Vx.word_setWord _ a b, h64]
    by_cases h : j = i
    · subst h
      simp
      omega
    · simp [h]
  · have a := hi' h64
    have b := hj' h64
    unfold Vx.elem Vx.setElem
    dsimp only
    rw [if_neg h64, if_neg h64, if_neg h64, Vx.word_setWord _ a b]
    by_cases hw : j * fmtBits fmt / 32 = i * fmtBits fmt / 32
    · rw [if_pos ⟨rfl, hw⟩, hw]
      have hlt : setBits (x.word r (i * fmtBits fmt / 32)) (i * fmtBits fmt % 32) (fmtBits fmt) v < 2 ^ 32 := by
        apply setBits_lt (Vx.word_lt _ _ _)
        rcases fmtBits_cases hf with h | h | h | h | h <;> rw [h] <;> omega
      rw [Nat.mod_eq_of_lt hlt]
      by_cases h : j = i
      · subst h
        rw [bits_setBits_self, if_pos rfl]
      · rw [if_neg h, bits_setBits_ne]
        rcases fmtBits_cases hf with h' | h' | h' | h' | h' <;> rw [h'] at hw ⊢ <;> omega
    · rw [if_neg (fun h => hw h.2), if_neg (fun h => hw (by rw [h]))]

/-- Elements written in turn. -/
theorem Vx.elem_setElems (vs : List Nat) (x : Vx) {r fmt i j : Nat} (hf : fmt ≤ 8) (hi : fmtBits fmt = 64 → i + vs.length ≤ 512) (hj : fmtBits fmt = 64 → j < 512)
    (hi' : fmtBits fmt ≠ 64 → (i + vs.length) * fmtBits fmt ≤ 512 * 32) (hj' : fmtBits fmt ≠ 64 → j * fmtBits fmt / 32 < 512) :
    (x.setElems r fmt i vs).elem r fmt j = if i ≤ j ∧ j < i + vs.length then vs.getD (j - i) 0 % 2 ^ fmtBits fmt else x.elem r fmt j := by
  induction vs generalizing x i with
  | nil =>
    rw [if_neg (by simp only [List.length_nil]; omega)]
    rfl
  | cons v vs ih =>
    simp only [List.length_cons] at hi hi' ⊢
    rw [Vx.setElems, ih _ (by intro h; have := hi h; omega) (by intro h; have := hi' h; rw [show i + 1 + vs.length = i + (vs.length + 1) by omega]; exact this),
      Vx.elem_setElem _ hf (by intro h; have := hi h; omega) hj ?_ hj']
    · by_cases h1 : j = i
      · subst h1
        rw [if_neg (by omega), if_pos rfl, if_pos (by omega)]
        simp
      · by_cases h2 : i + 1 ≤ j ∧ j < i + 1 + vs.length
        · rw [if_pos h2, if_pos (by omega)]
          obtain ⟨d, rfl⟩ : ∃ d, j = i + 1 + d := ⟨j - i - 1, by omega⟩
          rw [show i + 1 + d - (i + 1) = d by omega, show i + 1 + d - i = d + 1 by omega]
          simp
        · rw [if_neg h2, if_neg h1, if_neg (by omega)]
    · intro h
      have := hi' h
      rcases fmtBits_cases hf with h' | h' | h' | h' | h' <;> rw [h'] at this ⊢ <;> omega

/-- A word outside the elements written reads as before. -/
theorem Vx.word_setElems (vs : List Nat) (x : Vx) {r fmt i q k : Nat} (hf : fmt ≤ 8) (hi : fmtBits fmt = 64 → i + vs.length ≤ 512)
    (hi' : fmtBits fmt ≠ 64 → (i + vs.length) * fmtBits fmt ≤ 512 * 32) (hk : k < 512)
    (h : (q ≠ r ∧ (fmt = 8 → q ≠ r + 1)) ∨ (fmtBits fmt = 64 → i + vs.length ≤ k) ∧ (fmtBits fmt ≠ 64 → (i + vs.length) * fmtBits fmt ≤ k * 32)) :
    (x.setElems r fmt i vs).word q k = x.word q k := by
  induction vs generalizing x i with
  | nil => rfl
  | cons v vs ih =>
    simp only [List.length_cons] at hi hi' h
    rw [Vx.setElems, ih _ (by intro h; have := hi h; omega) (by intro h; have := hi' h; rw [show i + 1 + vs.length = i + (vs.length + 1) by omega]; exact this)]
    · by_cases h64 : fmtBits fmt = 64
      · have := hi h64
        unfold Vx.setElem
        dsimp only
        have h8 : fmt = 8 := fmtBits_64 hf h64
        have n1 : ¬ (q = r + 1 ∧ k = i) := by
          rcases h with h | h
          · have := h.2 h8; omega
          · have := h.1 h64; omega
        have n2 : ¬ (q = r ∧ k = i) := by
          rcases h with h | h
          · omega
          · have := h.1 h64; omega
        rw [if_pos h64, Vx.word_setWord _ (by omega) hk, if_neg n1, Vx.word_setWord _ (by omega) hk, if_neg n2]
      · have h3 := hi' h64
        have hlt : i * fmtBits fmt / 32 < 512 := by
          rcases fmtBits_cases hf with h' | h' | h' | h' | h' <;> rw [h'] at h3 ⊢ <;> omega
        apply Vx.word_setElem_low _ h64 hlt hk
        rintro ⟨rfl, rfl⟩
        rcases h with h | h
        · exact h.1 rfl
        · have h4 := h.2 h64
          rcases fmtBits_cases hf with h' | h' | h' | h' | h' <;> rw [h'] at h3 h4 <;> omega
    · rcases h with h | h
      · exact .inl h
      · right
        rw [show i + 1 + vs.length = i + (vs.length + 1) by omega]
        exact h

/-! ### Tiles -/

@[simp] theorem Block.onTile_tile (b : Block) (n : Nat) (f : Tile → Tile) : (b.onTile n f).tile n = f (b.tile n) := by
  unfold Block.onTile Block.setTile Block.tile
  exact Sparse.get_set_self _ _ _ _

theorem Block.onTile_tile_ne (b : Block) {n m : Nat} (h : m ≠ n) (f : Tile → Tile) : (b.onTile n f).tile m = b.tile m := by
  unfold Block.onTile Block.setTile Block.tile
  exact Sparse.get_set_ne _ _ _ h

theorem Block.tile_of_tiles {b b' : Block} (h : b'.tiles = b.tiles) (n : Nat) : b'.tile n = b.tile n := by unfold Block.tile; rw [h]

theorem Block.OnlyRegs.tiles {ws : List (Fld × Nat)} {b b' : Block} (h : b.OnlyRegs ws b') : b'.tiles = b.tiles := by
  have := h.rest
  unfold Block.onlySignals at this
  rw [this]

theorem Block.OnlyRegs.free {ws : List (Fld × Nat)} {b b' : Block} (h : b.OnlyRegs ws b') : b'.free = b.free := by
  have := h.rest
  unfold Block.onlySignals at this
  rw [this]

/-! ### The engine of a tile -/

/-- Storing an engine writes its tile, the tile's status fields and the service count, and nothing else. -/
theorem Block.setVx_only (b : Block) (n : Nat) (x : Vx) : (b.onTile n (fun t => { t with vx := x })).OnlyRegs
    [(.TILE_VX_STATUS_PC, n), (.TILE_VX_STATUS_VL, n), (.TILE_VX_STATUS_RUNNING, n), (.TILE_VX_STATUS_SVC_ACTIVE, n),
      (.TILE_VX_SVC_CYCLES_COUNT, n)] (b.setVx n x) := by
  unfold Block.setVx
  dsimp only
  refine Block.OnlyRegs.trans ?_ (Block.perf_only _ _ _ _ _ _ _)
  refine Block.OnlyRegs.trans ?_ (Block.counter_only (by decide) (by simp) _ _)
  refine Block.OnlyRegs.trans ?_ (Block.rset_only (by decide) (by simp) _ _)
  refine Block.OnlyRegs.trans ?_ (Block.rset_only (by decide) (by simp) _ _)
  refine Block.OnlyRegs.trans ?_ (Block.rset_only (by decide) (by simp) _ _)
  exact Block.rset_only (by decide) (by simp) _ _

@[simp] theorem Block.setVx_tile (b : Block) (n : Nat) (x : Vx) : (b.setVx n x).tile n = { b.tile n with vx := x } := by
  rw [Block.tile_of_tiles (Block.setVx_only b n x).tiles, Block.onTile_tile]
theorem Block.setVx_tile_ne (b : Block) {n m : Nat} (h : m ≠ n) (x : Vx) : (b.setVx n x).tile m = b.tile m := by
  rw [Block.tile_of_tiles (Block.setVx_only b n x).tiles, Block.onTile_tile_ne b h]

/-- A kernel that is over leaves its tile without a kernel and without service work. -/
theorem Block.vxOver_tile (b : Block) (c : Cmd) (n : Nat) : (b.vxOver c).tile n =
    (if n = c.tile then { b.tile n with vx := { (b.tile n).vx with cmd := none, svcWait := 0 } } else b.tile n) := by
  have : (b.vxOver c).tiles = (b.setVx c.tile { (b.tile c.tile).vx with cmd := none, svcWait := 0 }).tiles := by
    unfold Block.vxOver
    dsimp only
    rw [(Block.perf_only [] _ _ _ _ _ _).tiles]
    rfl
  rw [Block.tile_of_tiles this]
  by_cases h : n = c.tile
  · subst h
    rw [Block.setVx_tile, if_pos rfl]
  · rw [Block.setVx_tile_ne _ h, if_neg h]

theorem Block.vxAbsorbed_tiles (b : Block) (c : Cmd) (status : Nat) : (b.vxAbsorbed c status).tiles = b.tiles := by
  unfold Block.vxAbsorbed
  split
  · exact (Block.absorbed_only [] _ _).tiles
  · rfl

/-- The end of a kernel, likewise. -/
theorem Block.vxEnd_tile (b : Block) (c : Cmd) (s d e n : Nat) : (b.vxEnd c s d e).tile n =
    (if n = c.tile then { b.tile n with vx := { (b.tile n).vx with cmd := none, svcWait := 0 } } else b.tile n) := by
  have h := Block.vxOver_tile (b.vxAbsorbed c s) c n
  have ht : ∀ m, (b.vxAbsorbed c s).tile m = b.tile m := fun m => Block.tile_of_tiles (Block.vxAbsorbed_tiles b c s) m
  rw [ht] at h
  exact h

theorem Block.vxEnd_cmd (b : Block) (c : Cmd) (s d e : Nat) : ((b.vxEnd c s d e).tile c.tile).vx.cmd = none := by
  rw [Block.vxEnd_tile, if_pos rfl]

theorem Block.kernel_cmd {b : Block} {n : Nat} {c : Cmd} {p : VkernParams} (h : b.kernel n = some (c, p)) : (b.tile n).vx.cmd ≠ none := by
  intro hn
  unfold Block.kernel at h
  rw [hn] at h
  cases h

/-- The settling of a kernel changes nothing or ends the kernel. -/
theorem Block.vxSettle_cmd (b : Block) (n : Nat) : b.vxSettle n = b ∨ ((b.vxSettle n).tile n).vx.cmd = none := by
  unfold Block.vxSettle
  split
  · next c p h =>
    have ht := Block.kernel_tile h
    dsimp only
    split
    · right
      rw [← ht]
      exact Block.vxEnd_cmd _ _ _ _ _
    · split
      · right
        rw [← ht]
        exact Block.vxEnd_cmd _ _ _ _ _
      · exact .inl rfl
  · exact .inl rfl

/-- What the settling of a kernel leaves of the tiles: all of them, or its own with the kernel over. -/
theorem Block.vxSettle_tile (b : Block) (n : Nat) : (∀ m, (b.vxSettle n).tile m = b.tile m) ∨
    (∀ m, (b.vxSettle n).tile m = if m = n then { b.tile m with vx := { (b.tile m).vx with cmd := none, svcWait := 0 } } else b.tile m) := by
  unfold Block.vxSettle
  split
  · next c p h =>
    have ht := Block.kernel_tile h
    dsimp only
    split
    · exact .inr fun m => by rw [Block.vxEnd_tile, ht]
    · split
      · exact .inr fun m => by rw [Block.vxEnd_tile, ht]
      · exact .inl fun m => rfl
  · exact .inl fun m => rfl

/-- Settling leaves the tile store. -/
theorem Block.vxSettle_store (b : Block) (n m : Nat) : ((b.vxSettle n).tile m).store = (b.tile m).store := by
  rcases Block.vxSettle_tile b n with h | h
  · rw [h]
  · rw [h]
    split <;> rfl

/-! ### Numbers in memory -/

theorem Byte.toNat_ofNat_mod (v : Nat) : (BitVec.ofNat 8 v : Byte).toNat = v % 256 := by simp

@[simp] theorem length_bytesOf (n v : Nat) : (bytesOf n v).length = n := by
  induction n generalizing v with
  | zero => rfl
  | succ n ih => simp [bytesOf, ih]

theorem ofBytes_bytesOf (n v : Nat) : ofBytes (bytesOf n v) = v % 256 ^ n := by
  induction n generalizing v with
  | zero => simp [bytesOf, ofBytes, Nat.mod_one]
  | succ n ih =>
    rw [bytesOf, ofBytes, ih, Byte.toNat_ofNat_mod, Nat.pow_succ', Nat.mod_mul]

/-- Bytes read as before when the write was elsewhere. -/
theorem Memory.readBytes_congr {m m' : Memory} {a n : Nat} (h : ∀ k, a ≤ k → k < a + n → m'.read k = m.read k) :
    m'.readBytes a n = m.readBytes a n := by
  induction n generalizing a with
  | zero => rfl
  | succ n ih => rw [Memory.readBytes, Memory.readBytes, h a (by omega) (by omega), ih (fun k h1 h2 => h k (by omega) (by omega))]

theorem Memory.readBytes_writeBytes (bs : List Byte) (m : Memory) (a : Nat) : (m.writeBytes a bs).readBytes a bs.length = bs := by
  induction bs generalizing m a with
  | nil => rfl
  | cons c bs ih =>
    rw [List.length_cons, Memory.readBytes]
    have h := Memory.read_writeBytes (c :: bs) m a a
    rw [if_pos (by simp only [List.length_cons]; omega)] at h
    rw [h, Memory.writeBytes, ih]
    simp

/-- A number reads back from where it was written. -/
theorem Memory.readNat_writeNat (m : Memory) (a n v : Nat) : (m.writeNat a n v).readNat a n = v % 256 ^ n := by
  unfold Memory.readNat Memory.writeNat
  have h := Memory.readBytes_writeBytes (bytesOf n v) m a
  rw [length_bytesOf] at h
  rw [h, ofBytes_bytesOf]

/-- A byte outside a written number reads as before. -/
theorem Memory.read_writeNat_ne (m : Memory) {a n v b : Nat} (h : b < a ∨ a + n ≤ b) : (m.writeNat a n v).read b = m.read b := by
  unfold Memory.writeNat
  rw [Memory.read_writeBytes, length_bytesOf, if_neg (by omega)]

end Sys2Proof.Machine
end

