-- ==== Sys2Proof/Tests/Slice0.lean ====
section
/-! SUPPORT. Tests: what the form checks refuse, concrete states that meet the hypotheses of the statements, and single steps
whose expected results come from the spec. -/

namespace Sys2Proof.Machine

set_option Elab.async false

/-! ### The bench

Small states on which commands run: the module after reset with the fields that the command needs. Page 0 of context 0 is
mapped to host memory, page 1 to module memory. -/

/-- A command of ring 0 and context 0 that waits at its engine. -/
def cmdOf (op : Nat) (p : Params) : Cmd :=
  { id := 1, ring := 0, pos := 0, seq := 0, opcode := op, flags := 0, len := 1, cookie := 0, ctx := 0, cq := 0, tile := 0,
    trailer := ⟨0, 0, 0⟩, params := p, phase := .waiting, seenT := 0, startT := 0, result := none, effects := [], cut := none,
    cutIdx := none, det := false, joined := false, detTile := none, spans := [] }

/-- Fields set in turn. -/
def setAll (l : List (Fld × Nat × Nat)) (b : Block) : Block := l.foldl (fun b x => b.rset x.1 x.2.1 x.2.2) b

/-- A host page and a module page of context 0, both writable, and their object. -/
def leafHost : Leaf := ⟨true, true, false, 2, false, 0, 0, false⟩
def leafHere : Leaf := ⟨true, true, false, 0, false, 0, 1, false⟩

/-- The module after its boot: link up, tile 0, every stack, contexts 0 and 1. -/
def bench : Block :=
  setAll [(.HITCH_STATUS_LINK_UP, 0, 1), (.OSTLER_BOOT_STATUS_READY, 0, 1), (.OSTLER_BOOT_STATUS_STAGE, 0, 5),
      (.CAPS_TILE_MASK_TILE, 0, 1)]
    { Block.reset with
      boot := { BootSt.reset with pgAux := true, pgMain := true, pgStack := true, pgOpt := true, perstN := false, contexts := [0, 1] }
      drover := { DroverSt.reset with leaves := [(0, leafHost), (32, leafHere)] } }

/-- A block as a state with an empty queue. -/
def stateOf (b : Block) : State := ⟨[], b⟩

/-- The bench with one command at its engine. -/
def armed (b : Block) (op : Nat) (p : Params) : State := stateOf { b with cmds := [cmdOf op p] }

/-- A computation that succeeds. -/
def okB {ε α : Type} : Except ε α → Bool
  | .ok _ => true
  | .error _ => false

theorem ok_of {ε α β : Type} {x : Except ε α × β} (h : okB x.1 = true) : ∃ a b, x = (.ok a, b) := by
  obtain ⟨e, b⟩ := x
  cases e with
  | ok a => exact ⟨a, b, rfl⟩
  | error e => cases h

/-- A computation that succeeds with a value. -/
def okIs {ε α : Type} [DecidableEq α] (a : α) : Except ε α → Bool
  | .ok y => decide (y = a)
  | .error _ => false

theorem ok_val {ε α β : Type} [DecidableEq α] {x : Except ε α × β} {a : α} (h : okIs a x.1 = true) : ∃ b, x = (.ok a, b) := by
  obtain ⟨e, b⟩ := x
  cases e with
  | ok y => exact ⟨b, by rw [of_decide_eq_true h]⟩
  | error e => cases h

theorem armed_starts {b : Block} {op : Nat} {p : Params} (h : b.mayStart = true) : (armed b op p).blk.Starts 1 p (cmdOf op p) := by
  refine ⟨rfl, rfl, rfl, h, ?_⟩
  unfold Block.inRingOrder
  by_cases h4 : (cmdOf op p).opcode / 256 = 4
  · simp [h4]
  · have : ({ b with cmds := [cmdOf op p] } : Block).cmds = [cmdOf op p] := rfl
    simp only [armed, stateOf, this, List.find?]
    split
    · split at * <;> simp_all
    · simp

/-! ### Accesses of the bench's host page succeed

Which set and entry a translation cache takes is a free value, so the kernel cannot run an access to its end; these lemmas say
that one through page 0 of context 0 succeeds and what it leaves. -/

def accRegs : List (Fld × Nat) := [(.DROVER_WALKS_COUNT, 0), (.PERF_DEV_RD_COUNT, 0), (.PERF_DEV_WR_COUNT, 0)]

/-- `b` came from `b0` by accesses of host pages. -/
structure Kin (b0 b : Block) : Prop where
  only : Block.OnlyRegs accRegs { b0 with drover := b.drover, free := b.free, host := b.host } b
  leaves : b.drover.leaves = b0.drover.leaves
  late : b.drover.late = b0.drover.late
  objs : b0.drover.objs = [] → b.drover.objs = []

theorem Kin.refl (b : Block) : Kin b b := ⟨Block.OnlyRegs.refl _ _, rfl, rfl, id⟩

theorem only_congr {b b' : Block} {ws : List (Fld × Nat)} (h : b.OnlyRegs ws b') (d : DroverSt) (f : FreeSt) (m : Memory) :
    Block.OnlyRegs ws { b with drover := d, free := f, host := m } { b' with drover := d, free := f, host := m } := by
  refine ⟨?_, fun g j h1 h2 h3 => h.regs g j h1 h2 h3⟩
  have := h.rest
  unfold Block.onlySignals at this ⊢
  rw [this]

theorem Kin.trans {a b c : Block} (h : Kin a b) (h' : Kin b c) : Kin a c :=
  ⟨(only_congr h.only c.drover c.free c.host).trans h'.only, h'.leaves.trans h.leaves, h'.late.trans h.late, fun e => h'.objs (h.objs e)⟩

theorem Kin.of_only {b b' : Block} (h : b.OnlyRegs accRegs b') : Kin b b' := by
  have e := h.rest
  unfold Block.onlySignals at e
  have hd : b'.drover = b.drover := by rw [e]
  have hf : b'.free = b.free := by rw [e]
  have hh : b'.host = b.host := by rw [e]
  refine ⟨?_, by rw [hd], by rw [hd], fun h => by rw [hd]; exact h⟩
  rw [hd, hf, hh]
  exact h

theorem Kin.cut {b b' : Block} (h : Kin b b') : b'.cutActive = b.cutActive := by
  unfold Block.cutActive Block.flag
  rw [h.only.regs .HITCH_STATUS_CUT_ACTIVE 0 (by decide) (by decide) (by
    intro p hp
    simp only [accRegs, List.mem_cons, List.not_mem_nil, or_false] at hp
    rcases hp with rfl | rfl | rfl <;> exact Fld.apart_of_reg (by decide) (by decide) (by decide))]
  rfl

theorem kin_tlb (b : Block) (who : Who) (cache key : Nat) : Kin b (b.tlbUse who cache key) := by
  unfold Block.tlbUse
  dsimp only
  split
  · exact Kin.refl b
  · have h1 : Kin b ((b.count .DROVER_WALKS_COUNT 0 1).perf who.src 0x0A 0 who.ctx 1) :=
      Kin.of_only ((Block.counter_only (by decide) (by decide) b 1).trans (Block.perf_only _ _ _ _ _ _ _))
    exact h1.trans ⟨Block.OnlyRegs.refl _ _, rfl, rfl, id⟩

theorem kin_updObj (b : Block) (ctx o : Nat) (f : Obj → Obj) : Kin b (b.updObj ctx o f) :=
  ⟨Block.OnlyRegs.refl _ _, rfl, rfl, fun h => by unfold Block.updObj; simp [h]⟩

theorem kin_noteUse (b : Block) (ctx : Nat) (lf : Leaf) (va : Nat) (w : Bool) : Kin b (b.noteUse ctx lf va w) := by
  unfold Block.noteUse
  dsimp only
  refine Kin.trans (b := _) ?_ (kin_updObj _ _ _ _)
  split
  · split
    · exact ⟨Block.OnlyRegs.refl _ _, rfl, rfl, id⟩
    · exact Kin.refl b
  · exact Kin.refl b

/-- Page 0 of context 0 lies in the host and nothing holds an access back. -/
structure HostOk (b : Block) : Prop where
  leaves : b.drover.leaves = [(0, leafHost), (32, leafHere)]
  late : b.drover.late = []
  cut : b.cutActive = false

theorem HostOk.kin {b b' : Block} (h : HostOk b) (k : Kin b b') : HostOk b' :=
  ⟨k.leaves.trans h.leaves, k.late.trans h.late, k.cut.trans h.cut⟩

theorem leafAt_host {b : Block} (h : b.drover.leaves = [(0, leafHost), (32, leafHere)]) {va : Nat} (hv : va < 2097152) :
    b.leafAt 0 va = some (0, leafHost) := by
  have hl : ∀ k, k < 32 → b.leaf k = if k = 0 then leafHost else Leaf.none := by
    intro k hk
    unfold Block.leaf
    rw [h]
    by_cases h0 : k = 0
    · subst h0; rfl
    · simp [Sparse.get, always, h0, show ¬ (32 = k) by omega, show ¬ (0 = k) by omega]
  have e1 : leafKey 0 va < 32 := by unfold leafKey; omega
  have e2 : va / pageBytes * pageBytes = 0 := by
    have : va / pageBytes = 0 := Nat.div_eq_of_lt (by unfold pageBytes; omega)
    rw [this, Nat.zero_mul]
  have e3 : leafKey 0 0 = 0 := rfl
  unfold Block.leafAt
  dsimp only
  rw [e2, e3, hl _ e1, hl 0 (by decide), if_neg (by omega)]
  by_cases h0 : leafKey 0 va = 0
  · rw [if_pos h0]; simp [leafHost]
  · rw [if_neg h0]; simp [leafHost, Leaf.none]

theorem only_host {b b' : Block} {ws : List (Fld × Nat)} (h : b.OnlyRegs ws b') : b'.host = b.host := by
  have := h.rest
  unfold Block.onlySignals at this
  exact (congrArg Block.host this).trans rfl

theorem tlb_host (b : Block) (who : Who) (cache key : Nat) : (b.tlbUse who cache key).host = b.host := by
  unfold Block.tlbUse
  dsimp only
  split
  · rfl
  · exact (only_host (Block.perf_only accRegs (b.count .DROVER_WALKS_COUNT 0 1) who.src 0x0A 0 who.ctx 1)).trans
      (only_host (Block.counter_only (rs := accRegs) (f := .DROVER_WALKS_COUNT) (i := 0) (by decide) (by decide) b 1))

theorem noteUse_host (b : Block) (ctx : Nat) (lf : Leaf) (va : Nat) (w : Bool) : (b.noteUse ctx lf va w).host = b.host := by
  unfold Block.noteUse
  dsimp only
  split
  · split <;> rfl
  · rfl

theorem translate_host {b : Block} (h : HostOk b) {q : Req} (hq : q.who.ctx = 0) {va : Nat} (hv : va < 2097152) (w : Bool) :
    ∃ b', translate q va w b = (.ok (.host va), b') ∧ Kin b b' ∧ b'.host = b.host := by
  refine ⟨(b.tlbUse q.who q.cache 0).noteUse q.who.ctx leafHost va w, ?_, (kin_tlb _ _ _ _).trans (kin_noteUse _ _ _ _ _),
    (noteUse_host _ _ _ _ _).trans (tlb_host _ _ _ _)⟩
  unfold translate
  have hm : va % pageBytes = va := Nat.mod_eq_of_lt (by unfold pageBytes; omega)
  rw [Act.bind_ok (Act.get_run b), hq, leafAt_host h.leaves hv]
  dsimp only
  rw [Act.bind_ok (Act.act_run _ b)]
  have e1 : (w && !leafHost.write) = false := by cases w <;> rfl
  have e2 : leafHost.revoked = false := rfl
  rw [if_neg (by rw [e1]; simp), if_neg (by rw [e2]; simp), Act.bind_ok (Act.act_run _ _)]
  show (Except.ok (Target.host (0 + va % pageBytes)), _) = _
  rw [hm, Nat.zero_add]

theorem tierCheck_ok {b : Block} (h : HostOk b) (q : Req) (t : Nat) : tierCheck q t b = (.ok (), b) := by
  unfold tierCheck
  have : tierBad q b = (.ok none, b) := by
    unfold tierBad
    rw [Act.bind_ok (Act.get_run b), h.late]
    rfl
  rw [Act.bind_ok this]
  rfl

theorem readPiece_host {b : Block} (h : HostOk b) {q : Req} (hq : q.who.ctx = 0) {va : Nat} (hv : va < 2097152) (n : Nat) :
    ∃ b', readPiece q va n b = (.ok (b.host.readBytes va n), b') ∧ Kin b b' ∧ b'.host = b.host := by
  obtain ⟨b1, e1, k1, h1⟩ := translate_host h hq hv false
  have ho := only_host (Block.perf_only accRegs b1 q.who.src 0x07 0 q.who.ctx 1)
  have k2 : Kin b (b1.perf q.who.src 0x07 0 q.who.ctx 1) := k1.trans (Kin.of_only (Block.perf_only _ _ _ _ _ _ _))
  have h2 := h.kin k2
  unfold readPiece
  rw [Act.bind_ok e1, Act.bind_ok (Act.act_run _ b1)]
  dsimp only
  rw [Act.bind_ok (Act.get_run _), h2.cut]
  generalize b1.perf q.who.src 0x07 0 q.who.ctx 1 = b2 at ho k2 h2
  have hc : b2.OnlyRegs accRegs (b2.count .PERF_DEV_RD_COUNT 0 (ceilDiv n 64)) := Block.counter_only (by decide) (by decide) _ _
  refine ⟨b2.count .PERF_DEV_RD_COUNT 0 (ceilDiv n 64), ?_, k2.trans (Kin.of_only hc), (only_host hc).trans (ho.trans h1)⟩
  rw [if_neg (by simp), Act.bind_ok (tierCheck_ok h2 q 2), Act.bind_ok (Act.act_run _ _), ← h1, ← ho]
  rfl

theorem writePiece_host {b : Block} (h : HostOk b) {q : Req} (hq : q.who.ctx = 0) {va : Nat} (hv : va < 2097152) (bs : List Byte) :
    ∃ b', writePiece q va bs b = (.ok (), b') ∧ Kin b b' := by
  obtain ⟨b1, e1, k1, h1⟩ := translate_host h hq hv true
  have k2 : Kin b (b1.perf q.who.src 0x08 0 q.who.ctx 1) := k1.trans (Kin.of_only (Block.perf_only _ _ _ _ _ _ _))
  have h2 := h.kin k2
  unfold writePiece
  rw [Act.bind_ok e1, Act.bind_ok (Act.act_run _ b1)]
  dsimp only
  rw [Act.bind_ok (Act.get_run _), h2.cut]
  generalize b1.perf q.who.src 0x08 0 q.who.ctx 1 = b2 at k2 h2
  refine ⟨b2.hostWrite va bs, ?_, k2.trans ?_⟩
  · rw [if_neg (by simp), Act.bind_ok (tierCheck_ok h2 q 2)]
    rfl
  · have hc : b2.OnlyRegs accRegs (b2.count .PERF_DEV_WR_COUNT 0 (ceilDiv bs.length 64)) := Block.counter_only (by decide) (by decide) _ _
    exact (Kin.of_only hc).trans ⟨Block.OnlyRegs.refl _ _, rfl, rfl, id⟩

/-- A computation that succeeds on every block that came from `b0` by accesses of its host page. -/
def Runs (b0 : Block) {α : Type} (m : Act α) (q : α → Prop) : Prop := ∀ b, Kin b0 b → ∃ a b', m b = (.ok a, b') ∧ Kin b0 b' ∧ q a

theorem Runs.bind {b0 : Block} {α β : Type} {m : Act α} {f : α → Act β} {q : α → Prop} {r : β → Prop} (h : Runs b0 m q)
    (hf : ∀ a, q a → Runs b0 (f a) r) : Runs b0 (m >>= f) r := by
  intro b hb
  obtain ⟨a, b1, e, k, hq⟩ := h b hb
  obtain ⟨c, b2, e2, k2, hr⟩ := hf a hq b1 k
  exact ⟨c, b2, by rw [Act.bind_ok e, e2], k2, hr⟩

theorem Runs.pure {b0 : Block} {α : Type} {a : α} {q : α → Prop} (h : q a) : Runs b0 (pure a : Act α) q := fun b k => ⟨a, b, rfl, k, h⟩

theorem Runs.get (b0 : Block) : Runs b0 (get : Act Block) (Kin b0) := fun b k => ⟨b, b, rfl, k, k⟩

theorem Runs.act {b0 : Block} {f : Block → Block} (h : ∀ b, Kin b0 b → Kin b0 (f b)) : Runs b0 (act f) (fun _ => True) :=
  fun b k => ⟨(), f b, rfl, h b k, trivial⟩

theorem Runs.ok {b0 : Block} {α : Type} {m : Act α} {q : α → Prop} (h : Runs b0 m q) : ∃ a b, m b0 = (.ok a, b) ∧ q a := by
  obtain ⟨a, b, e, _, hq⟩ := h b0 (Kin.refl b0)
  exact ⟨a, b, e, hq⟩

theorem pieces_in (fuel va n : Nat) : ∀ p ∈ pieces fuel va n, p.1 < va + n ∧ va ≤ p.1 := by
  induction fuel generalizing va n with
  | zero => simp [pieces]
  | succ k ih =>
    intro p hp
    unfold pieces at hp
    split at hp
    · cases hp
    · rcases List.mem_cons.1 hp with rfl | h
      · dsimp only; omega
      · have := ih _ _ p h
        omega

theorem runs_forM {b0 : Block} {α : Type} (f : α → Act PUnit) (l : List α) (h : ∀ a ∈ l, Runs b0 (f a) (fun _ => True)) :
    Runs b0 (forIn l PUnit.unit (fun a _ => do f a; pure (ForInStep.yield PUnit.unit))) (fun _ => True) := by
  induction l with
  | nil => exact Runs.pure trivial
  | cons a l ih =>
    rw [List.forIn_cons]
    refine Runs.bind (q := fun x => x = ForInStep.yield PUnit.unit) ((h a (by simp)).bind fun _ _ => Runs.pure rfl) fun x hx => ?_
    rw [hx]
    exact ih fun x hx => h x (by simp [hx])

theorem length_readBytes (m : Memory) (a n : Nat) : (m.readBytes a n).length = n := by
  induction n generalizing a with
  | zero => rfl
  | succ n ih => rw [Memory.readBytes, List.length_cons, ih]

theorem pieces_sum (fuel va n : Nat) : ((pieces fuel va n).map (fun p => p.2)).sum ≤ n := by
  induction fuel generalizing va n with
  | zero => simp [pieces]
  | succ k ih =>
    unfold pieces
    split
    · simp
    · have := ih (va + min n (128 - va % 128)) (n - min n (128 - va % 128))
      simp only [List.map_cons, List.sum_cons]
      omega

theorem runs_mapPieces {b0 : Block} (q : Req) (l : List (Nat × Nat)) (h : ∀ p ∈ l, Runs b0 (readPiece q p.1 p.2) (fun bs => bs.length = p.2)) :
    Runs b0 (l.mapM (fun p => readPiece q p.1 p.2)) (fun x => x.flatten.length = (l.map (fun p => p.2)).sum) := by
  induction l with
  | nil => rw [List.mapM_nil]; exact Runs.pure rfl
  | cons a l ih =>
    rw [List.mapM_cons]
    refine (h a (by simp)).bind fun x hx => (ih fun x hx => h x (by simp [hx])).bind fun y hy => Runs.pure ?_
    simp [hx, hy]

theorem runs_readVa {b0 : Block} (h : HostOk b0) {q : Req} (hq : q.who.ctx = 0) {va n : Nat} (hv : va + n ≤ 2097152) :
    Runs b0 (readVa q va n) (fun l => l.length ≤ n) := by
  unfold readVa
  refine (runs_mapPieces q _ fun p hp => ?_).bind fun x hx => Runs.pure (by rw [hx]; exact pieces_sum _ _ _)
  intro b k
  have := pieces_in _ _ _ p hp
  obtain ⟨b', e, k', _⟩ := readPiece_host (h.kin k) hq (va := p.1) (by omega) p.2
  exact ⟨_, b', e, k.trans k', length_readBytes _ _ _⟩

theorem runs_writeVa {b0 : Block} (h : HostOk b0) {q : Req} (hq : q.who.ctx = 0) {va : Nat} {bs : List Byte} (hv : va + bs.length ≤ 2097152) :
    Runs b0 (writeVa q va bs) (fun _ => True) := by
  unfold writeVa
  refine Runs.bind (runs_forM (fun p : Nat × Nat => writePiece q p.1 ((bs.drop (p.1 - va)).take p.2)) _ fun p hp => ?_) fun _ _ => Runs.pure trivial
  intro b k
  have := pieces_in _ _ _ p hp
  obtain ⟨b', e, k'⟩ := writePiece_host (h.kin k) hq (va := p.1) (by omega) ((bs.drop (p.1 - va)).take p.2)
  exact ⟨_, b', e, k.trans k', trivial⟩

/-- A read inside one 128-byte line of the host page answers its bytes. -/
theorem readVa_line {b : Block} (h : HostOk b) {q : Req} (hq : q.who.ctx = 0) {va n : Nat} (hn : n ≠ 0) (hl : va % 128 + n ≤ 128)
    (hv : va < 2097152) : ∃ b', readVa q va n b = (.ok (b.host.readBytes va n), b') ∧ Kin b b' ∧ b'.host = b.host := by
  have hp : piecesOf va n = [(va, n)] := by
    unfold piecesOf
    rw [show n / 128 + 2 = (n / 128 + 1) + 1 by omega, pieces, if_neg hn]
    dsimp only
    rw [show min n (128 - va % 128) = n by omega, Nat.sub_self, pieces, if_pos rfl]
  obtain ⟨b', e, k, hh⟩ := readPiece_host h hq hv n
  refine ⟨b', ?_, k, hh⟩
  unfold readVa
  rw [hp, List.mapM_cons, List.mapM_nil]
  have e2 : (do let y ← readPiece q (va, n).1 (va, n).2; let ys ← (pure [] : Act (List (List Byte))); pure (y :: ys)) b = (.ok [b.host.readBytes va n], b') := by
    rw [Act.bind_ok e]; rfl
  rw [Act.bind_ok e2]
  simp [Act.pure_run]

/-! ### Well-formedness: one value too wide for each field, which the check refuses -/

theorem test_wf_copyParams : let z : CopyParams := ⟨0, 0, 0, 0, 0, 0, 0, 0⟩
        z.wf = true ∧ [{ z with va := 2 ^ 56 }, { z with tsAddr := 2 ^ 32 }, { z with rowBytes := 2 ^ 32 }, { z with rows := 2 ^ 32 }, { z
      with tsStride := 2 ^ 32 }, { z with vaStride := 2 ^ 56 }, { z with hint := 2 ^ 2 }, { z with useCount := 2 ^ 8 }].all (fun p => !p.wf)
      = true := by decide +kernel

theorem test_wf_matmulParams : let z : MatmulParams := ⟨0, 0, 0, 0, 0, 0, 0, 0, 0, 0, 0, 0, 0, 0, false, false, 0, 0⟩
        z.wf = true ∧ [{ z with aAddr := 2 ^ 32 }, { z with bAddr := 2 ^ 32 }, { z with saAddr := 2 ^ 32 }, { z with sbAddr := 2 ^ 32 }, { z
      with m := 2 ^ 16 }, { z with n := 2 ^ 16 }, { z with k := 2 ^ 32 }, { z with fmtA := 2 ^ 4 }, { z with fmtB := 2 ^ 4 }, { z with sfmtA
      := 2 ^ 4 }, { z with sfmtB := 2 ^ 4 }, { z with g := 2 ^ 2 }, { z with group := 2 ^ 3 }, { z with rowOff := 2 ^ 16 }, { z with aStride
      := 2 ^ 32 }, { z with bStride := 2 ^ 32 }].all (fun p => !p.wf) = true := by decide +kernel

theorem test_wf_vkernParams : let z : VkernParams := ⟨0, 0, 0, 0, 0, false, false, 0, 0, 0, 0, 0, []⟩
        z.wf = true ∧ [{ z with codeVa := 2 ^ 56 }, { z with codeWords := 2 ^ 16 }, { z with imemAddr := 2 ^ 16 }, { z with entry := 2 ^ 16
      }, { z with nargs := 2 ^ 8 }, { z with rdLo := 2 ^ 32 }, { z with rdHi := 2 ^ 32 }, { z with wrLo := 2 ^ 32 }, { z with wrHi := 2 ^ 32
      }, { z with maxCycles := 2 ^ 32 }].all (fun p => !p.wf) = true := by decide +kernel

theorem test_wf_accOpenParams : let z : AccOpenParams := ⟨0, 0, 0, 0, 0, 0⟩
        z.wf = true ∧ [{ z with group := 2 ^ 3 }, { z with entry := 2 ^ 8 }, { z with init := 2 ^ 8 }, { z with firstRow := 2 ^ 16 }, { z
      with rows := 2 ^ 16 }, { z with initAddr := 2 ^ 32 }].all (fun p => !p.wf) = true := by decide +kernel

theorem test_wf_accCloseParams : let z : AccCloseParams := ⟨0, false, false, 0, 0, 0⟩
        z.wf = true ∧ [{ z with group := 2 ^ 3 }, { z with slot := 2 ^ 16 }, { z with dest := 2 ^ 32 }, { z with destStride := 2 ^ 32 }].all
      (fun p => !p.wf) = true := by decide +kernel

theorem test_wf_fenceParams : let z : FenceParams := ⟨0⟩
    z.wf = true ∧ [{ z with mask := 2 ^ 8 }].all (fun p => !p.wf) = true := by decide +kernel

theorem test_wf_signalParams : let z : SignalParams := ⟨0, 0, 0⟩
    z.wf = true ∧ [{ z with kind := 2 ^ 8 }, { z with index := 2 ^ 8 }, { z with flag := 2 ^ 8 }].all (fun p => !p.wf) = true := by decide +kernel

theorem test_wf_waitParams : let z : WaitParams := ⟨0, 0, 0⟩
    z.wf = true ∧ [{ z with flag := 2 ^ 8 }, { z with value := 2 ^ 32 }, { z with timeoutUs := 2 ^ 32 }].all (fun p => !p.wf) = true := by decide +kernel

theorem test_wf_mbxAccessParams : let z : MbxAccessParams := ⟨0, 0, 0, 0⟩
        z.wf = true ∧ [{ z with op := 2 ^ 8 }, { z with mbx := 2 ^ 8 }, { z with value := 2 ^ 32 }, { z with resultAddr := 2 ^ 32 }].all
      (fun p => !p.wf) = true := by decide +kernel

theorem test_wf_lookupParams : let z : LookupParams := ⟨0, 0, false, false, false, 0, 0, 0, 0, 0, 0, 0⟩
        z.wf = true ∧ [{ z with listVa := 2 ^ 56 }, { z with count := 2 ^ 16 }, { z with hint := 2 ^ 2 }, { z with group := 2 ^ 14 }, { z
      with epoch := 2 ^ 8 }, { z with bucket := 2 ^ 16 }, { z with workVa := 2 ^ 56 }, { z with workBytes := 2 ^ 64 }, { z with statsVa := 2
      ^ 56 }].all (fun p => !p.wf) = true := by decide +kernel

theorem test_wf_sortParams : let z : SortParams := ⟨0, 0, 0, false, false, false, 0, 0, 0, 0, 0, 0⟩
        z.wf = true ∧ [{ z with listVa := 2 ^ 56 }, { z with count := 2 ^ 16 }, { z with mode := 2 ^ 8 }, { z with outVa := 2 ^ 56 }, { z
      with outBytes := 2 ^ 64 }, { z with invVa := 2 ^ 56 }, { z with workVa := 2 ^ 56 }, { z with workBytes := 2 ^ 64 }, { z with statsVa
      := 2 ^ 56 }].all (fun p => !p.wf) = true := by decide +kernel

theorem test_wf_exchangeParams : let z : ExchangeParams := ⟨0, 0, 0, 0, 0, 0, false⟩
        z.wf = true ∧ [{ z with inVa := 2 ^ 56 }, { z with outVa := 2 ^ 56 }, { z with outBytes := 2 ^ 64 }, { z with group := 2 ^ 14 }, { z
      with epoch := 2 ^ 8 }, { z with bucket := 2 ^ 16 }].all (fun p => !p.wf) = true := by decide +kernel

theorem test_wf_scatterParams : let z : ScatterParams := ⟨0, 0, 0, false, false, 0, 0⟩
        z.wf = true ∧ [{ z with inVa := 2 ^ 56 }, { z with workVa := 2 ^ 56 }, { z with workBytes := 2 ^ 64 }, { z with hint := 2 ^ 2 }, { z
      with statsVa := 2 ^ 56 }].all (fun p => !p.wf) = true := by decide +kernel

theorem test_wf_tableParams : let z : TableParams := ⟨0, 0, 0, 0, 0, false, false, false, 0, 0, 0, 0, 0, 0, 0⟩
        z.wf = true ∧ [{ z with table := 2 ^ 12 }, { z with fmt := 2 ^ 8 }, { z with stateFmt := 2 ^ 8 }, { z with width := 2 ^ 16 }, { z
      with rule := 2 ^ 8 }, { z with rows := 2 ^ 64 }, { z with baseVa := 2 ^ 56 }, { z with localRows := 2 ^ 64 }, { z with group := 2 ^ 14
      }, { z with shard := 2 ^ 8 }, { z with owner := 2 ^ 16 }, { z with hyperVa := 2 ^ 56 }].all (fun p => !p.wf) = true := by decide +kernel

theorem test_wf_promoteParams : let z : PromoteParams := ⟨0, 0, false, false, false, 0, 0, 0, 0, 0, 0, 0, 0⟩
        z.wf = true ∧ [{ z with group := 2 ^ 14 }, { z with epoch := 2 ^ 8 }, { z with bucket := 2 ^ 16 }, { z with cand := 2 ^ 32 }, { z
      with maxNew := 2 ^ 32 }, { z with heat := 2 ^ 32 }, { z with keys := 2 ^ 32 }, { z with keyVa := 2 ^ 56 }, { z with outVa := 2 ^ 56 },
      { z with statsVa := 2 ^ 56 }].all (fun p => !p.wf) = true := by decide +kernel

theorem test_wf_refreshParams : let z : RefreshParams := ⟨0, 0, false, false, 0, 0⟩
        z.wf = true ∧ [{ z with group := 2 ^ 14 }, { z with epoch := 2 ^ 8 }, { z with bucket := 2 ^ 16 }, { z with statsVa := 2 ^ 56 }].all
      (fun p => !p.wf) = true := by decide +kernel

theorem test_wf_shardParams : let z : ShardParams := ⟨0, 0, 0, 0, 0, 0, false, false, false, 0, 0, 0, 0, 0, 0, 0, 0, 0, 0⟩
        z.wf = true ∧ [{ z with shard := 2 ^ 16 }, { z with wfmt := 2 ^ 8 }, { z with stateFmt := 2 ^ 8 }, { z with rule := 2 ^ 8 }, { z
      with mode := 2 ^ 8 }, { z with depth := 2 ^ 8 }, { z with elems := 2 ^ 64 }, { z with baseVa := 2 ^ 56 }, { z with hyperVa := 2 ^ 56
      }, { z with tgroup := 2 ^ 16 }, { z with group := 2 ^ 14 }, { z with owner := 2 ^ 16 }, { z with seedFmt := 2 ^ 8 }, { z with seedG :=
      2 ^ 2 }, { z with trustElems := 2 ^ 32 }, { z with seedSrc := 2 ^ 16 }].all (fun p => !p.wf) = true := by decide +kernel

theorem test_wf_updateParams : let z : UpdateParams := ⟨0, 0, 0, 0, 0, 0, 0, false, false, false, 0⟩
        z.wf = true ∧ [{ z with listVa := 2 ^ 56 }, { z with count := 2 ^ 16 }, { z with clip := 2 ^ 8 }, { z with clipSlot := 2 ^ 4 }, { z
      with cstep := 2 ^ 32 }, { z with group := 2 ^ 14 }, { z with epoch := 2 ^ 8 }, { z with bucket := 2 ^ 16 }].all (fun p => !p.wf) =
      true := by decide +kernel

theorem test_wf_fetchParams : let z : FetchParams := ⟨0, 0, false, 0, 0, 0, 0, 0⟩
        z.wf = true ∧ [{ z with shard := 2 ^ 16 }, { z with parts := 2 ^ 8 }, { z with version := 2 ^ 32 }, { z with destVa := 2 ^ 56 }, { z
      with timeoutUs := 2 ^ 32 }, { z with hint := 2 ^ 2 }, { z with useCount := 2 ^ 8 }].all (fun p => !p.wf) = true := by decide +kernel

theorem test_wf_revertParams : let z : RevertParams := ⟨0, 0⟩
    z.wf = true ∧ [{ z with shard := 2 ^ 16 }, { z with version := 2 ^ 32 }].all (fun p => !p.wf) = true := by decide +kernel

theorem test_wf_groupParams : let z : GroupParams := ⟨0, 0, false, 0, 0⟩
        z.wf = true ∧ [{ z with group := 2 ^ 14 }, { z with epoch := 2 ^ 8 }, { z with members := 2 ^ 16 }, { z with listVa := 2 ^ 56 }].all
      (fun p => !p.wf) = true := by decide +kernel

theorem test_wf_collParams : let z : CollParams := ⟨0, 0, false, false, false, false, false, 0, 0, 0, 0, 0, 0, 0, 0, 0, 0, 0, 0, 0, 0⟩
        z.wf = true ∧ [{ z with group := 2 ^ 14 }, { z with epoch := 2 ^ 8 }, { z with bucket := 2 ^ 16 }, { z with algo := 2 ^ 8 }, { z
      with fmt := 2 ^ 4 }, { z with outFmt := 2 ^ 4 }, { z with bytes := 2 ^ 32 }, { z with pass := 2 ^ 8 }, { z with passes := 2 ^ 8 }, { z
      with srcFmt := 2 ^ 8 }, { z with hint := 2 ^ 2 }, { z with bucketVa := 2 ^ 56 }, { z with srcVa := 2 ^ 64 }, { z with outVa := 2 ^ 56
      }, { z with useCount := 2 ^ 8 }, { z with root := 2 ^ 16 }].all (fun p => !p.wf) = true := by decide +kernel

theorem test_wf_a2aParams : let z : A2aParams := ⟨0, 0, 0, 0, 0, 0, 0, 0⟩
        z.wf = true ∧ [{ z with group := 2 ^ 14 }, { z with epoch := 2 ^ 8 }, { z with bucket := 2 ^ 16 }, { z with sendCountsVa := 2 ^ 56
      }, { z with sendVa := 2 ^ 56 }, { z with recvVa := 2 ^ 56 }, { z with recvBytes := 2 ^ 64 }, { z with recvCountsVa := 2 ^ 56 }].all
      (fun p => !p.wf) = true := by decide +kernel

theorem test_wf_permuteParams : let z : PermuteParams := ⟨0, 0, 0, 0, 0, 0, 0⟩
        z.wf = true ∧ [{ z with group := 2 ^ 14 }, { z with epoch := 2 ^ 8 }, { z with moves := 2 ^ 32 }, { z with movesVa := 2 ^ 56 }, { z
      with baseVa := 2 ^ 56 }, { z with workVa := 2 ^ 56 }, { z with workBytes := 2 ^ 64 }].all (fun p => !p.wf) = true := by decide +kernel

theorem test_wf_cancelParams : let z : CancelParams := ⟨0, 0, false, 0⟩
    z.wf = true ∧ [{ z with group := 2 ^ 14 }, { z with epoch := 2 ^ 8 }, { z with bucket := 2 ^ 16 }].all (fun p => !p.wf) = true := by decide +kernel

theorem test_wf_attendParams : let z : AttendParams := ⟨0, 0, 0, 0, false, false, false, false, false, false, 0, 0, 0, 0, 0, 0, 0, 0, 0, 0, 0, 0, 0, 0, 0⟩
        z.wf = true ∧ [{ z with mode := 2 ^ 8 }, { z with qFmt := 2 ^ 4 }, { z with kvFmt := 2 ^ 4 }, { z with outFmt := 2 ^ 4 }, { z with d
      := 2 ^ 16 }, { z with rDim := 2 ^ 16 }, { z with gqa := 2 ^ 8 }, { z with hPage := 2 ^ 8 }, { z with head0 := 2 ^ 8 }, { z with hCmd
      := 2 ^ 8 }, { z with scale := 2 ^ 32 }, { z with window := 2 ^ 32 }, { z with nseq := 2 ^ 16 }, { z with seqVa := 2 ^ 56 }, { z with
      ropeVa := 2 ^ 56 }, { z with tiles := 2 ^ 64 }, { z with tsLo := 2 ^ 32 }, { z with workVa := 2 ^ 56 }, { z with workBytes := 2 ^ 64
      }].all (fun p => !p.wf) = true := by decide +kernel

theorem test_wf_pageEditParams : let z : PageEditParams := ⟨0, 0, 0, 0, 0⟩
        z.wf = true ∧ [{ z with slot := 2 ^ 16 }, { z with op := 2 ^ 8 }, { z with first := 2 ^ 32 }, { z with count := 2 ^ 32 }, { z with
      srcVa := 2 ^ 56 }].all (fun p => !p.wf) = true := by decide +kernel

theorem test_wf_mapParams : let z : MapParams := ⟨0, 0, 0, false, false, false, false, false, 0, 0⟩
        z.wf = true ∧ [{ z with va := 2 ^ 56 }, { z with size := 2 ^ 64 }, { z with obj := 2 ^ 16 }, { z with tier := 2 ^ 8 }, { z with lend
      := 2 ^ 8 }].all (fun p => !p.wf) = true := by decide +kernel

theorem test_wf_objParams : let z : ObjParams := ⟨0⟩
    z.wf = true ∧ [{ z with obj := 2 ^ 16 }].all (fun p => !p.wf) = true := by decide +kernel

theorem test_wf_migrateParams : let z : MigrateParams := ⟨0, 0, 0⟩
    z.wf = true ∧ [{ z with obj := 2 ^ 16 }, { z with tier := 2 ^ 8 }, { z with lend := 2 ^ 8 }].all (fun p => !p.wf) = true := by decide +kernel

theorem test_wf_lendParams : let z : LendParams := ⟨0, 0, 0, 0⟩
        z.wf = true ∧ [{ z with rank := 2 ^ 14 }, { z with lendId := 2 ^ 8 }, { z with guarded := 2 ^ 8 }, { z with pages := 2 ^ 32 }].all
      (fun p => !p.wf) = true := by decide +kernel

theorem test_wf_revokeParams : let z : RevokeParams := ⟨0⟩
    z.wf = true ∧ [{ z with lendId := 2 ^ 8 }].all (fun p => !p.wf) = true := by decide +kernel

theorem test_wf_snapshotParams : let z : SnapshotParams := ⟨0, 0, 0, 0, 0, 0, 0⟩
        z.wf = true ∧ [{ z with obj := 2 ^ 16 }, { z with count := 2 ^ 16 }, { z with tier := 2 ^ 8 }, { z with lend := 2 ^ 8 }, { z with
      version := 2 ^ 32 }, { z with dest := 2 ^ 64 }, { z with manifest := 2 ^ 64 }].all (fun p => !p.wf) = true := by decide +kernel

theorem test_wf_ctxCreateParams : let z : CtxCreateParams := ⟨0, 0⟩
    z.wf = true ∧ [{ z with ctx := 2 ^ 8 }, { z with tiles := 2 ^ 64 }].all (fun p => !p.wf) = true := by decide +kernel

theorem test_wf_ctxDestroyParams : let z : CtxDestroyParams := ⟨0⟩
    z.wf = true ∧ [{ z with ctx := 2 ^ 8 }].all (fun p => !p.wf) = true := by decide +kernel

theorem test_wf_configReadParams : let z : ConfigReadParams := ⟨0, 0, 0⟩
    z.wf = true ∧ [{ z with item := 2 ^ 8 }, { z with destVa := 2 ^ 56 }, { z with capacity := 2 ^ 32 }].all (fun p => !p.wf) = true := by decide +kernel

theorem test_wf_telemetryParams : let z : TelemetryParams := ⟨0, 0, 0⟩
    z.wf = true ∧ [{ z with blocks := 2 ^ 32 }, { z with destVa := 2 ^ 56 }, { z with capacity := 2 ^ 32 }].all (fun p => !p.wf) = true := by decide +kernel

theorem test_wf_errlogReadParams : let z : ErrlogReadParams := ⟨0, 0, 0⟩
    z.wf = true ∧ [{ z with firstSeq := 2 ^ 32 }, { z with count := 2 ^ 32 }, { z with destVa := 2 ^ 56 }].all (fun p => !p.wf) = true := by decide +kernel

theorem test_wf_traceParams : let z : TraceParams := ⟨0, 0, 0⟩
    z.wf = true ∧ [{ z with op := 2 ^ 8 }, { z with marker := 2 ^ 32 }, { z with value := 2 ^ 64 }].all (fun p => !p.wf) = true := by decide +kernel

theorem test_wf_tileRetireParams : let z : TileRetireParams := ⟨0⟩
    z.wf = true ∧ [{ z with tile := 2 ^ 8 }].all (fun p => !p.wf) = true := by decide +kernel

theorem test_wf_remountParams : let z : RemountParams := ⟨0, 0⟩
    z.wf = true ∧ [{ z with role := 2 ^ 8 }, { z with rank := 2 ^ 14 }].all (fun p => !p.wf) = true := by decide +kernel

theorem test_wf_sendParams : let z : SendParams := ⟨0, 0, 0, 0, 0⟩
        z.wf = true ∧ [{ z with dest := 2 ^ 14 }, { z with queue := 2 ^ 8 }, { z with hint := 2 ^ 2 }, { z with srcVa := 2 ^ 56 }, { z with
      bytes := 2 ^ 32 }].all (fun p => !p.wf) = true := by decide +kernel

theorem test_wf_recvParams : let z : RecvParams := ⟨0, 0, 0, 0, 0⟩
        z.wf = true ∧ [{ z with src := 2 ^ 16 }, { z with queue := 2 ^ 8 }, { z with hint := 2 ^ 2 }, { z with bufVa := 2 ^ 56 }, { z with
      bufBytes := 2 ^ 32 }].all (fun p => !p.wf) = true := by decide +kernel

theorem test_wf_routeParams : let z : RouteParams := ⟨0, 0, 0⟩
    z.wf = true ∧ [{ z with first := 2 ^ 16 }, { z with count := 2 ^ 32 }, { z with srcVa := 2 ^ 56 }].all (fun p => !p.wf) = true := by decide +kernel

theorem test_wf_linkParams : let z : LinkParams := ⟨0, 0⟩
    z.wf = true ∧ [{ z with engine := 2 ^ 8 }, { z with op := 2 ^ 8 }].all (fun p => !p.wf) = true := by decide +kernel

theorem test_wf_filterParams : let z : FilterParams := ⟨0, 0, 0, 0, 0⟩
        z.wf = true ∧ [{ z with mac := 2 ^ 8 }, { z with table := 2 ^ 8 }, { z with first := 2 ^ 16 }, { z with count := 2 ^ 16 }, { z with
      srcVa := 2 ^ 56 }].all (fun p => !p.wf) = true := by decide +kernel

theorem test_wf_statsParams : let z : StatsParams := ⟨0, 0⟩
    z.wf = true ∧ [{ z with mac := 2 ^ 8 }, { z with destVa := 2 ^ 56 }].all (fun p => !p.wf) = true := by decide +kernel

theorem test_wf_vkernArgs : VkernParams.wf ⟨0, 0, 0, 0, 0, false, false, 0, 0, 0, 0, 0, [0]⟩ = false ∧
    VkernParams.wf ⟨0, 0, 0, 0, 1, false, false, 0, 0, 0, 0, 0, [2 ^ 64]⟩ = false := by decide

/-- Register accesses of another size, unaligned or outside BAR0; a staging write past the window; Vat accesses of no byte or
across a line. -/
theorem test_wf_operands : Instr.wf (.registerWrite 0 2 0) = false ∧ Instr.wf (.registerWrite 4 8 0) = false ∧
    Instr.wf (.registerWrite 0x4000000 4 0) = false ∧ Instr.wf (.registerWrite 0x3FFFFFC 4 0) = true ∧
    Instr.wf (.stagingWrite 0x2000000 [0]) = false ∧ Instr.wf (.stagingWrite 0x1FFFFFF [0]) = true ∧
    Instr.wf (.vatAccess ⟨0, 0, none, 0, 0, 0, 0, none, false, .none⟩) = false ∧ Instr.wf (.vatAccess ⟨1, 128, none, 0, 0, 0, 0, none, false, .none⟩) = false ∧
    Instr.wf (.vatAccess ⟨0, 1, none, 4, 0, 0, 0, none, false, .none⟩) = false ∧ Instr.wf (.vatAtomic ⟨0, 0, 8, [], [], 0, 0, 0, 0, none⟩) = false ∧
    Instr.wf (.vatAtomic ⟨124, 0, 8, List.replicate 8 0, [], 0, 0, 0, 0, none⟩) = false := by decide +kernel

/-! ### Witnesses: the vector engine -/

/-- A kernel with windows over the whole tile store. -/
def kernP : VkernParams := ⟨0, 0, 0, 0, 1, false, false, 1, 0, 0, 0xFFFFF, 0, [7]⟩

/-- Tile 0 runs a kernel whose next word is `op` with fields `f`. -/
def kernelOn (p : VkernParams) (op : BitVec 8) (f : VxFields) : State :=
  stateOf { (bench.onTile 0 (fun t => { t with vx := { t.vx with cmd := some 1, imem := Sparse.set (always 0) [] 0 (vxEncode op f) } })) with
    cmds := [{ cmdOf 0x0104 (.vkern p) with phase := .running }] }

/-- Fields of zeros but for the format and IMM. -/
def flds (fmt : BitVec 4) (imm : BitVec 24) : VxFields := ⟨0, 0, 0, 0, fmt, 0, 0, 0, imm⟩

def vxRunsB (b : Block) (n : Nat) (op : BitVec 8) (f : VxFields) (stall : Nat) (c : Cmd) (p : VkernParams) : Bool :=
  decide (b.kernel n = some (c, p)) && decide (Sparse.get (always 0) (b.tile n).vx.imem (b.tile n).vx.pc = vxEncode op f) &&
    (vxForm op f).legal f && !pastMax p (b.vxIssue n op f stall).1

theorem vxRuns_of {b : Block} {n : Nat} {op : BitVec 8} {f : VxFields} {stall : Nat} {c : Cmd} {p : VkernParams}
    (h : vxRunsB b n op f stall c p = true) : b.VxRuns n op f stall c p := by
  simp only [vxRunsB, Bool.and_eq_true, decide_eq_true_eq, Bool.not_eq_true'] at h
  exact ⟨h.1.1.1, h.1.1.2, h.1.2, h.2⟩

/-- An instruction meets the conditions of its completion. -/
def VxWitness (op : BitVec 8) (f : VxFields) : Prop := ∃ (s : State) (c : Cmd), s.live ∧ s.blk.VxRuns (0 : Fin 64) op f 0 c kernP

theorem vxWitness_of {op : BitVec 8} {f : VxFields}
    (h : (!(kernelOn kernP op f).blk.boot.stopped && vxRunsB (kernelOn kernP op f).blk 0 op f 0 { cmdOf 0x0104 (.vkern kernP) with phase := .running } kernP) = true) :
    VxWitness op f := by
  simp only [Bool.and_eq_true, Bool.not_eq_true'] at h
  exact ⟨_, _, h.1, vxRuns_of h.2⟩

theorem witnesses_of {l : List (BitVec 8 × BitVec 4 × BitVec 24)}
    (h : (l.all fun x => !(kernelOn kernP x.1 (flds x.2.1 x.2.2)).blk.boot.stopped &&
      vxRunsB (kernelOn kernP x.1 (flds x.2.1 x.2.2)).blk 0 x.1 (flds x.2.1 x.2.2) 0 { cmdOf 0x0104 (.vkern kernP) with phase := .running } kernP) = true) :
    ∀ x ∈ l, VxWitness x.1 (flds x.2.1 x.2.2) := fun x hx => vxWitness_of (List.all_eq_true.1 h x hx)

/-- Every control and scalar instruction can be the next of a running kernel (VxScalarResults). -/
theorem witness_VxScalarResults : ∀ x ∈ ([0x00, 0x02, 0x03, 0x04, 0x05, 0x06, 0x07, 0x08, 0x10, 0x11, 0x12, 0x13, 0x14, 0x15, 0x16, 0x17,
    0x18, 0x19, 0x1A] : List (BitVec 8)).map (fun op => (op, (0 : BitVec 4), (0 : BitVec 24))), VxWitness x.1 (flds x.2.1 x.2.2) :=
  witnesses_of (by decide +kernel)

/-- Every lane instruction likewise (VxLaneResults); in INT32, but for VCMPUN and VCLASS, which are floating. -/
theorem witness_VxLaneResults : ∀ x ∈ ([(0x40, 7, 0), (0x41, 7, 0), (0x42, 7, 0), (0x43, 0, 0), (0x44, 0, 0), (0x45, 7, 0), (0x46, 7, 0),
    (0x47, 7, 0), (0x48, 7, 0), (0x49, 7, 0), (0x4A, 8, 0), (0x4B, 6, 0), (0x4C, 7, 0), (0x4D, 7, 0), (0x4E, 8, 0), (0x4F, 0, 0),
    (0x50, 1, 0), (0x51, 2, 0), (0x52, 0, 0), (0x53, 7, 0), (0x54, 7, 0), (0x55, 7, 0), (0x56, 0, 0)] :
    List (BitVec 8 × BitVec 4 × BitVec 24)), VxWitness x.1 (flds x.2.1 x.2.2) := witnesses_of (by decide +kernel)

/-- The reductions, shuffles and transcendental functions likewise (VxWholeResults). -/
theorem witness_VxWholeResults : ∀ x ∈ ([(0x60, 0, 0), (0x61, 7, 0), (0x62, 0, 0), (0x68, 0, 0), (0x69, 0, 511), (0x6A, 0, 0), (0x6B, 3, 0),
    (0x6C, 7, 0), (0x6D, 8, 0), (0x6E, 0, 511), (0x70, 0, 0), (0x71, 0, 0), (0x72, 0, 0), (0x73, 0, 0), (0x74, 0, 0), (0x75, 0, 0)] :
    List (BitVec 8 × BitVec 4 × BitVec 24)), VxWitness x.1 (flds x.2.1 x.2.2) := witnesses_of (by decide +kernel)

def kernCmd : Cmd := { cmdOf 0x0104 (.vkern kernP) with phase := .running }

/-- The loads and stores run inside the window, and the statements about stores have a store to speak of: at its addresses, which do
not overlap (VxMemoryResults, VxStoreBytes). -/
theorem witness_VxMemoryResults :
    (∀ op ∈ ([0x30, 0x31, 0x32, 0x33, 0x34, 0x35, 0x36, 0x37] : List (BitVec 8)), VxWitness op (flds 0 0)) ∧
    (∀ x ∈ [((0x30 : BitVec 8), false, fun y : Vx => y.seqAddrs (flds 0 0)), (0x31, true, fun y => y.seqAddrs (flds 0 0)),
        (0x32, false, fun y => y.strideAddrs (flds 0 0)), (0x33, true, fun y => y.strideAddrs (flds 0 0)),
        (0x34, false, fun y => y.indexAddrs (flds 0 0)), (0x35, true, fun y => y.indexAddrs (flds 0 0))],
      vxFirstBad kernP 0 4 x.2.1 (x.2.2 ((kernelOn kernP x.1 (flds 0 0)).blk.vxFetched 0 x.1 (flds 0 0) 0)) = none) ∧
    vxParity [0] 8 none = none ∧ vxParity [0] 8 (some 8) = none ∧ vxMay kernP 0 8 false = true ∧ vxMay kernP 0 8 true = true ∧
    vxBad kernP 0 0 8 true = none := by
  refine ⟨fun op h => ?_, ?_, ?_⟩
  · have := witnesses_of (l := ([0x30, 0x31, 0x32, 0x33, 0x34, 0x35, 0x36, 0x37] : List (BitVec 8)).map (fun op => (op, (0 : BitVec 4), (0 : BitVec 24))))
      (by decide +kernel) (op, 0, 0) (List.mem_map_of_mem h)
    exact this
  · simp only [List.mem_cons, List.not_mem_nil, or_false, forall_eq_or_imp, forall_eq]
    decide +kernel
  · decide +kernel

/-- The conversions run with legal codes (VxConvertResults). -/
theorem witness_VxConvertResults : (∀ x ∈ ([(0x63, 0, 0), (0x64, 0, 0), (0x80, 1, 0), (0x81, 3, 0), (0x82, 3, 0), (0x83, 0, 3)] :
      List (BitVec 8 × BitVec 4 × BitVec 24)), VxWitness x.1 (flds x.2.1 x.2.2)) ∧
    (flds 0 0).groupOk = true ∧ cvtOk (flds 1 0) = true ∧ inF32 (flds 3 0).src = true ∧ (flds 3 0).groupOk = true ∧
    ((flds 3 0).part + 1) * (cvtCount (flds 3 0).src (flds 3 0).fm / (flds 3 0).group) ≤ 512 ∧
    (cvtBits (flds 3 0).fm ≤ cvtBits (flds 3 0).src ∨ (flds 3 0).part < cvtSegs (flds 3 0).src (flds 3 0).fm) ∧
    cvtOk (flds 3 0) = true ∧ cvtOk (flds 0 3) = true ∧ inF32 (flds 0 3).src = true ∧ (flds 0 3).groupOk = true :=
  ⟨witnesses_of (by decide +kernel), by decide +kernel⟩

/-- A kernel starts, halts, meets MAX_CYCLES, is detected in, and shares its lanes (VxKernelResults, KernelStart). -/
theorem witness_VxKernelResults :
    (∃ s c, State.live s ∧ s.blk.TileStarts 1 (.vkern kernP) c ∧ okB (codeLoad c kernP (s.blk.entered 1 c)).1 = true ∧ kernP.resetBusy = false) ∧
    (VxWitness 0x01 (flds 0 5) ∧ (kernelOn kernP 0x01 (flds 0 5)).blk.haltLate 0 = false) ∧
    (let p : VkernParams := { kernP with maxCycles := 1 }
     let b := ((kernelOn p 0x00 (flds 0 0)).blk.onTile 0 (fun t => { t with vx := { t.vx with cyc := 1 } }))
     let x := (b.tile 0).vx
     let w := Sparse.get (always 0) x.imem x.pc
     b.boot.stopped = false ∧ (b.kernel 0).isSome = true ∧ (vxForm (vxOpcode w) (vxDecode w)).legal (vxDecode w) = true ∧
      pastMax p (b.vxIssue 0 (vxOpcode w) (vxDecode w) 0).1 = true) ∧
    (let b := (kernelOn kernP 0 (flds 0 0)).blk
     b.kernel 0 = some (kernCmd, kernP) ∧ replayable kernP = true ∧ (b.tile 0).vx.replayed = false) ∧
    (let b := (kernelOn kernP 0 (flds 0 0)).blk.rset .TILE_VX_CFG_SVC_EN 0 1
     b.faulted = false ∧ b.tileWorks 0 = true ∧ b.flag .TILE_VX_CFG_SVC_EN 0 = true ∧ (b.tile 0).vx.cmd.isSome = true) := by
  refine ⟨⟨armed bench 0x0104 (.vkern kernP), cmdOf 0x0104 (.vkern kernP), ?_, ⟨armed_starts ?_, ?_, ?_⟩, ?_, ?_⟩, ⟨vxWitness_of ?_, ?_⟩, ?_, ?_, ?_⟩
  · show _ = _; decide +kernel
  all_goals decide +kernel

/-! ### Witnesses: tiles -/

/-- A command of tile 0 on a block starts. -/
theorem tileStarts_of {b : Block} {op : Nat} {p : Params}
    (h : (b.mayStart && (armed b op p).blk.tileReady (cmdOf op p) && decide ((((armed b op p).blk.launched 1).plan (cmdOf op p)).bad = none)) = true) :
    (armed b op p).blk.TileStarts 1 p (cmdOf op p) := by
  simp only [Bool.and_eq_true, decide_eq_true_eq] at h
  exact ⟨armed_starts h.1.1, h.1.2, h.2⟩

/-- A state in which a command of tile 0 starts, and what else holds there. -/
def TileWit (b : Block) (op : Nat) (p : Params) (q : State → Cmd → Prop) : Prop :=
  (armed b op p).live ∧ (armed b op p).blk.TileStarts 1 p (cmdOf op p) ∧ q (armed b op p) (cmdOf op p)

theorem tileWit_of {b : Block} {op : Nat} {p : Params} {q : State → Cmd → Prop}
    (h : (!b.boot.stopped && b.mayStart && (armed b op p).blk.tileReady (cmdOf op p) &&
      decide ((((armed b op p).blk.launched 1).plan (cmdOf op p)).bad = none)) = true) (hq : q (armed b op p) (cmdOf op p)) :
    TileWit b op p q := by
  simp only [Bool.and_eq_true, Bool.not_eq_true'] at h
  exact ⟨h.1.1.1, tileStarts_of (by simp [h]), hq⟩

def copyP : CopyParams := ⟨0, 0, 16, 1, 16, 0, 0, 0⟩
def matP : MatmulParams := ⟨0, 0x1000, 0, 0, 1, 1, 16, 3, 3, 0, 0, 0, 0, 0, false, false, 16, 16⟩
def openG : Group := { Group.none with isOpen := true, rows := 1 }

/-- Tile 0 with group 0 open. -/
def benchOpen : Block := bench.onTile 0 (fun t => { t with groups := [(0, openG)] })

theorem witness_CopyResults :
    TileWit bench 0x0101 (.load copyP) (fun s c =>
      okB (loadParts (c.port copyP.hint copyP.useCount) c.tile copyP.parts (s.blk.entered 1 c)).1 = true) ∧
    TileWit bench 0x0102 (.store copyP) (fun s c => ∃ b,
      storeParts (c.port copyP.hint copyP.useCount) c.tile (parityHit ((s.blk.entered 1 c).plan c).spans none) copyP.parts (s.blk.entered 1 c) =
        (.ok none, b)) := by
  refine ⟨tileWit_of (by decide +kernel) (by decide +kernel), tileWit_of (by decide +kernel) ?_⟩
  exact ok_val (by decide +kernel)

theorem witness_GroupResults :
    TileWit benchOpen 0x0103 (.matmul matP) (fun s c =>
      let b := s.blk.entered 1 c
      let m := b.accMode c.tile
      let g := b.group c.tile (matP.key m)
      g.isOpen = true ∧ g.failed = none ∧ g.matmuls.length < 256 ∧ g.isInt = (matP.isInt && !matP.scaled) ∧
      (if m.legacy then 0 else matP.rowOff) + ceilDiv matP.n 64 * matP.m ≤ g.rows ∧ parityHit (b.plan c).spans none = none) ∧
    TileWit bench 0x0105 (.accOpen ⟨0, 0, 0, 0, 1024, 0⟩) (fun s c =>
      let b := s.blk.entered 1 c
      let m := b.accMode c.tile
      b.openClash c.tile (AccOpenParams.key ⟨0, 0, 0, 0, 1024, 0⟩ m) (b.newGroup c.tile ⟨0, 0, 0, 0, 1024, 0⟩ m).base
        (b.newGroup c.tile ⟨0, 0, 0, 0, 1024, 0⟩ m).rows = false ∧ parityHit (b.plan c).spans none = none) ∧
    (∀ d : Bool, TileWit benchOpen 0x0106 (.accClose ⟨0, d, false, 0, 0, 256⟩) (fun s c =>
      let b := s.blk.entered 1 c
      let g := b.group c.tile (AccCloseParams.key ⟨0, d, false, 0, 0, 256⟩ (b.accMode c.tile))
      g.isOpen = true ∧ g.failed = none ∧ tsAddr 0 + (g.rows - 1) * 256 + 64 * g.entry - 1 ≤ tsLast)) ∧
    (let p : AccCloseParams := ⟨0, false, false, 0, 0, 256⟩
     let c := { cmdOf 0x0106 (.accClose p) with phase := .running }
     let b := { bench.onTile 0 (fun t => { t with groups := [(0, { openG with closing := some 1 })] }) with cmds := [c] }
     b.boot.stopped = false ∧ b.findCmd 1 = some c ∧ (b.group 0 (p.key (b.accMode 0))).closing = some 1 ∧ b.replayReady c = true) := by
  refine ⟨tileWit_of ?_ ?_, tileWit_of ?_ ?_, fun d => by cases d <;> exact tileWit_of (by decide +kernel) (by decide +kernel), ?_⟩
  all_goals decide +kernel

theorem witness_OrderResults :
    TileWit bench 0x0107 (.fence ⟨0⟩) (fun s c => (s.blk.entered 1 c).fenceClear c 0 = true) ∧
    TileWit bench 0x0108 (.signal ⟨0, 0, 15⟩) (fun s c => (s.blk.entered 1 c).tileWorks 0 = true ∧ (s.blk.entered 1 c).rget .TILE_CFG_CTX 0 = c.ctx) ∧
    TileWit bench 0x0108 (.signal ⟨1, 15, 31⟩) (fun _ _ => True) ∧
    TileWit bench 0x0109 (.wait ⟨15, 0, 1⟩) (fun s c => reached 32 0 ((s.blk.entered 1 c).flagVal c.tile 15) = true) ∧
    (let c := { cmdOf 0x0109 (.wait ⟨0, 1, 1⟩) with phase := .running }
     let b := { bench with cmds := [c] }
     b.boot.stopped = false ∧ b.findCmd 1 = some c ∧ reached 32 1 (b.flagVal 0 0) = false) := by
  refine ⟨tileWit_of ?_ ?_, tileWit_of ?_ ?_, tileWit_of ?_ trivial, tileWit_of ?_ ?_, ?_⟩
  all_goals decide +kernel

theorem witness_MbxAccessResults : ∀ op ∈ List.range 6, TileWit bench 0x010A (.mbxAccess ⟨op, 15, 1, 0x3FFFF8⟩) (fun _ _ => True) := by
  intro op h
  refine tileWit_of ?_ trivial
  have h2 : (List.range 6).all (fun op => !bench.boot.stopped && bench.mayStart &&
    (armed bench 0x010A (.mbxAccess ⟨op, 15, 1, 0x3FFFF8⟩)).blk.tileReady (cmdOf 0x010A (.mbxAccess ⟨op, 15, 1, 0x3FFFF8⟩)) &&
    decide ((((armed bench 0x010A (.mbxAccess ⟨op, 15, 1, 0x3FFFF8⟩)).blk.launched 1).plan (cmdOf 0x010A (.mbxAccess ⟨op, 15, 1, 0x3FFFF8⟩))).bad = none)) = true := by
    decide +kernel
  exact List.all_eq_true.1 h2 op h

/-! ### Witnesses: the Beater -/

/-- A local table of 16 rows of 4 FP32 elements at page 0, and one that is sharded over group 0. -/
def tabP : TableParams := ⟨0, 0, 0, 4, 1, false, false, false, 16, 0x4000, 16, 0, 0, 0, 0⟩
def tabS : TableParams := { tabP with table := 1, shard := 1 }

/-- Group 0 of ranks 0 and 1 with this module as its first member, alone in group 1; tables 0 and 1; in host memory at 0x1000 a list entry of
one bag of table 0, at 0x1100 one of table 1. -/
def benchBeat : Block :=
  setAll [(.BEATER_CFG_MAX_INFLIGHT, 0, 4)]
    { bench with
      relay := { bench.relay with groups := [(0, some ⟨0, 0, 0, [0, 1], 0⟩), (1, some ⟨1, 0, 0, [0], 0⟩)] }
      beater := { bench.beater with tables := [(0, some tabP), (1, some tabS)] }
      host := [(0x1004, 1), (0x1028, 16), (0x1100, 1), (0x1104, 1), (0x1128, 16)] }

theorem readVa_none (q : Req) (va : Nat) (b : Block) : readVa q va 0 b = (.ok [], b) := rfl

/-- A list of one entry, whose one bag is empty, reads. -/
theorem readList_one {b0 : Block} (h : HostOk b0) {c : Cmd} (hc : c.ctx = 0) {va t : Nat} {e : List Byte} {d : TableParams} (hl : va % 128 + 64 ≤ 128)
    (hv : va < 2097152) (he : b0.host.readBytes va 64 = e) (h1 : field e 0 2 % 4096 = t) (ht : b0.table? 0 t = some d)
    (hn : field e 4 4 = 1) (hs : field e 40 4 % 4 = 0 ∧ d.width * 4 ≤ field e 40 4) (hf : field e 2 1 = 0) (hva : fva e 16 = 0)
    (hz : b0.host.readBytes 0 8 = [0, 0, 0, 0, 0, 0, 0, 0]) :
    ∃ l b', readList c va 1 b0 = (.ok l, b') ∧ l.map (fun e => e.table) = [t] ∧ Kin b0 b' := by
  have hq : ∀ h u, (c.req h u).who.ctx = 0 := fun _ _ => hc
  obtain ⟨b1, e1, k1, h1'⟩ := readVa_line h (hq 0 0) (n := 64) (by decide) hl hv
  rw [he] at e1
  obtain ⟨b2, e2, k2, h2⟩ := readVa_line (h.kin k1) (hq 0 0) (va := 0) (n := 8) (by decide) (by decide) (by decide)
  rw [h1', hz] at e2
  have hbt : b1.beater = b0.beater := by
    have := k1.only.rest
    unfold Block.onlySignals at this
    exact (congrArg Block.beater this).trans rfl
  have ht1 : b1.table? c.ctx t = some d := by
    unfold Block.table? at ht ⊢
    rw [hbt, hc]; exact ht
  have nb : ∀ n, bitAt 0 n = false := fun n => by simp [bitAt]
  have hr : ∃ x, readEntry c e keyLimit b1 = (.ok x, b2) ∧ x.table = t := by
    unfold readEntry
    rw [Act.bind_ok (Act.get_run b1), h1, ht1]
    dsimp only
    rw [Act.bind_ok (Act.pure_run d b1), hn, hf, hva, nb]
    rw [if_neg (by simp; omega)]
    rw [Act.bind_ok e2]
    have ho : List.map (fun i => field [0, 0, 0, 0, 0, 0, 0, 0] (4 * i) 4) (List.range (1 + 1)) = [0, 0] := by decide
    rw [ho, if_neg (by decide), if_neg (by decide)]
    have h0 : ∀ k x : Nat, k * (([0, 0] : List Nat).getD 1 0 - ([0, 0] : List Nat).getD 0 0) = 0 := fun k _ => Nat.mul_zero k
    rw [h0 _ 0, Act.bind_ok (readVa_none _ _ _), nb, if_neg (by decide)]
    exact ⟨_, rfl, rfl⟩
  obtain ⟨x, hx, hxt⟩ := hr
  refine ⟨[x], b2, ?_, by simp [hxt], k1.trans k2⟩
  unfold readList
  rw [Act.bind_ok e1]
  have hd : (List.drop (64 * 0) e).take 64 = e := by
    rw [← he]; simp [Memory.readBytes]
  have e3 : (List.range 1).foldlM (fun (a : List LookEntry × Nat) i => do
      let y ← readEntry c ((e.drop (64 * i)).take 64) a.2
      pure (a.1 ++ [y], a.2 - (y.bags.map List.length).foldl (· + ·) 0) : _ → _ → Act (List LookEntry × Nat)) ([], keyLimit) b1 =
      (.ok ([x], keyLimit - (x.bags.map List.length).foldl (· + ·) 0), b2) := by
    rw [show List.range 1 = [0] from rfl, List.foldlM_cons, Act.bind_run, Act.bind_run, hd, hx]
    rfl
  rw [Act.bind_ok e3]
  rfl

/-- A state in which a command of an engine starts, and what else holds there. -/
def EngWit (b : Block) (op : Nat) (p : Params) (q : State → Cmd → Prop) : Prop :=
  (armed b op p).live ∧ (armed b op p).blk.Starts 1 p (cmdOf op p) ∧ q (armed b op p) (cmdOf op p)

theorem engWit_of {b : Block} {op : Nat} {p : Params} {q : State → Cmd → Prop} (h : (!b.boot.stopped && b.mayStart) = true)
    (hq : q (armed b op p) (cmdOf op p)) : EngWit b op p q := by
  simp only [Bool.and_eq_true, Bool.not_eq_true'] at h
  exact ⟨h.1, armed_starts h.2, hq⟩

def collEntersB (b : Block) (c : Cmd) (g e k : Nat) (gs : GroupSt) : Bool :=
  decide (b.groupErr c.ctx g = none) && decide (b.group? g = some gs) && decide (epochState e gs.epoch = 0) && !b.cancelled (tagOf g e k) &&
    decide (b.coll (tagOf g e k) = none) && b.collRoom c.ctx && !b.roomHeld c.ctx c.id

theorem collEnters_of {b : Block} {c : Cmd} {g e k : Nat} {gs : GroupSt} (h : collEntersB b c g e k gs = true) : b.CollEnters c g e k gs := by
  simp only [collEntersB, Bool.and_eq_true, decide_eq_true_eq, Bool.not_eq_true'] at h
  exact ⟨⟨h.1.1.1.1.1.1, h.1.1.1.1.1.2, .inr h.1.1.1.1.2, h.1.1.1.2⟩, h.1.1.2, h.1.2, .inr h.2⟩

/-- Accesses of the host page leave what a collective's entry asks. -/
theorem Kin.collEntersB {b0 b : Block} (k : Kin b0 b) (c : Cmd) (g e n : Nat) (gs : GroupSt) :
    collEntersB b c g e n gs = Sys2Proof.Machine.collEntersB b0 c g e n gs := by
  have h := k.only.rest
  unfold Block.onlySignals at h
  have h1 : b.relay = b0.relay := (congrArg Block.relay h).trans rfl
  have h2 : b.cmds = b0.cmds := (congrArg Block.cmds h).trans rfl
  unfold Sys2Proof.Machine.collEntersB Block.groupErr Block.group? Block.groupSlot Block.cancelled Block.coll Block.collRoom Block.roomHeld
  rw [h1, h2]

theorem Kin.table {b0 b : Block} (k : Kin b0 b) (ctx n : Nat) : b.table? ctx n = b0.table? ctx n := by
  have h := k.only.rest
  unfold Block.onlySignals at h
  unfold Block.table?
  rw [(congrArg Block.beater h).trans rfl]

def gs0 : GroupSt := ⟨0, 0, 0, [0, 1], 0⟩

def lookP (va : Nat) : LookupParams := ⟨va, 1, false, false, false, 0, 0, 0, 0, 0, 65536, 0⟩
def sortP : SortParams := ⟨0x1000, 1, 0, false, false, false, 0, 0, 0, 0, 0, 0⟩
def scatP : ScatterParams := ⟨0x2000, 0, 65536, false, false, 0, 0⟩

theorem HostOk.launched {b : Block} (h : HostOk b) (op : Nat) (p : Params) : HostOk ((armed b op p).blk.launched 1) :=
  ⟨h.leaves, h.late, h.cut⟩

theorem benchBeat_ok : HostOk benchBeat := ⟨by decide +kernel, by decide +kernel, by decide +kernel⟩

theorem launched_host (b : Block) (op : Nat) (p : Params) (a n : Nat) :
    ((armed b op p).blk.launched 1).host.readBytes a n = b.host.readBytes a n := rfl
theorem launched_table (b : Block) (op : Nat) (p : Params) (n : Nat) : ((armed b op p).blk.launched 1).table? 0 n = b.table? 0 n := rfl

/-- A gradient list of no records reads. -/
theorem grads_none {b0 : Block} (h : HostOk b0) {c : Cmd} (hc : c.ctx = 0) {va : Nat} (hl : va % 128 + 16 ≤ 128) (hv : va < 2097152)
    (hz : b0.host.readBytes va 16 = List.replicate 16 0) : ∃ b', readGradList c va b0 = (.ok [], b') ∧ Kin b0 b' := by
  obtain ⟨b1, e1, k1, _⟩ := readVa_line h (q := c.req 0 0) hc (n := 16) (by decide) hl hv
  rw [hz] at e1
  refine ⟨b1, ?_, k1⟩
  unfold readGradList
  rw [Act.bind_ok e1]
  rfl

theorem look_reads (op : Nat) (p : Params) (t : Nat) (ht : t = 0 ∨ t = 1) : ∃ l b, readList (cmdOf op p) (0x1000 + 0x100 * t) 1
    ((armed benchBeat op p).blk.launched 1) = (.ok l, b) ∧ l.map (fun e => e.table) = [t] ∧ Kin ((armed benchBeat op p).blk.launched 1) b := by
  rcases ht with rfl | rfl
  · exact readList_one (benchBeat_ok.launched op p) rfl (d := tabP) (by decide) (by decide) (launched_host ..) (by decide +kernel)
      ((launched_table ..).trans (by decide +kernel)) (by decide +kernel) (by decide +kernel) (by decide +kernel) (by decide +kernel)
      ((launched_host ..).trans (by decide +kernel))
  · exact readList_one (benchBeat_ok.launched op p) rfl (d := tabS) (by decide) (by decide) (launched_host ..) (by decide +kernel)
      ((launched_table ..).trans (by decide +kernel)) (by decide +kernel) (by decide +kernel) (by decide +kernel) (by decide +kernel)
      ((launched_host ..).trans (by decide +kernel))

/-- Which sharded tables a list of one entry names. -/
theorem sharded_one {b0 b : Block} (k : Kin b0 b) {c : Cmd} {l : List LookEntry} {t : Nat} (hl : l.map (fun e => e.table) = [t]) :
    l.filterMap (fun e => (b.table? c.ctx e.table).bind (fun d => if d.shard = 0 then none else some d)) =
      ((b0.table? c.ctx t).bind (fun d => if d.shard = 0 then none else some d)).toList := by
  cases l with
  | nil => cases hl
  | cons e l =>
    cases l with
    | cons e' l => cases hl
    | nil =>
      simp only [List.map_cons, List.map_nil, List.cons.injEq, and_true] at hl
      simp only [List.filterMap_cons, List.filterMap_nil, k.table, hl]
      split
      · next h => rw [h]; rfl
      · next h => rw [h]; rfl

theorem witness_BeaterLocalResults :
    EngWit benchBeat 0x0208 (.tableDefine { tabP with undefine := true }) (fun s c => Block.beaterTurn c s.blk = true ∧
      (s.blk.launched 1).sbWhere (fun e => e.valid && decide (e.ctx = c.ctx) && decide (e.table = 0) && e.inGroup) = [] ∧
      ((s.blk.launched 1).table? c.ctx 0).isSome = true) ∧
    EngWit benchBeat 0x0208 (.tableDefine { tabP with table := 4095 }) (fun s c => Block.beaterTurn c s.blk = true ∧
      (s.blk.launched 1).sbWhere (fun e => e.valid && decide (e.ctx = c.ctx) && decide (e.table = 4095) && e.inGroup) = [] ∧
      TableParams.bad { tabP with table := 4095 } = false ∧ (s.blk.launched 1).tableGroup { tabP with table := 4095 } = some (1, 0) ∧
      TableParams.ownRows { tabP with table := 4095 } 1 0 ≤ tabP.localRows ∧
      (s.blk.launched 1).mappedFor c.ctx tabP.baseVa (tabP.localRows * tabP.recBytes) = true) ∧
    EngWit benchBeat 0x0201 (.lookupPool (lookP 0x1000)) (fun s c => s.blk.isHeld c.id = false ∧ Block.beaterTurn c s.blk = true ∧
      ∃ l b, readList c 0x1000 1 (s.blk.launched 1) = (.ok l, b) ∧
        l.filterMap (fun e => (b.table? c.ctx e.table).bind (fun d => if d.shard = 0 then none else some d)) = []) ∧
    EngWit benchBeat 0x0202 (.sortDedup sortP) (fun s c => Block.beaterTurn c s.blk = true ∧
      ∃ l b, readList c 0x1000 1 (s.blk.launched 1) = (.ok l, b)) ∧
    EngWit benchBeat 0x0204 (.scatterUpdate scatP) (fun s c => Block.beaterTurn c s.blk = true ∧
      (∃ b, readGradList c scatP.inVa (s.blk.launched 1) = (.ok [], b)) ∧ 16 * ([] : List GradEntry).length + 65536 ≤ scatP.workBytes ∧
      ∀ b, ∃ r b', scatterAct c scatP 0 [] b = (.ok r, b')) := by
  refine ⟨engWit_of ?_ ?_, engWit_of ?_ ?_, engWit_of ?_ ⟨?_, ?_, ?look⟩, engWit_of ?_ ⟨?_, ?sort⟩, engWit_of ?_ ⟨?_, ok_val ?_, ?_, fun b => ⟨_, _, rfl⟩⟩⟩
  case look =>
    obtain ⟨l, b, e, hl, k⟩ := look_reads 0x0201 (.lookupPool (lookP 0x1000)) 0 (.inl rfl)
    exact ⟨l, b, e, by rw [sharded_one k hl]; decide +kernel⟩
  case sort =>
    obtain ⟨l, b, e, _, _⟩ := look_reads 0x0202 (.sortDedup sortP) 0 (.inl rfl)
    exact ⟨l, b, e⟩
  all_goals decide +kernel

def exchP : ExchangeParams := ⟨0x2000, 0, 0, 0, 0, 7, false⟩
def promP : PromoteParams := ⟨0, 0, false, false, false, 7, 1, 1, 0, 0, 0, 0, 0⟩

theorem witness_BeaterCollectiveResults :
    EngWit benchBeat 0x0201 (.lookupPool (lookP 0x1100)) (fun s c => s.blk.isHeld c.id = false ∧ Block.beaterTurn c s.blk = true ∧
      ∃ l b, readList c 0x1100 1 (s.blk.launched 1) = (.ok l, b) ∧
        l.filterMap (fun e => (b.table? c.ctx e.table).bind (fun d => if d.shard = 0 then none else some d)) = [tabS] ∧ tabS.group = 0 ∧
        b.collTurn c = true ∧ b.CollEnters c 0 0 0 gs0) ∧
    EngWit benchBeat 0x0203 (.exchange exchP) (fun s c => beaterCollReady c s.blk = true ∧
      ∃ l b, readGradList c exchP.inVa (s.blk.launched 1) = (.ok l, b) ∧ b.CollEnters c 0 0 7 gs0) ∧
    (∀ d : Bool, EngWit benchBeat 0x0205 (if d then .demote promP else .promote promP) (fun s c => beaterCollReady c s.blk = true ∧
      promP.bad d = false ∧ (s.blk.launched 1).poolOk c.ctx = true ∧ (s.blk.launched 1).CollEnters c 0 0 7 gs0)) ∧
    EngWit benchBeat 0x0207 (.refresh ⟨0, 0, false, false, 7, 0⟩) (fun s c => beaterCollReady c s.blk = true ∧
      (s.blk.launched 1).CollEnters c 0 0 7 gs0) := by
  refine ⟨engWit_of ?_ ⟨?_, ?_, ?look⟩, engWit_of ?_ ⟨?_, ?ex⟩, fun d => ?prom, engWit_of ?_ ⟨?_, collEnters_of ?_⟩⟩
  case look =>
    obtain ⟨l, b, e, hl, k⟩ := look_reads 0x0201 (.lookupPool (lookP 0x1100)) 1 (.inr rfl)
    refine ⟨l, b, e, by rw [sharded_one k hl]; decide +kernel, rfl, ?_, collEnters_of (by rw [k.collEntersB]; decide +kernel)⟩
    have h := k.only.rest
    unfold Block.onlySignals at h
    unfold Block.collTurn
    rw [(congrArg Block.cmds h).trans rfl]
    rfl
  case ex =>
    obtain ⟨b, e, k⟩ := grads_none (benchBeat_ok.launched 0x0203 (.exchange exchP)) (c := cmdOf 0x0203 (.exchange exchP)) rfl (va := 0x2000) (by decide) (by decide)
      ((launched_host ..).trans (by decide +kernel))
    exact ⟨[], b, e, collEnters_of (by rw [k.collEntersB]; decide +kernel)⟩
  case prom =>
    cases d
    · exact engWit_of (by decide +kernel) ⟨by decide +kernel, by decide +kernel, by decide +kernel, collEnters_of (by decide +kernel)⟩
    · exact engWit_of (by decide +kernel) ⟨by decide +kernel, by decide +kernel, by decide +kernel, collEnters_of (by decide +kernel)⟩
  all_goals decide +kernel

/-! ### Witnesses: fills -/

/-- A Stud Book with a filling replica of row 1 of table 1, whose owner is member 1, and an entry of row 0, which this module owns. -/
def bookOf (owner : Bool) (key : Nat) : Block :=
  { benchBeat with beater := { benchBeat.beater with
      book := [(sbSet 0 key * 16, { SbEntry.free with valid := true, table := 1, row := keyRow key, state := sbFilling, owner := owner, slot := 3 })] } }

theorem witness_FillResults :
    (let b := bookOf false (keyOf 1 1)
     b.boot.stopped = false ∧ b.net.silent = false ∧ b.sbFind 0 (keyOf 1 1) = some (sbSet 0 (keyOf 1 1) * 16) ∧ b.group? 0 = some gs0 ∧
      b.table? 0 (b.sb (sbSet 0 (keyOf 1 1) * 16)).table = some tabS ∧ b.rowOwner tabS 1 = some (1, 0, false) ∧
      (b.sb (sbSet 0 (keyOf 1 1) * 16)).state = sbFilling ∧ (b.sb (sbSet 0 (keyOf 1 1) * 16)).filled = false ∧
      okB (writeVa ⟨⟨0x052, 0, none, none⟩, 0, 0, 10⟩ (b.sbSlotVa 0 3) (List.replicate 64 0) b).1 = true) ∧
    (let b := bookOf true (keyOf 1 0)
     b.table? 0 (keyTable (keyOf 1 0)) = some tabS ∧ b.sbFind 0 (keyOf 1 0) = some (sbSet 0 (keyOf 1 0) * 16) ∧
      b.rowOwner tabS (keyRow (keyOf 1 0)) = some (0, 0, true) ∧
      okB (readVa ⟨⟨0x052, 0, none, none⟩, 0, 0, 10⟩ (b.recordVa 0 (keyOf 1 0) false) tabS.recBytes b).1 = true) ∧
    bench.HostWrites 0xD81000 := by
  refine ⟨?_, ?_, ⟨?_, ?_, ?_, ?_⟩⟩
  all_goals decide +kernel

/-! ### Witnesses: the Farrier -/

/-- A shard of 16 FP32 elements of this module at 0x8000, and one of group 0 that member 1 owns. -/
def shardP : ShardParams := ⟨0, 0, 0, 1, 0, 1, true, false, false, 16, 0x8000, 0, 0xFFFF, 0, 0, 0, 0, 0, 0⟩
def shardR : ShardParams := { shardP with shard := 1, isLocal := false, owner := 1 }

def benchFar : Block :=
  setAll [(.FARRIER_CFG_MAX_WAITING, 0, 4), (.FARRIER_CLIP_CFG_ENABLE, 1, 1), (.FARRIER_CLIP_CFG_VALID, 1, 1),
      (.FARRIER_CLIP_STEP, 1, 5), (.FARRIER_CLIP_NORM, 1, 0x3F800000), (.FARRIER_CLIP_CFG_ENABLE, 2, 1), (.FARRIER_CLIP_CFG_THRESH, 1, 0x40000000)]
    { benchBeat with farrier := { benchBeat.farrier with
        shards := [(shardKey 0 0, some ⟨shardP, true, 0, 0⟩), (shardKey 0 1, some ⟨shardR, false, 0, 0⟩)] } }

theorem benchFar_ok : HostOk benchFar := ⟨by decide +kernel, by decide +kernel, by decide +kernel⟩

theorem Kin.farrier {b0 b : Block} (k : Kin b0 b) : b.farrier = b0.farrier := by
  have h := k.only.rest
  unfold Block.onlySignals at h
  exact (congrArg Block.farrier h).trans rfl

def updP (clip slot step : Nat) : UpdateParams := ⟨0x3000, 1, clip, slot, step, 0, 0, false, false, false, 9⟩
def updE : List UpdEntry := updEntries (List.replicate 16 0)
def fetchP (shard version : Nat) (wait : Bool) : FetchParams := ⟨shard, 1, wait, version, 0, 10, 0, 0⟩

theorem runs_revert {b0 : Block} (h : HostOk b0) {c : Cmd} (hc : c.ctx = 0) (s : Shard) (v now : Nat)
    (h1 : s.slotVa v + s.p.slotBytes ≤ 2097152) (h2 : s.slotVa s.next + s.p.slotBytes ≤ 2097152) (h3 : 64 ≤ s.p.slotBytes) :
    Runs b0 (revertCopy c s v now) (fun _ => True) := by
  unfold revertCopy
  dsimp only
  refine (runs_readVa h (q := c.req 0 0) hc (by omega)).bind fun body hb => (runs_readVa h (q := c.req 0 0) hc (by omega)).bind fun hd hh =>
    (runs_writeVa h (q := c.req 0 0) hc (by omega)).bind fun _ _ => (runs_writeVa h (q := c.req 0 0) hc ?_).bind fun _ _ => Runs.pure trivial
  simp only [List.length_append, length_bytesOf, List.length_drop]
  omega

theorem witness_FarrierCommandResults :
    EngWit benchFar 0x0301 (.shardDefine { shardP with undefine := true }) (fun s c => (s.blk.launched 1).shardBusy c 0 = false ∧
      ((s.blk.launched 1).shard? c.ctx 0).isSome = true) ∧
    EngWit benchFar 0x0301 (.shardDefine { shardP with shard := 16383 }) (fun s c => (s.blk.launched 1).shardBusy c 16383 = false ∧
      shardP.bad = false ∧ shardP.badOwned = false ∧
      (s.blk.launched 1).mappedFor c.ctx shardP.baseVa ((shardP.depth + 1) * shardP.slotBytes) = true ∧
      okB (writeVa (c.req 0 0) ((⟨shardP, true, 0, 0⟩ : Shard).slotVa 0) (slotHeader 0 0 (s.blk.launched 1).now 0 0) (s.blk.launched 1)).1 = true) ∧
    EngWit benchFar 0x0301 (.shardDefine { shardR with shard := 2 }) (fun s c => (s.blk.launched 1).shardBusy c 2 = false ∧
      shardR.bad = false ∧ (s.blk.launched 1).groupErr c.ctx 0 = none ∧ (s.blk.launched 1).group? 0 = some gs0 ∧ shardR.owner < gs0.ranks.length ∧
      gs0.self ≠ shardR.owner) ∧
    EngWit benchFar 0x0302 (.update (updP 0 0 0)) (fun s c => s.blk.farrier.held.length < s.blk.rget .FARRIER_CFG_MAX_WAITING ∧
      ∃ bs b, readVa (c.req 0 0) 0x3000 16 (s.blk.launched 1) = (.ok bs, b) ∧ b.listErr c.ctx true (updEntries bs) = none ∧
        b.updFenced (updP 0 0 0) = false) ∧
    EngWit benchFar 0x0304 (.revert ⟨0, 0⟩) (fun s c => Block.revertReady ⟨0, 0⟩ c s.blk = true ∧
      (s.blk.launched 1).shard? c.ctx 0 = some ⟨shardP, true, 0, 0⟩ ∧
      ∃ step b, revertCopy c ⟨shardP, true, 0, 0⟩ 0 (s.blk.launched 1).now (s.blk.launched 1) = (.ok step, b)) ∧
    (∀ x ∈ [(1, false, 0, true), (0, true, 0, true), (0, true, 7, false)],
      EngWit benchFar 0x0303 (.fetch (fetchP x.1 x.2.2.1 true)) (fun s c => Block.fetchReady (fetchP x.1 x.2.2.1 true) c s.blk = true ∧
        ∃ sh, (s.blk.launched 1).shard? c.ctx x.1 = some sh ∧ sh.badParts 1 = false ∧ sh.owned = x.2.1 ∧
          (x.2.1 = true → (s.blk.launched 1).retained c.ctx x.1 sh (sh.named x.2.2.1) = x.2.2.2) ∧
          (x.2.2.2 = false → precedes 32 sh.version (sh.named x.2.2.1) = true))) ∧
    EngWit benchFar 0x0305 (.normReduce (updP 1 1 5)) (fun s c => collReady c s.blk = true ∧
      (s.blk.launched 1).flag .FARRIER_CLIP_CFG_ENABLE 1 = true ∧ (s.blk.launched 1).rget .FARRIER_CLIP_CFG_CTX 1 = c.ctx ∧
      (s.blk.launched 1).CollEnters c 0 0 9 gs0) := by
  refine ⟨engWit_of ?_ ?_, engWit_of ?_ ?_, engWit_of ?_ ?_, engWit_of ?_ ⟨?_, ?upd⟩, engWit_of ?_ ⟨?_, ?_, ?rev⟩, ?fet, engWit_of ?_ ⟨?_, ?_, ?_, collEnters_of ?_⟩⟩
  case upd =>
    obtain ⟨b, e, k, _⟩ := readVa_line (benchFar_ok.launched 0x0302 (.update (updP 0 0 0))) (q := (cmdOf 0x0302 (.update (updP 0 0 0))).req 0 0) rfl
      (va := 0x3000) (n := 16) (by decide) (by decide) (by decide)
    refine ⟨_, b, e, ?_, by unfold Block.updFenced; simp [updP]⟩
    unfold Block.listErr Block.shard?
    rw [k.farrier]
    decide +kernel
  case rev =>
    obtain ⟨a, b, e, _⟩ := (runs_revert (benchFar_ok.launched 0x0304 (.revert ⟨0, 0⟩)) (c := cmdOf 0x0304 (.revert ⟨0, 0⟩)) rfl ⟨shardP, true, 0, 0⟩ 0
      ((armed benchFar 0x0304 (.revert ⟨0, 0⟩)).blk.launched 1).now (by decide +kernel) (by decide +kernel) (by decide +kernel)).ok
    exact ⟨a, b, e⟩
  case fet =>
    simp only [List.mem_cons, List.not_mem_nil, or_false, forall_eq_or_imp, forall_eq]
    exact ⟨engWit_of (by decide +kernel) ⟨by decide +kernel, ⟨shardR, false, 0, 0⟩, by decide +kernel⟩,
      engWit_of (by decide +kernel) ⟨by decide +kernel, ⟨shardP, true, 0, 0⟩, by decide +kernel⟩,
      engWit_of (by decide +kernel) ⟨by decide +kernel, ⟨shardP, true, 0, 0⟩, by decide +kernel⟩⟩
  all_goals decide +kernel

/-- The bench with an UPDATE that is held or lags. -/
def heldBy (p : UpdateParams) (lag : Bool) : Block :=
  let w : Written := ⟨0, 0, [], []⟩
  { benchFar with
    cmds := [{ cmdOf 0x0302 (.update p) with phase := .running }]
    farrier := { benchFar.farrier with
      held := if lag then [] else [⟨1, 0, updE, 0⟩]
      lagged := if lag then [⟨1, 0, updE, oneF32, w, 0⟩] else [] } }

/-- The block on which a held UPDATE's norm is looked up as it starts. -/
def heldNow (p : UpdateParams) : Block :=
  let b0 := heldBy p false
  let b := Block.farrierRegs { b0 with farrier := { b0.farrier with held := b0.farrier.held.filter (fun x => !decide (x.cmd = 1)) } }
  b.updCmd 1 (fun x => { x with startT := b.clk.t })

def heldW (p : UpdateParams) (n : Option Nat × Bool) : Prop :=
  (heldBy p false).boot.stopped = false ∧ (heldBy p false).mayStart = true ∧ (heldBy p false).nextUpdate = some ⟨1, 0, updE, 0⟩ ∧
  (heldBy p false).findCmd 1 = some { cmdOf 0x0302 (.update p) with phase := .running } ∧ (heldNow p).clipNorm 0 p = some n

theorem witness_FarrierEventResults :
    heldW (updP 0 0 0) (none, false) ∧ heldW (updP 1 1 5) (some 0x3F800000, false) ∧ heldW (updP 2 1 6) (some 0x3F800000, true) ∧
    specialF32 0x3F800000 = false ∧
    (let s := stateOf (heldBy (updP 2 1 5) true)
     let g : Lagged := ⟨1, 0, updE, oneF32, ⟨0, 0, [], []⟩, 0⟩
     let c := { cmdOf 0x0302 (.update (updP 2 1 5)) with phase := .running }
     s.blk.boot.stopped = false ∧ s.blk.mayStart = true ∧ s.blk.farrier.lagged.find? (fun g => decide (g.cmd = 1)) = some g ∧ s.blk.findCmd g.cmd = some c ∧
     s.blk.normOf c.ctx 1 5 = some 0x3F800000 ∧
     leF32 0x3F800000 ({ s.blk with farrier := { s.blk.farrier with lagged := [] } }.lagLimit 1) = true) ∧
    ((heldBy (updP 1 2 0) false).boot.stopped = false ∧ (stateOf (heldBy (updP 1 2 0) false)).blk.clipWait 1 = some 0) ∧
    (let c := { cmdOf 0x0303 (.fetch (fetchP 0 7 true)) with phase := .running }
     let b : Block := { benchFar with cmds := [c] }
     b.boot.stopped = false ∧ b.findCmd 1 = some c ∧ (fetchP 0 7 true).wait = true) ∧
    (let b := benchFar
     b.boot.stopped = false ∧ b.net.silent = false ∧ b.shard? 0 0 = some ⟨shardP, true, 0, 0⟩ ∧ (⟨shardP, true, 0, 0⟩ : Shard).badParts 1 = false ∧
     b.retained 0 0 ⟨shardP, true, 0, 0⟩ 0 = true ∧ b.retained 0 0 ⟨shardP, true, 0, 0⟩ 7 = false ∧ precedes 32 0 7 = true) := by
  unfold heldW
  refine ⟨?_, ?_, ?_, ?_, ?_, ?_, ?_, ?_⟩ <;> decide +kernel

/-! ### Witnesses: the Relay -/

/-- The bench with engine 0 up and a route to rank 1 through it. -/
def benchNet : Block :=
  setAll [(.CAPS_OE_PRESENT, 0, 1), (.OE_STATUS_STATE, 0, 2), (.HOKUKE_ROUTE_ENTRY, 1, 0x100000)] { benchBeat with host := (0x5100, 1) :: benchBeat.host }

theorem benchNet_ok : HostOk benchNet := ⟨by decide +kernel, by decide +kernel, by decide +kernel⟩

theorem Kin.relay {b0 b : Block} (k : Kin b0 b) : b.relay = b0.relay := by
  have h := k.only.rest
  unfold Block.onlySignals at h
  exact (congrArg Block.relay h).trans rfl

theorem Kin.rank {b0 b : Block} (k : Kin b0 b) : b.rank = b0.rank := by
  unfold Block.rank
  exact k.only.regs .HOKUKE_STATUS_RANK 0 (by decide) (by decide) (by
    intro p hp
    simp only [accRegs, List.mem_cons, List.not_mem_nil, or_false] at hp
    rcases hp with rfl | rfl | rfl <;> exact Fld.apart_of_reg (by decide) (by decide) (by decide))

theorem launched_rank (b : Block) (op : Nat) (p : Params) : ((armed b op p).blk.launched 1).rank = b.rank := rfl
theorem launched_relay (b : Block) (op : Nat) (p : Params) : ((armed b op p).blk.launched 1).relay = b.relay := rfl

def grpP (n va : Nat) (u : Bool) : GroupParams := ⟨n, 0, u, 1, va⟩

/-- A list of one member, this module, reads. -/
theorem member_reads (n va : Nat) (hl : va % 128 + 2 ≤ 128) (hv : va < 2097152) (hz : benchNet.host.readBytes va 2 = [0, 0]) :
    ∃ b', readVa ((cmdOf 0x0401 (.groupDefine (grpP n va false))).req 0 0) va 2 ((armed benchNet 0x0401 (.groupDefine (grpP n va false))).blk.launched 1) =
      (.ok [0, 0], b') ∧ b'.relay = benchNet.relay ∧ b'.rank = 0 := by
  obtain ⟨b', e, k, _⟩ := readVa_line (benchNet_ok.launched 0x0401 (.groupDefine (grpP n va false)))
    (q := (cmdOf 0x0401 (.groupDefine (grpP n va false))).req 0 0) rfl (n := 2) (by decide) hl hv
  refine ⟨b', by rw [e, launched_host, hz], k.relay.trans (launched_relay ..), k.rank.trans ((launched_rank ..).trans (by decide +kernel))⟩

theorem witness_RelayGroupResults :
    EngWit benchNet 0x0401 (.groupDefine (grpP 0 0 true)) (fun s c => (s.blk.launched 1).groupErr c.ctx 0 = none ∧ (s.blk.launched 1).groupBusy 0 = false) ∧
    (∀ n ∈ [1, 5], EngWit benchNet 0x0401 (.groupDefine (grpP n 0x4000 false)) (fun s c => ∃ bs b' slot, readVa (c.req 0 0) 0x4000 (2 * 1) (s.blk.launched 1) = (.ok bs, b') ∧
      [field bs 0 2].Nodup ∧ field bs 0 2 < 2 ^ 14 ∧ [field bs 0 2].findIdx? (fun r => decide (r = b'.rank)) = some 0 ∧
      (b'.groupSlot n = some slot ∧ (∀ g, b'.group? n = some g → g.ctx = c.ctx) ∨
        b'.groupSlot n = none ∧ b'.group? n = none ∧
          (List.range 64).find? (fun i => decide (Sparse.get (always none) b'.relay.groups i = none)) = some slot) ∧
      b'.groupBusy n = false)) ∧
    EngWit benchNet 0x0408 (.bucketCancel ⟨0, 0, true, 0⟩) (fun s c => let b := s.blk.launched 1
      b.groupErr c.ctx 0 = none ∧ b.group? 0 = some gs0 ∧ b.relay.cancels.length < 1024 ∧ gs0.ranks.filter (fun x => !decide (x = b.rank)) ≠ [] ∧
      (b.cancelTold c ⟨0, 0, true, 0⟩ gs0).2.2 = true) ∧
    EngWit benchNet 0x0408 (.bucketCancel ⟨1, 0, false, 7⟩) (fun s c => let b := s.blk.launched 1
      b.groupErr c.ctx 1 = none ∧ b.group? 1 = some ⟨1, 0, 0, [0], 0⟩ ∧ b.relay.cancels.length < 1024 ∧
      [0].filter (fun x => !decide (x = b.rank)) = []) := by
  refine ⟨engWit_of ?_ ?_, fun n hn => engWit_of (by decide +kernel) ?gd, engWit_of ?_ ?_, engWit_of ?_ ?_⟩
  case gd =>
    obtain ⟨b', e, hr, hk⟩ := member_reads n 0x4000 (by decide) (by decide) (by decide +kernel)
    replace hr : b'.relay = benchNet.relay := hr
    refine ⟨[0, 0], b', if n = 1 then 1 else 2, e, by decide, by decide, by rw [hk]; decide, ?_, ?_⟩
    · simp only [List.mem_cons, List.not_mem_nil, or_false] at hn
      rcases hn with rfl | rfl
      · refine .inl ⟨by unfold Block.groupSlot; rw [hr]; decide +kernel, fun g h => ?_⟩
        unfold Block.group? Block.groupSlot at h
        rw [hr] at h
        have h2 : benchNet.group? 1 = some g := h
        rw [show benchNet.group? 1 = some ⟨1, 0, 0, [0], 0⟩ by decide +kernel] at h2
        cases h2; rfl
      · refine .inr ⟨?_, ?_, ?_⟩
        · unfold Block.groupSlot; rw [hr]; decide +kernel
        · unfold Block.group? Block.groupSlot; rw [hr]; decide +kernel
        · rw [hr]; decide +kernel
    · unfold Block.groupBusy; rw [hr]; rfl
  all_goals decide +kernel

def redP (pass passes : Nat) : CollParams := ⟨0, 0, false, false, false, false, false, 5, 0, 0, 0, 256, pass, passes, 0, 0, 0, 0x10000, 0x12000, 0, 0⟩

/-- A collective of group 0 in bucket 5 (or another tag) in flight, for command `cmd`, with one unit granted to member 1. -/
def collAt (op tag : Nat) (cmd : Option Nat) (passes done : Nat) : Coll :=
  { Coll.init tag 0 op cmd [0, 1] 0 7 passes 0 with passDone := done, grants := [(1, 1)] }

def withColl (x : Coll) : Block := { benchNet with relay := { benchNet.relay with colls := [x] } }

theorem collOpen_of {b : Block} {c : Cmd} {g e k : Nat} {gs : GroupSt}
    (h : (decide (b.groupErr c.ctx g = none) && decide (b.group? g = some gs) && decide (epochState e gs.epoch = 0) && !b.cancelled (tagOf g e k)) = true) :
    b.CollOpen c g e k gs := by
  simp only [Bool.and_eq_true, decide_eq_true_eq, Bool.not_eq_true'] at h
  exact ⟨h.1.1.1, h.1.1.2, .inr h.1.2, h.2⟩

def a2aP : A2aParams := ⟨0, 0, 6, 0x6000, 0, 0, 0, 0⟩
def permP : PermuteParams := ⟨0, 1, 1, 0x5100, 0, 0, 0⟩

theorem witness_CollectiveResults :
    (∀ sc : Bool, EngWit benchNet (if sc then 0x0403 else 0x0402) (if sc then .reduceScatter (redP 0 1) else .allReduce (redP 0 1)) (fun s c =>
      collReady c s.blk = true ∧ (redP 0 1).badRed sc = false ∧ (s.blk.launched 1).CollEnters c 0 0 5 gs0 ∧
      ∃ b', ((s.blk.launched 1).unhold c.id).redEnter c (redP 0 1) sc gs0 (((s.blk.launched 1).unhold c.id).redAlgo (redP 0 1) sc 2) = some b')) ∧
    (∀ sc : Bool, EngWit (withColl (collAt (if sc then 0x0403 else 0x0402) (tagOf 0 0 5) none 2 1)) (if sc then 0x0403 else 0x0402)
      (if sc then .reduceScatter (redP 1 2) else .allReduce (redP 1 2)) (fun s c =>
      collReady c s.blk = true ∧ (redP 1 2).badRed sc = false ∧ (s.blk.launched 1).CollOpen c 0 0 5 gs0 ∧
      ∃ b', ((s.blk.launched 1).unhold c.id).redEnter c (redP 1 2) sc gs0 (((s.blk.launched 1).unhold c.id).redAlgo (redP 1 2) sc 2) = some b')) ∧
    EngWit benchNet 0x0404 (.allGather (redP 0 1)) (fun s c => collReady c s.blk = true ∧ badGather (redP 0 1) = false ∧
      (s.blk.launched 1).CollEnters c 0 0 5 gs0 ∧ ((s.blk.launched 1).unhold c.id).gatherSrc c (redP 0 1) = .ok 0x10000) ∧
    EngWit benchNet 0x0405 (.broadcast (redP 0 1)) (fun s c => collReady c s.blk = true ∧ (s.blk.launched 1).CollEnters c 0 0 5 gs0 ∧
      (redP 0 1).root < gs0.ranks.length) ∧
    EngWit benchNet 0x0406 (.allToAllV a2aP) (fun s c => collReady c s.blk = true ∧ (s.blk.launched 1).CollEnters c 0 0 6 gs0 ∧
      ∃ bs b, readVa (c.req 0 0) 0x6000 (8 * gs0.ranks.length) ((s.blk.launched 1).unhold c.id) = (.ok bs, b) ∧
        ∀ k ∈ a2aCounts gs0.ranks.length bs, k ≤ 67108864) ∧
    EngWit benchNet 0x0407 (.permute permP) (fun s c => collReady c s.blk = true ∧ (s.blk.launched 1).CollEnters c 0 1 0xFFFF gs0 ∧
      permP.epoch = (gs0.epoch + 1) % 256 ∧ ((s.blk.launched 1).unhold c.id).sbWhere (fun e => e.ofGroup 0) = [] ∧
      ∃ bs b, readVa (c.req 0 0) 0x5100 (32 * 1) ((s.blk.launched 1).unhold c.id) = (.ok bs, b) ∧
        ∀ m ∈ movesOf bs, m.bad gs0.ranks.length = false) := by
  refine ⟨fun sc => ?_, fun sc => ?_, ?_, ?_, ?_, ?_⟩
  · cases sc <;> exact engWit_of (by decide +kernel) ⟨by decide +kernel, by decide +kernel, collEnters_of (by decide +kernel), Option.isSome_iff_exists.1 (by decide +kernel)⟩
  · cases sc <;> exact engWit_of (by decide +kernel) ⟨by decide +kernel, by decide +kernel, collOpen_of (by decide +kernel), Option.isSome_iff_exists.1 (by decide +kernel)⟩
  · exact engWit_of (by decide +kernel) ⟨by decide +kernel, by decide +kernel, collEnters_of (by decide +kernel), by decide +kernel⟩
  · exact engWit_of (by decide +kernel) ⟨by decide +kernel, collEnters_of (by decide +kernel), by decide⟩
  · refine engWit_of (by decide +kernel) ⟨by decide +kernel, collEnters_of (by decide +kernel), ?_⟩
    obtain ⟨b', e, _, _⟩ := readVa_line (b := ((armed benchNet 0x0406 (.allToAllV a2aP)).blk.launched 1).unhold 1) ⟨by decide +kernel, by decide +kernel, by decide +kernel⟩
      (q := (cmdOf 0x0406 (.allToAllV a2aP)).req 0 0) rfl (va := 0x6000) (n := 16) (by decide) (by decide) (by decide)
    exact ⟨_, b', e, by decide +kernel⟩
  · refine engWit_of (by decide +kernel) ⟨by decide +kernel, ⟨⟨by decide +kernel, by decide +kernel, .inl rfl, by decide +kernel⟩, by decide +kernel, by decide +kernel, .inr (by decide +kernel)⟩,
      by decide, by decide +kernel, ?_⟩
    obtain ⟨b', e, _, _⟩ := readVa_line (b := ((armed benchNet 0x0407 (.permute permP)).blk.launched 1).unhold 1) ⟨by decide +kernel, by decide +kernel, by decide +kernel⟩
      (q := (cmdOf 0x0407 (.permute permP)).req 0 0) rfl (va := 0x5100) (n := 32) (by decide) (by decide) (by decide)
    exact ⟨_, b', e, by decide +kernel⟩

theorem witness_RelayMessageResults :
    (let b := withColl (collAt 0x0402 (tagOf 0 0 5) (some 1) 1 0)
     b.boot.stopped = false ∧ b.net.silent = false ∧ b.coll (tagOf 0 0 5) = some (collAt 0x0402 (tagOf 0 0 5) (some 1) 1 0) ∧
     [0, 1].findIdx? (fun r => decide (r = 1)) = some 1 ∧ Sparse.get (always 0) (collAt 0x0402 (tagOf 0 0 5) (some 1) 1 0).units (streamKey 1 1) = 0 ∧
     Sparse.get (always 0) (collAt 0x0402 (tagOf 0 0 5) (some 1) 1 0).grants 1 ≠ 0 ∧ (collAt 0x0402 (tagOf 0 0 5) (some 1) 1 0).got 1 1 = false) ∧
    (benchNet.boot.stopped = false ∧ benchNet.net.silent = false ∧ benchNet.coll (tagOf 0 0 5) = none ∧ benchNet.relay.pending.length < 4096) ∧
    (let x := collAt 0x0402 (tagOf 0 0 5) (some 1) 1 0
     let b : Block := { withColl x with relay := { (withColl x).relay with refusals := [(1, tagOf 0 0 5, 0)] } }
     b.boot.stopped = false ∧ b.relay.refusals.find? (fun r => decide (r.1 = 1) && decide (r.2.1 = tagOf 0 0 5)) = some (1, tagOf 0 0 5, 0) ∧
     ({ b.advanceTo (10 * usec) with relay := { (b.advanceTo (10 * usec)).relay with refusals := [] } } : Block).coll (tagOf 0 0 5) = some x) ∧
    ((withColl (collAt 0x0407 (tagOf 0 1 0xFFFF) (some 1) 1 0)).permuteOf 1 0 1 = some (collAt 0x0407 (tagOf 0 1 0xFFFF) (some 1) 1 0, 1) ∧
     benchNet.permuteOf 1 0 1 = none) := by
  refine ⟨?_, ?_, ?_, ?_⟩
  all_goals decide +kernel

/-- A collective of command 1, which runs, waits on member 1. -/
def benchWait (op : Nat) (p : Params) : Block :=
  { withColl (collAt op (tagOf 0 0 5) (some 1) 1 0) with cmds := [{ cmdOf op p with phase := .running }] }

theorem witness_RelayEventResults :
    (let b := benchWait 0x0402 (.allReduce (redP 0 1))
     b.boot.stopped = false ∧ b.coll (tagOf 0 0 5) = some (collAt 0x0402 (tagOf 0 0 5) (some 1) 1 0) ∧
     b.collRuns (collAt 0x0402 (tagOf 0 0 5) (some 1) 1 0) = true ∧ b.silentMember (collAt 0x0402 (tagOf 0 0 5) (some 1) 1 0) = some 1) ∧
    (let b := benchWait 0x0203 (.exchange exchP)
     b.boot.stopped = false ∧ b.coll (tagOf 0 0 5) = some (collAt 0x0203 (tagOf 0 0 5) (some 1) 1 0) ∧
     b.collRuns (collAt 0x0203 (tagOf 0 0 5) (some 1) 1 0) = true ∧ b.silentMember (collAt 0x0203 (tagOf 0 0 5) (some 1) 1 0) = some 1) ∧
    (∀ e : Bool, let c := cmdOf 0x0402 (.allReduce (redP 0 1))
     let b : Block := { benchNet with cmds := [c], relay := { benchNet.relay with held := [⟨1, e⟩] } }
     b.boot.stopped = false ∧ b.relay.held.find? (fun h => decide (h.cmd = 1)) = some ⟨1, e⟩ ∧ b.findCmd 1 = some c ∧ b.mayStart = true ∧
     b.heldReady ⟨1, e⟩ c = true) := by
  refine ⟨?_, ?_, ?_⟩
  all_goals decide +kernel

/-! ### Witnesses: the Blink -/

def benchBlink : Block := setAll [(.BLINK_PTAB_SLOTS, 0, 1), (.BLINK_PTAB_VA, 0, 0x200), (.BLINK_CFG_MAX_ATTEND, 0, 4)] bench

theorem benchBlink_ok : HostOk benchBlink := ⟨by decide +kernel, by decide +kernel, by decide +kernel⟩

def editP (op : Nat) : PageEditParams := ⟨0, op, 0, 1, 0x6000⟩
def attP : AttendParams := ⟨0, 1, 1, 0, false, false, false, false, false, false, 32, 0, 1, 1, 0, 1, 0, 0, 1, 0x6000, 0, 1, 0, 0, 70000⟩

theorem readBytes_nil (va n : Nat) : Memory.readBytes ([] : Memory) va n = List.replicate n 0 := by
  induction n generalizing va with
  | zero => rfl
  | succ n ih => rw [Memory.readBytes, ih]; rfl

theorem HostOk.running {b : Block} (h : HostOk b) (op : Nat) (p : Params) : HostOk (((armed b op p).blk.launched 1).setRunning 1) :=
  ⟨h.leaves, h.late, h.cut⟩

theorem launched_mem (b : Block) (op : Nat) (p : Params) : ((armed b op p).blk.launched 1).host = b.host := rfl
theorem running_mem (b : Block) (op : Nat) (p : Params) : (((armed b op p).blk.launched 1).setRunning 1).host = b.host := rfl

/-- A read of a line of the bench's host page, of which nothing is written, answers zeros. -/
theorem readVa_zero {b : Block} (h : HostOk b) (hz : b.host = []) {q : Req} (hq : q.who.ctx = 0) {va n : Nat} (hl : va % 128 + n ≤ 128)
    (hv : va < 2097152) : ∃ b', readVa q va n b = (.ok (List.replicate n 0), b') ∧ Kin b b' ∧ b'.host = [] := by
  rcases Nat.eq_zero_or_pos n with rfl | hn
  · exact ⟨b, rfl, Kin.refl b, hz⟩
  · obtain ⟨b', e, k, hh⟩ := readVa_line h hq (n := n) (by omega) hl hv
    exact ⟨b', by rw [e, hz, readBytes_nil], k, hh.trans hz⟩

theorem runs_editHead {b0 : Block} (h : HostOk b0) {q : Req} (hq : q.who.ctx = 0) {a : Nat} (ha : a + 64 ≤ 2097152) (gen n : Nat) :
    Runs b0 (editHead q a gen n) (fun r => r.1 = 0 ∧ r.2.1 = 0) := by
  unfold editHead
  refine (runs_writeVa h hq ?_).bind fun _ _ => Runs.pure ⟨rfl, rfl⟩
  simp only [List.length_append, length_bytesOf, List.length_replicate]
  omega

theorem edit_runs {b : Block} (h : HostOk b) (hz : b.host = []) {c : Cmd} (hc : c.ctx = 0) (p : PageEditParams) (ho : p.op ≤ 2) (hf : p.first = 0)
    (hn : p.count = 1) (hs : p.srcVa = 0x6000) : ∃ e b', pageEdit c p 0x8000 b = (.ok (0, 0, e), b') := by
  have hq : (c.req 0 0).who.ctx = 0 := hc
  obtain ⟨b1, e1, k1, h1⟩ := readVa_zero h hz hq (va := 0x8000) (n := 8) (by decide) (by decide)
  have r1 : field (List.replicate 8 (0 : Byte)) 0 2 = 0 := by decide
  have r2 : field (List.replicate 8 (0 : Byte)) 4 4 = 0 := by decide
  have fin : ∀ {b1 : Block} {m : Act (Nat × Nat × Nat)}, Runs b1 m (fun r => r.1 = 0 ∧ r.2.1 = 0) → ∃ e b', m b1 = (.ok (0, 0, e), b') := by
    intro b1 m hm
    obtain ⟨a, b', e, h1, h2⟩ := hm.ok
    obtain ⟨x, y, z⟩ := a
    cases h1; cases h2
    exact ⟨z, b', e⟩
  have hk1 := h.kin k1
  unfold pageEdit
  rw [Act.bind_ok e1]
  have h3 : p.op = 0 ∨ p.op = 1 ∨ p.op = 2 := by omega
  rcases h3 with h3 | h3 | h3
  · simp only [r1, r2, h3, hf, hn, hs]
    rw [if_neg (by decide)]
    obtain ⟨b2, e2, k2, h2⟩ := readVa_zero hk1 h1 hq (va := 0x6000) (n := 8 * 1) (by decide) (by decide)
    rw [Act.bind_ok e2]
    have hl : (List.range 1).map (fun i => field (List.replicate (8 * 1) (0 : Byte)) (8 * i) 8) = [0] := by decide
    rw [hl, if_neg (by decide)]
    exact fin ((runs_writeVa (hk1.kin k2) hq (by decide)).bind fun _ _ => runs_editHead (hk1.kin k2) hq (by decide) 0 _)
  · simp only [r1, r2, h3, hf]
    rw [if_neg (by decide), Nat.sub_zero, Nat.mul_zero, Act.bind_ok (readVa_none _ _ _)]
    exact fin ((runs_writeVa hk1 hq (by decide)).bind fun _ _ => runs_editHead hk1 hq (by decide) 0 0)
  · simp only [r1, r2, h3]
    rw [Nat.mul_zero, Act.bind_ok (readVa_none _ _ _)]
    exact fin ((runs_writeVa hk1 hq (by decide)).bind fun _ _ => runs_editHead hk1 hq (by decide) 0 0)

theorem Kin.slotAt {b0 b : Block} (k : Kin b0 b) : b.slotAt 0 0 = b0.slotAt 0 0 := by
  unfold Block.slotAt
  rw [k.only.regs .BLINK_PTAB_VA 0 (by decide) (by decide) (by
    intro p hp
    simp only [accRegs, List.mem_cons, List.not_mem_nil, or_false] at hp
    rcases hp with rfl | rfl | rfl <;> exact Fld.apart_of_reg (by decide) (by decide) (by decide))]
  rfl

def seqZero : SeqSt := ⟨0, 0, 0, 0, 0, 0, 0, 0, 0, 0, 0, 0, 0, 0, [], 0, 0⟩

theorem latch_runs {b : Block} (h : HostOk b) (hz : b.host = []) (hs : b.slotAt 0 0 = 0x8000) {c : Cmd} (hc : c.ctx = 0) (p : AttendParams) (hn : p.nseq = 1)
    (hv : p.seqVa = 0x6000) (hb : seqZero.bad p 1 = false) (hw : 65600 ≤ p.workBytes) (hg : p.checkGen = false) :
    ∃ l b', attendLatch c p 1 b = (.ok l, b') := by
  have hq : (c.req 0 0).who.ctx = 0 := hc
  obtain ⟨b1, e1, k1, h1⟩ := readVa_zero h hz hq (va := 0x6000) (n := 128 * 1) (by decide) (by decide)
  have hl : (List.range 1).map (fun i => seqOf (((List.replicate (128 * 1) (0 : Byte)).drop (128 * i)).take 128)) = [seqZero] := by decide +kernel
  have hone : ∃ b2, latchSeq c p 0 seqZero b1 = (.ok seqZero, b2) := by
    obtain ⟨b2, e2, _, _⟩ := readVa_zero (h.kin k1) h1 hq (va := 0x8000) (n := 8) (by decide) (by decide)
    refine ⟨b2, ?_⟩
    have z1 : seqZero.slot = 0 := rfl
    have z2 : seqZero.kvLen = 0 := rfl
    unfold latchSeq
    rw [Act.bind_ok (Act.get_run b1), hc, z1, k1.slotAt, hs, Act.bind_ok e2, if_neg (by simp [hg])]
    simp only [z2]
    rw [if_neg (by decide), show ceilDiv 0 128 = 0 by decide, Nat.mul_zero, Act.bind_ok (readVa_none _ _ _)]
    rfl
  obtain ⟨b2, e2⟩ := hone
  refine ⟨[seqZero], b2, ?_⟩
  unfold attendLatch
  rw [hn, hv, Act.bind_ok e1]
  simp only [hl]
  have hf : List.findIdx? (fun s => s.bad p 1) [seqZero] = none := by simp [List.findIdx?_cons, hb]
  rw [hf]
  simp only []
  rw [if_neg (by simp only [List.map_cons, List.map_nil, show ceilDiv seqZero.kvLen 128 = 0 by decide, List.foldl]; omega)]
  show (List.mapM (fun x => latchSeq c p x.2 x.1) [(seqZero, 0)]) b1 = _
  rw [List.mapM_cons, List.mapM_nil, Act.bind_ok e2]
  rfl

theorem witness_BlinkResults :
    (∀ op ≤ 2, EngWit benchBlink 0x0502 (.pageEdit (editP op)) (fun s c => editReady c s.blk = true ∧
      (editP op).slot < (s.blk.launched 1).rget .BLINK_PTAB_SLOTS c.ctx ∧
      ∃ e b, pageEdit c (editP op) ((s.blk.launched 1).slotAt c.ctx 0) ((s.blk.launched 1).setRunning c.id) = (.ok (0, 0, e), b))) ∧
    EngWit benchBlink 0x0501 (.attend attP) (fun s c => attendReady c s.blk = true ∧ attP.bad = false ∧ (s.blk.launched 1).attendTiles attP ≠ [] ∧
      (∀ n ∈ (s.blk.launched 1).attendTiles attP, (s.blk.launched 1).rget .TILE_CFG_CTX n = c.ctx) ∧
      ∃ l b, attendLatch c attP ((s.blk.launched 1).rget .BLINK_PTAB_SLOTS c.ctx) (s.blk.launched 1) = (.ok l, b)) ∧
    (let c := { cmdOf 0x0501 (.attend attP) with phase := .running }
     let b : Block := { benchBlink with cmds := [c], jobs := [⟨1, 0, [], 0⟩] }
     b.boot.stopped = false ∧ b.findCmd 1 = some c ∧ b.jobReady 1 0 = true) := by
  refine ⟨fun op ho => engWit_of (by decide +kernel) ⟨?_, ?_, ?_⟩, engWit_of (by decide +kernel) ⟨?_, ?_, ?_, ?_, ?lat⟩, ?_⟩
  · obtain rfl | rfl | rfl : op = 0 ∨ op = 1 ∨ op = 2 := by omega
    all_goals decide +kernel
  · obtain rfl | rfl | rfl : op = 0 ∨ op = 1 ∨ op = 2 := by omega
    all_goals decide +kernel
  · have hs : ((armed benchBlink 0x0502 (.pageEdit (editP op))).blk.launched 1).slotAt 0 0 = 0x8000 := by
      obtain rfl | rfl | rfl : op = 0 ∨ op = 1 ∨ op = 2 := by omega
      all_goals decide +kernel
    show ∃ e b, pageEdit _ _ (((armed benchBlink 0x0502 (.pageEdit (editP op))).blk.launched 1).slotAt 0 0) _ = _
    rw [hs]
    exact edit_runs (b := ((armed benchBlink 0x0502 (.pageEdit (editP op))).blk.launched 1).setRunning 1)
      (benchBlink_ok.running _ _) ((running_mem ..).trans (by decide +kernel)) rfl (editP op) ho rfl rfl rfl
  case lat =>
    have hs : ((armed benchBlink 0x0501 (.attend attP)).blk.launched 1).rget .BLINK_PTAB_SLOTS 0 = 1 := by decide +kernel
    show ∃ l b, attendLatch _ _ (((armed benchBlink 0x0501 (.attend attP)).blk.launched 1).rget .BLINK_PTAB_SLOTS 0) _ = _
    rw [hs]
    exact latch_runs (benchBlink_ok.launched _ _) ((launched_mem ..).trans (by decide +kernel)) (by decide +kernel) rfl attP rfl rfl (by decide) (by decide) rfl
  all_goals decide +kernel

/-! ### Witnesses: the Drover -/

def objAt (tier : Nat) (cache : Bool) (mig : Option Mig) : Obj := ⟨0, 0, 0, 65536, true, true, false, cache, false, tier, 0, 0, mig, 0⟩

def benchObj (o : Obj) : Block :=
  setAll [(.DROVER_QUOTA_PAGES, quotaIdx 0 2, 9), (.DROVER_HOSTPOOL_BASE, 0, 8), (.DROVER_HOSTPOOL_PAGES, 0, 16)]
    { benchNet with drover := { benchNet.drover with objs := [o] } }

def mapP : MapParams := ⟨0x40000000, 0x200000, 3, true, false, false, false, false, 2, 0⟩
def snapP : SnapshotParams := ⟨0, 1, 2, 0, 0xFFFFFFFF, 0, 0x200000⟩

theorem benchObj_ok (o : Obj) : HostOk (benchObj o) :=
  ⟨by rfl, by rfl, show (benchObj (objAt 2 false none)).cutActive = false by decide +kernel⟩

theorem runs_snapWrite {b0 : Block} (h : HostOk b0) (q : Req) (a : Nat) (bs : List Byte) : Runs b0 (snapWrite q 2 a bs) (fun _ => True) := by
  intro b k
  have hk := h.kin k
  unfold snapWrite
  rw [Act.bind_ok (Act.get_run b), if_neg (by decide), hk.cut, if_neg (by simp), Act.bind_ok (tierCheck_ok hk q 2)]
  have hc : b.OnlyRegs accRegs (b.count .PERF_DEV_WR_COUNT 0 (ceilDiv bs.length 64)) := Block.counter_only (by decide) (by decide) _ _
  exact ⟨(), b.hostWrite a bs, rfl, k.trans ((Kin.of_only hc).trans ⟨Block.OnlyRegs.refl _ _, rfl, rfl, id⟩), trivial⟩

theorem runs_snapUnit {b0 : Block} (h : HostOk b0) {q : Req} (hq : q.who.ctx = 0) (dst : Nat) (part : SnapPart) (i page : Nat)
    (hv : part.va + i * pageBytes + min pageBytes (part.size - i * pageBytes) ≤ 2097152) : Runs b0 (snapUnit q 2 dst part i page) (fun _ => True) := by
  unfold snapUnit
  exact (runs_readVa h hq hv).bind fun _ _ => (runs_snapWrite h q dst _).bind fun _ _ => (Runs.get b0).bind fun _ _ => Runs.pure trivial

theorem snap_runs {b : Block} (h : HostOk b) {c : Cmd} (hc : c.ctx = 0) (ho : b.snapObjs 0 snapP = some [objAt 2 false none])
    (hd : b.snapDest 0 snapP = some (0x1000000, 16)) (hp : b.snapParts snapP (objAt 2 false none) = ([⟨0, 0, 65536⟩], true)) :
    ∃ e b', snapshotCmd c snapP b = (.ok (0, 0, e), b') := by
  have hq : (c.req 0 0).who.ctx = 0 := hc
  have hu : snapUnits ([([(⟨0, 0, 65536⟩ : SnapPart)], true)].flatMap (fun x => x.1)) 0x10000 0 0 = [(⟨0, 0, 65536⟩, 0, 0, 0)] := by decide +kernel
  obtain ⟨x, b1, e1, k1, _⟩ := runs_snapUnit h hq (0x1000000 + snapP.dest + 0 * pageBytes) ⟨0, 0, 65536⟩ 0 0 (by decide) b (Kin.refl b)
  obtain ⟨u, b2, e2, k2, _⟩ := runs_snapWrite h (c.req 0 0) (0x1000000 + snapP.manifest) [x].flatten b1 k1
  refine ⟨halves 0 1, { b2 with drover := { b2.drover with snaps := b2.drover.snaps ++ [⟨c.id, c.ctx, 0, 1, [0], []⟩] },
                                farrier := { b2.farrier with holds := b2.farrier.holds ++ b.snapHolds c snapP [objAt 2 false none] } }, ?_⟩
  unfold snapshotCmd
  rw [Act.bind_ok (Act.get_run b), hc, ho, hd]
  simp only [List.map_cons, List.map_nil, hp]
  rw [hu, if_neg (by
    rw [show decide (snapP.version = 0xFFFFFFFF) = true by decide, Bool.true_or]
    decide +kernel), List.mapM_cons, List.mapM_nil]
  have ht : snapP.tier = 2 := rfl
  simp only [ht]
  have e3 : (do let y ← snapUnit (c.req 0 0) 2 (0x1000000 + snapP.dest + 0 * pageBytes) ⟨0, 0, 65536⟩ 0 0
                let ys ← (pure [] : Act (List (List Byte)))
                pure (y :: ys)) b = (.ok [x], b1) := by
    rw [Act.bind_ok e1]; rfl
  rw [Act.bind_ok e3, Act.bind_ok e2, Act.bind_ok (Act.act_run _ _)]
  rfl

theorem witness_DroverCommandResults :
    EngWit (benchObj (objAt 2 false none)) 0x0601 (.map mapP) (fun s c => let b := s.blk.launched 1
      b.mapOk c.ctx mapP = true ∧ b.drover.objs.length < 65536 ∧ b.quotaRoom c.ctx 2 (objUnits mapP.size) = true ∧
      (b.alloc c.ctx false false mapP.size 2 0).isSome = true) ∧
    EngWit (benchObj (objAt 2 false none)) 0x0602 (.unmap ⟨0⟩) (fun s c => (s.blk.launched 1).obj c.ctx 0 = some (objAt 2 false none)) ∧
    (∀ ca : Bool, EngWit (benchObj (objAt 2 ca none)) 0x0604 (.pin ⟨0⟩) (fun s c => s.blk.notMigrating ⟨0⟩ c = true ∧
      (s.blk.launched 1).obj c.ctx 0 = some (objAt 2 ca none) ∧ (s.blk.launched 1).quotaRoom c.ctx 2 (objUnits 65536) = true)) ∧
    EngWit (benchObj (objAt 2 false none)) 0x0605 (.unpin ⟨0⟩) (fun s c => s.blk.notMigrating ⟨0⟩ c = true ∧
      (s.blk.launched 1).obj c.ctx 0 = some (objAt 2 false none)) ∧
    (∀ t ∈ [0, 2], EngWit (benchObj (objAt t true none)) 0x0603 (.migrate ⟨0, 2, 0⟩) (fun s c => let b := s.blk.launched 1
      b.obj c.ctx 0 = some (objAt t true none) ∧
      ((b.updObj c.ctx 0 (fun x => { x with users := x.users + 1 })).alloc c.ctx false true 65536 2 0).isSome = true)) ∧
    EngWit (benchObj (objAt 2 false none)) 0x0606 (.lend ⟨1, 255, 0, 1⟩) (fun s c => let b := s.blk.launched 1
      c.ctx = 0 ∧ b.drover.lends.any (fun l => decide (l.id = 255)) = false ∧ b.reachable 1 = true ∧
      (b.alloc 0 false false (1 * pageBytes) 0 0).isSome = true) ∧
    EngWit { benchNet with drover := { benchNet.drover with lends := [⟨7, 1, false, [0], none, []⟩] } } 0x0607 (.revoke ⟨7⟩) (fun s c =>
      c.ctx = 0 ∧ (s.blk.launched 1).drover.lends.any (fun l => decide (l.id = 7)) = true) ∧
    EngWit (benchObj (objAt 2 false none)) 0x0608 (.snapshot snapP) (fun s c => ∃ e b, snapshotCmd c snapP (s.blk.launched 1) = (.ok (0, 0, e), b)) := by
  refine ⟨engWit_of ?_ ?_, engWit_of ?_ ?_, fun ca => ?pin, engWit_of ?_ ?_, fun t ht => ?mig, engWit_of ?_ ?_, engWit_of ?_ ?_, engWit_of ?_ ?sn⟩
  case pin => cases ca <;> exact engWit_of (by decide +kernel) (by decide +kernel)
  case mig =>
    simp only [List.mem_cons, List.not_mem_nil, or_false] at ht
    rcases ht with rfl | rfl <;> exact engWit_of (by decide +kernel) (by decide +kernel)
  case sn => exact snap_runs ((benchObj_ok _).launched _ _) rfl (by decide +kernel) (by decide +kernel) (by decide +kernel)
  all_goals decide +kernel

/-- An object that migrates from the host to local memory. -/
def migO (cmd : Option Nat) (passes : Nat) : Obj := objAt 2 true (some ⟨cmd, 0, 0, [0], [0], passes⟩)
def migB (cmd : Option Nat) (passes flip : Nat) : Block := setAll [(.DROVER_CFG_FLIP_LOCAL, 0, flip), (.DROVER_CFG_MAX_PASSES, 0, 4)] (benchObj (migO cmd passes))

def borrowB (grace lostT : Option Nat) : Block :=
  setAll [(.DROVER_BORROW_VALID, 0, 1), (.DROVER_BORROW_RANK, 0, 2), (.DROVER_BORROW_LEND_ID, 0, 9)]
    { benchNet with drover := { benchNet.drover with borrows := [(0, ⟨[], grace, lostT⟩)], lends := [⟨7, 1, false, [0], some 5, []⟩] } }

def pageB (retired : List Nat) : Block :=
  { benchNet with mem := { benchNet.mem with frames := [(0, ⟨false, some 3⟩)], retired := retired }, drover := { benchNet.drover with usedPages := [0] } }

theorem witness_DroverEventResults :
    (∀ cmd ∈ [none, some 1], (migB cmd 0 1).boot.stopped = false ∧ (migB cmd 0 1).obj 0 0 = some (migO cmd 0) ∧
      (migB cmd 0 1).migFails (migO cmd 0) ⟨cmd, 0, 0, [0], [0], 0⟩ = none ∧ ([0].filter (fun d => [0].contains d)).length ≤ (migB cmd 0 1).flipBlocks 0) ∧
    ((migB none 3 0).migFails (migO none 3) ⟨none, 0, 0, [0], [0], 3⟩ = none ∧ (migB none 3 0).flipBlocks 0 < ([0].filter (fun d => [0].contains d)).length ∧
      (migB none 3 0).rget .DROVER_CFG_MAX_PASSES ≤ 3 + 1 ∧
      ((migB none 3 0).count .DROVER_FLIP_ABANDON_COUNT 0 1).rget .DROVER_CFG_MAX_PASSES ≤ 3 + 1) ∧
    ((migB none 2 0).migFails (migO none 2) ⟨none, 0, 0, [0], [0], 2⟩ = none ∧ (migB none 2 0).flipBlocks 0 < ([0].filter (fun d => [0].contains d)).length ∧
      2 + 1 < (migB none 2 0).rget .DROVER_CFG_MAX_PASSES ∧
      2 + 1 < ((migB none 2 0).count .DROVER_FLIP_ABANDON_COUNT 0 1).rget .DROVER_CFG_MAX_PASSES) ∧
    ((borrowB (some 5) none).boot.stopped = false ∧
      (borrowB (some 5) none).drover.lends.find? (fun l => decide (l.id = 7)) = some ⟨7, 1, false, [0], some 5, []⟩ ∧
      ((borrowB (some 5) none).borrow 0).graceT = some 5) ∧
    (∀ t ∈ [none, some 5], (borrowB none t).flag .DROVER_BORROW_VALID 0 = true ∧ (borrowB none t).reachable ((borrowB none t).rget .DROVER_BORROW_RANK 0) = false ∧
      ((borrowB none t).borrow 0).pathLostT = t ∧ (borrowB none t).slotOfLend 2 9 = some 0) ∧
    ((pageB []).boot.stopped = false ∧ ((pageB []).movePage 0 0).isSome = true ∧ (pageB []).rebuildPages.contains 0 = true ∧
      ∀ p ∈ (pageB []).rebuildPages, ((pageB []).frame (p / 8)).guarded = false) ∧
    (((pageB [0]).movePage 0 0).isSome = true ∧ (pageB [0]).mem.retired.contains 0 = true ∧ (pageB [0]).drover.usedPages.contains 0 = true) ∧
    (let c := { cmdOf 0x0603 (.migrate ⟨0, 0, 0⟩) with phase := .running }
     let b : Block := { migB (some 1) 0 0 with cmds := [c] }
     b.boot.stopped = false ∧ (b.findCmd 1).isSome = true ∧
     b.drover.objs.find? (fun o => o.mig.any (fun m => decide (m.cmd = some 1))) = some (migO (some 1) 0)) ∧
    (let b : Block := { benchObj (objAt 2 false none) with cmds := [cmdOf 0x0608 (.snapshot snapP)] }
     b.boot.stopped = false ∧ (b.findCmd 1).isSome = true ∧
     b.drover.objs.find? (fun o => o.mig.any (fun m => decide (m.cmd = some 1))) = none) := by
  refine ⟨?_, ?_, ?_, ?_, ?_, ?_, ?_, ?_, ?_⟩
  all_goals decide +kernel

/-! ### Witnesses: Ostler, trace and the network's commands -/

/-- The bench with an entry in the error log, context 1 with no ring and a trace buffer in host memory. -/
def benchOst : Block :=
  setAll [(.OSTLER_ERRLOG_STATUS_WRITTEN, 0, 1), (.CAPS_TILE_MASK_TILE, 0, 3), (.HOKUKE_STATUS_RANK_VALID, 0, 1), (.TRACE_BUF_CFG_SIZE, 0, 2),
    (.OE_STATUS_A_OK, 0, 1), (.OE_STATUS_B_OK, 0, 1), (.HOKUKE_ROUTE_ENTRY, 3, 0x10000E), (.MAC_STATUS_ACTIVE, 2, 1), (.CAPS_OE_PRESENT, 1, 1), (.CAPS_OE_ROLE, 1, 2)] benchNet

theorem benchOst_ok : HostOk benchOst := ⟨by decide +kernel, by decide +kernel, by decide +kernel⟩

/-- A state in which a command starts whose action succeeds. -/
def ActWit (b : Block) (op : Nat) (p : Params) (m : Cmd → Act (Nat × Nat × Nat)) : Prop :=
  EngWit b op p (fun s c => c.ctx = 0 ∧ ∃ r b', m c (s.blk.launched 1) = (.ok r, b'))

theorem actWit_of {b : Block} {op : Nat} {p : Params} {m : Cmd → Act (Nat × Nat × Nat)} (h : (!b.boot.stopped && b.mayStart) = true)
    (hm : okB (m (cmdOf op p) ((armed b op p).blk.launched 1)).1 = true) : ActWit b op p m := engWit_of h ⟨rfl, ok_of hm⟩

theorem witness_OstlerCommandResults :
    EngWit benchOst 0x0700 .nop (fun _ _ => True) ∧
    ActWit benchOst 0x0705 (.errlogRead ⟨0, 1, 0x1000⟩) (fun c => errlogCopy c ⟨0, 1, 0x1000⟩) ∧
    ActWit benchOst 0x0703 (.configRead ⟨1, 0x1000, 128⟩) (fun c => configCopy c ⟨1, 0x1000, 128⟩) ∧
    ActWit benchOst 0x0704 (.telemetryRead ⟨1, 0x1000, 128⟩) (fun c => telemetryCopy c ⟨1, 0x1000, 128⟩) ∧
    ActWit benchOst 0x0701 (.contextCreate ⟨15, 1⟩) (fun _ => createCtx ⟨15, 1⟩) ∧
    ActWit benchOst 0x0707 (.tileRetire ⟨0⟩) (fun _ => retireCmd ⟨0⟩) ∧
    EngWit benchOst 0x0702 (.contextDestroy ⟨1⟩) (fun s c => destroyReady ⟨1⟩ c s.blk = true ∧ (s.blk.launched 1).destroyErr c 1 = none) ∧
    EngWit { benchOst with relay := { benchOst.relay with groups := [] } } 0x0708 (.remountPrepare ⟨0, 16383⟩) (fun s c => c.ctx = 0 ∧
      (s.blk.launched 1).remountBusy = false) ∧
    EngWit benchOst 0x0708 (.remountPrepare ⟨1, 5⟩) (fun s c => c.ctx = 0 ∧ 5 ≠ (s.blk.launched 1).rank) := by
  refine ⟨engWit_of ?_ trivial, actWit_of ?_ ?_, actWit_of ?_ ?_, actWit_of ?_ ?_, actWit_of ?_ ?_, actWit_of ?_ ?_, engWit_of ?_ ?_, engWit_of ?_ ?_, engWit_of ?_ ?_⟩
  all_goals decide +kernel

def recT : TraceRec := ⟨0, 0, 0, 0, 0, 0, 0, 0⟩
def quireT : Quire := ⟨0, 0, List.replicate 63 recT⟩

theorem witness_TraceResults :
    (∀ op < 5, EngWit benchOst 0x0706 (.traceControl ⟨op, 0, 0⟩) (fun s c => c.ctx = 0 ∧ (s.blk.launched 1).rget .TRACE_BUF_CFG_SIZE ≠ 0)) ∧
    (let b : Block := { setAll [(.TRACE_BUF_BASE_LOC, 0, 1)] benchOst with trace := { benchOst.trace with staged := [quireT] } }
     b.boot.stopped = false ∧ b.trace.staged = [quireT] ∧ b.rget .TRACE_BUF_CFG_SIZE ≠ 0 ∧ b.flag .TRACE_BUF_BASE_LOC = true ∧ b.cutActive = false) ∧
    (let b : Block := { benchOst with trace := { benchOst.trace with staged := [quireT] } }
     let a := b.rget .TRACE_BUF_BASE_ADDR * 4096 + 0 % b.rget .TRACE_BUF_CFG_SIZE * 2048
     b.boot.stopped = false ∧ b.flag .TRACE_BUF_BASE_LOC = false ∧ ∃ b', writeVa quireReq a (quireT.encode b.now) benchOst = (.ok (), b')) := by
  refine ⟨fun op h => engWit_of (by decide +kernel) ?_, ?_, ?_, ?_, ?_⟩
  · obtain rfl | rfl | rfl | rfl | rfl : op = 0 ∨ op = 1 ∨ op = 2 ∨ op = 3 ∨ op = 4 := by omega
    all_goals decide +kernel
  · decide +kernel
  · decide +kernel
  · decide +kernel
  · obtain ⟨_, b', e, _⟩ := (runs_writeVa benchOst_ok (q := quireReq) rfl
      (va := ({ benchOst with trace := { benchOst.trace with staged := [quireT] } } : Block).rget .TRACE_BUF_BASE_ADDR * 4096 +
        0 % ({ benchOst with trace := { benchOst.trace with staged := [quireT] } } : Block).rget .TRACE_BUF_CFG_SIZE * 2048)
      (bs := quireT.encode ({ benchOst with trace := { benchOst.trace with staged := [quireT] } } : Block).now) (by decide +kernel)).ok
    exact ⟨b', e⟩

def sendP : SendParams := ⟨3, 0, 0, 0x6000, 1⟩

theorem sendMsg_local {b : Block} (h : b.portFor 3 = some 14) (cls ctx : Nat) (m : Msg) (cmd : Option Nat) : (b.sendMsg 3 cls ctx m cmd).2 = true := by
  unfold Block.sendMsg
  rw [h]
  dsimp only
  split <;> rfl

theorem portFor_local {b : Block} (h : b.rget .HOKUKE_ROUTE_ENTRY 3 = 0x10000E) : b.portFor 3 = some 14 := by
  have hc : b.portChoice 3 = some (0, 14) := by
    unfold Block.portChoice
    rw [h]
    dsimp only
    rw [if_pos (by decide)]
    rfl
  unfold Block.portFor
  rw [hc]
  rfl

theorem launched_rget (b : Block) (op : Nat) (p : Params) (f : Fld) (i : Nat) : ((armed b op p).blk.launched 1).rget f i = b.rget f i := rfl

theorem recipe_local {b : Block} (h : b.rget .HOKUKE_ROUTE_ENTRY 3 = 0x10000E) (c : Cmd) {p : SendParams} (bs : List Byte) (hp : p.dest = 3) :
    (b.sendRecipe c p bs).2 = true := by
  unfold Block.sendRecipe
  dsimp only
  rw [hp]
  refine sendMsg_local (portFor_local ?_) _ _ _ _
  exact h

theorem witness_NetworkCommandResults :
    EngWit benchOst 0x0801 (.send sendP) (fun s c => sendTurn sendP c s.blk = true ∧ ∃ bs b,
      readVa (c.req sendP.hint 0) sendP.srcVa sendP.bytes (s.blk.launched 1) = (.ok bs, b) ∧ (b.sendRecipe c sendP bs).2 = true) ∧
    EngWit benchOst 0x0802 (.recvPost ⟨0xFFFF, 0, 0, 0x6000, 67108864⟩) (fun _ _ => True) ∧
    (∀ op < 6, EngWit benchOst 0x0804 (.linkControl ⟨0, op⟩) (fun s c => let b := s.blk.launched 1
      b.linkRange c ⟨0, op⟩ = false ∧ b.linkState 0 ≠ 0 ∧ b.mayTrain 0 = true ∧ b.hokuke 0 = true ∧ b.linkOpen 0 = true ∧
      b.flag .OE_STATUS_B_OK 0 = true ∧ b.flag .OE_STATUS_A_OK 0 = true)) ∧
    ActWit benchOst 0x0803 (.routeSet ⟨16383, 1, 0x6000⟩) (fun c => routeCmd c ⟨16383, 1, 0x6000⟩) ∧
    ActWit benchOst 0x0805 (.macFilterSet ⟨2, 1, 63, 1, 0x6000⟩) (fun c => filterCmd c ⟨2, 1, 63, 1, 0x6000⟩) ∧
    EngWit benchOst 0x0806 (.statsRead ⟨2, 0x6000⟩) (fun s c => ∃ r b, statsCopy c ⟨2, 0x6000⟩ (s.blk.launched 1) = (.ok r, b)) := by
  refine ⟨engWit_of ?_ ⟨?_, ?snd⟩, engWit_of ?_ trivial, fun op h => engWit_of (by decide +kernel) ?lnk, actWit_of ?_ ?_, actWit_of ?_ ?_, engWit_of ?_ ?sts⟩
  case snd =>
    obtain ⟨b', e, k, _⟩ := readVa_line (benchOst_ok.launched 0x0801 (.send sendP)) (q := (cmdOf 0x0801 (.send sendP)).req 0 0) rfl
      (va := 0x6000) (n := 1) (by decide) (by decide) (by decide)
    refine ⟨_, b', e, ?_⟩
    have hr : b'.rget .HOKUKE_ROUTE_ENTRY 3 = 0x10000E := by
      rw [k.only.regs .HOKUKE_ROUTE_ENTRY 3 (by decide) (by decide) (by
        intro p hp
        simp only [accRegs, List.mem_cons, List.not_mem_nil, or_false] at hp
        rcases hp with rfl | rfl | rfl <;> exact Fld.apart_of_reg (by decide) (by decide) (by decide))]
      exact (launched_rget ..).trans (by decide +kernel)
    exact recipe_local hr _ _ rfl
  case lnk =>
    obtain rfl | rfl | rfl | rfl | rfl | rfl : op = 0 ∨ op = 1 ∨ op = 2 ∨ op = 3 ∨ op = 4 ∨ op = 5 := by omega
    all_goals decide +kernel
  case sts =>
    have h := benchOst_ok.launched 0x0806 (.statsRead ⟨2, 0x6000⟩)
    obtain ⟨_, b', e, _⟩ := (runs_writeVa h (q := (cmdOf 0x0806 (.statsRead ⟨2, 0x6000⟩)).req 0 0) rfl (va := 0x6000)
      (bs := ((armed benchOst 0x0806 (.statsRead ⟨2, 0x6000⟩)).blk.launched 1).statsBytes 2) (by decide +kernel)).ok
    refine ⟨(0, 0, halves 728 0), b', ?_⟩
    unfold statsCopy
    rw [Act.bind_ok (Act.get_run _)]
    dsimp only
    rw [if_neg (by decide +kernel), Act.bind_ok e]
    rfl
  all_goals decide +kernel

/-! ### Witnesses: rings and registers -/

/-- Ring 255, in host memory at 0x10000, enabled and running, with one packet of one unit (SEQ 0, a NOP) and a doorbell past it. -/
def benchRing (limit : Nat) : Block :=
  setAll [(.SPAOG_SQ_CFG_ENABLE, 255, 1), (.SPAOG_SQ_STATUS_STATE, 255, 1), (.SPAOG_SQ_DBVAL_LIMIT, 255, limit), (.SPAOG_SQ_BASE_LOC, 255, 1),
    (.SPAOG_SQ_BASE_ADDR, 255, 0x10), (.SPAOG_SQ_CFG_SIZE_LOG2, 255, 4), (.SPAOG_CQ_CFG_SIZE_LOG2, 0, 4), (.SPAOG_CQ_CFG_ENABLE, 0, 1)]
    { bench with host := [(0x10001, 7), (0x10003, 1)] }

/-- What a computation that succeeds answers. -/
def okVal {ε : Type} : Except ε (List Byte) → List Byte
  | .ok l => l
  | .error _ => []

/-- The head's unit of ring 255 as PACKET_FETCH reads it. -/
def headUnit (b : Block) : Except AccErr (List Byte) × Block :=
  let b1 := (b.advanceTo (max (b.sqAux 255).nextFetch b.fetchNext)).fetchPaced 255
  b1.readUnit 255 (b1.rget .SPAOG_SQ_HEAD_POS 255)

theorem witness_RingEventResults :
    (∀ n ∈ [1, 4],
      let b : Block := { benchRing 0 with host := [(0x10001, 7), (0x10003, BitVec.ofNat 8 n)] }
      b.boot.stopped = false ∧ b.mayFetch 255 = true ∧ (b.sqAux 255).early = false ∧ okB (headUnit b).1 = true ∧
      field (okVal (headUnit b).1) 4 4 = (headUnit b).2.rget .SPAOG_SQ_HEAD_SEQ 255 ∧ field (okVal (headUnit b).1) 3 1 = n ∧
      okB (((headUnit b).2.setSq 255 { (headUnit b).2.sqAux 255 with early := false }).readUnits 255 1 (n - 1)).1 = true) ∧
    (let b : Block := { benchRing 0 with host := [(0x10004, 9)] }
     b.boot.stopped = false ∧ b.mayFetch 255 = true ∧ (b.sqAux 255).early = false ∧ okB (headUnit b).1 = true ∧
     field (okVal (headUnit b).1) 4 4 ≠ (headUnit b).2.rget .SPAOG_SQ_HEAD_SEQ 255) ∧
    (let b : Block := { benchRing 0 with sq := [(255, ⟨0, true, 0, 0⟩)] }
     b.boot.stopped = false ∧ b.mayFetch 255 = true ∧ (b.sqAux 255).early = true ∧ (b.sqAux 255).lastPoll + 4096 < (b.sqAux 255).tDb + 4 * usec) ∧
    (let c := { cmdOf 0x0700 .nop with ring := 255, phase := .queued }
     let b : Block := { benchRing 0 with cmds := [c] }
     b.boot.stopped = false ∧ b.dispatchable 255 = some c ∧ b.firstServed 255 c = true) ∧
    (let c := { cmdOf 0xFFFF .bad with ring := 255, phase := .queued }
     let b : Block := { benchRing 0 with cmds := [c] }
     b.dispatchable 255 = some c ∧ (b.packetErr c).isSome = true) ∧
    (let c := { cmdOf 0x0700 .nop with phase := .done, result := some ⟨0, 0, 0⟩ }
     let b : Block := { benchRing 0 with cmds := [c] }
     b.boot.stopped = false ∧ b.findCmd 1 = some c ∧ c.phase = .done ∧ c.result = some ⟨0, 0, 0⟩) ∧
    (let b : Block := { setAll [(.SPAOG_CQ_CFG_COAL_TIME, 255, 1)] bench with cq := [(255, ⟨0, 1, 0, false⟩)] }
     b.boot.stopped = false ∧ 0 < (b.cqAux 255).unsignalled ∧ b.rget .SPAOG_CQ_CFG_COAL_TIME 255 ≠ 0) := by
  refine ⟨?_, ?_, ?_, ?_, ?_, ?_, ?_⟩
  all_goals decide +kernel

def hostW (b : Block) (off : Nat) : Bool :=
  b.flag .HITCH_STATUS_LINK_UP && b.hostWrote.secureOk off && (b.hostWrote.flag .OSTLER_BOOT_STATUS_READY || earlyOffset off) &&
    !b.hostWrote.unitGone off

def hostR (b : Block) (off : Nat) : Bool :=
  b.flag .HITCH_STATUS_LINK_UP && b.secureOk off && (b.flag .OSTLER_BOOT_STATUS_READY || earlyOffset off) && !b.unitGone off

theorem hostWrites_of {b : Block} {off : Nat} (h : hostW b off = true) : b.HostWrites off := by
  simp only [hostW, Bool.and_eq_true, Bool.or_eq_true, Bool.not_eq_true'] at h
  exact ⟨h.1.1.1, h.1.1.2, h.1.2, h.2⟩

theorem hostReads_of {b : Block} {off : Nat} (h : hostR b off = true) : b.HostReads off := by
  simp only [hostR, Bool.and_eq_true, Bool.or_eq_true, Bool.not_eq_true'] at h
  exact ⟨h.1.1.1, h.1.1.2, h.1.2, h.2⟩

theorem hostWrites_all {b : Block} {l : List Nat} (h : l.all (hostW b) = true) : ∀ off ∈ l, b.HostWrites off :=
  fun off hm => hostWrites_of (List.all_eq_true.1 h off hm)

theorem hostReads_all {b : Block} {l : List Nat} (h : l.all (hostR b) = true) : ∀ off ∈ l, b.HostReads off :=
  fun off hm => hostReads_of (List.all_eq_true.1 h off hm)

theorem witness_RingRegisterResults : (stateOf bench).live ∧
    ∀ off ∈ [0x100000, 0x100000 + 64 * 255, 0x104000, 0x104000 + 64 * 255, sqOffset 0 8, sqOffset 255 8, sqOffset 0 16, sqOffset 255 16, 0x112010,
      0x112010 + 32 * 255, 0x120000, 0x120000 + 8 * 4095], bench.HostWrites off :=
  ⟨by show bench.boot.stopped = false; decide +kernel, hostWrites_all (by decide +kernel)⟩

theorem witness_MailboxResults : (stateOf bench).live ∧ hostAgent 63 = true ∧ coreAgent 67 = true ∧
    (∀ n ∈ [0, 15], ∀ off ∈ [lockOffset n 63, mbxOffset n 0, mbxOffset n 8, mbxOffset n 0x1C, mbxOffset n 0x20, mbxOffset n 0x24, mbxOffset n 0x28],
      bench.HostWrites off ∧ bench.HostReads off) := by
  refine ⟨by show bench.boot.stopped = false; decide +kernel, ?_, ?_, fun n hn off ho => ⟨?_, ?_⟩⟩
  · decide
  · decide
  all_goals
    simp only [List.mem_cons, List.not_mem_nil, or_false] at hn
    rcases hn with rfl | rfl
    all_goals first | exact hostWrites_all (by decide +kernel) off ho | exact hostReads_all (by decide +kernel) off ho

theorem witness_HostWriteResults : (stateOf benchOst).live ∧
    (∀ off ∈ [tileOffset 0 8, tileOffset 0 0x10, tileOffset 0 0x100, tileOffset 0 (0x100 + 8 * 15), tileOffset 0 0x60, 0x200018, 0x24000C,
      0x24000C + 16 * 1023, 0x800010, 0xA00018, 0xA00018 + 0x40000 * 7, macBase 2 + 0xF0, macBase 3 + 0xD0, 0x1800020, 0x1800108, 0x1801600, 0, 0x3FFFFFC, 0x3FFFFF8],
      benchOst.HostWrites off) ∧ benchOst.HostReads (macBase 2 + 0xA0) :=
  ⟨by show benchOst.boot.stopped = false; decide +kernel, hostWrites_all (by decide +kernel), hostReads_of (by decide +kernel)⟩

/-! ### Witnesses: the Hitch, boot, memory rows -/

def benchCxl : Block :=
  setAll [(.CAPS_HOST_CXL, 0, 1), (.HITCH_STATUS_IDE_STATE, 0, 1), (.HITCH_BAR2_MAP_VALID, 0, 1), (.HITCH_HDM_MAP_VALID, 3, 1), (.HITCH_HDM_MAP_CTX, 3, 1),
    (.HITCH_CFG_P2P, 0, 1), (.HITCH_WIN_CTL_READ, 7, 1), (.HITCH_WIN_CTL_REQ_CHECK, 7, 1), (.HITCH_WIN_CTL_REQUESTER, 7, 0x100)]
    (bench.setWord .HITCH_WIN_CTL 7 1)

theorem witness_HitchEventResults :
    (linkSupported 16 6 = true ∧ linkSupported 1 1 = true) ∧
    (let b := setAll [(.HITCH_STATUS_LINK_UP, 0, 0)] bench
     b.boot.stopped = false ∧ b.boot.perstN = false ∧ b.boot.pgMain = true ∧ b.flag .HITCH_STATUS_LINK_UP = false) ∧
    (benchCxl.boot.stopped = false ∧ benchCxl.flag .HITCH_STATUS_LINK_UP = true ∧ benchCxl.flag .CAPS_HOST_CXL = true ∧
      benchCxl.flag .HITCH_STATUS_IDE_STATE = true ∧ benchCxl.boot.perstN = false ∧ 1 < benchCxl.stage ∧ benchCxl.stage ≠ 15) := by
  refine ⟨?_, ?_, ?_⟩
  all_goals decide +kernel

theorem witness_WindowResults :
    (benchCxl.boot.stopped = false ∧ benchCxl.flag .HITCH_STATUS_LINK_UP = true ∧ benchCxl.rget .HITCH_STATUS_IDE_STATE = 1) ∧
    ((⟨0, 0, 8, none, false⟩ : WinOp).win = 0 ∧ benchCxl.flag .HITCH_BAR2_MAP_VALID = true ∧ benchCxl.ctxExists (benchCxl.rget .HITCH_BAR2_MAP_CTX) = true) ∧
    ((⟨4, 0, 8, none, false⟩ : WinOp).win.val = 3 + 1 ∧ benchCxl.flag .CAPS_HOST_CXL = true ∧ benchCxl.flag .HITCH_HDM_MAP_VALID 3 = true ∧
      benchCxl.ctxExists (benchCxl.rget .HITCH_HDM_MAP_CTX 3) = true) ∧
    (benchCxl.flag .HITCH_CFG_P2P = true ∧ benchCxl.peerSecure = true ∧ benchCxl.peerWindow 0 = some 7 ∧
      benchCxl.flag .HITCH_WIN_CTL_REQ_CHECK 7 = true ∧ benchCxl.rget .HITCH_WIN_CTL_REQUESTER 7 = (0x100 : BitVec 16).toNat ∧
      benchCxl.ctxExists (benchCxl.rget .HITCH_WIN_CTL_CTX 7) = true ∧ benchCxl.flag .HITCH_WIN_CTL_READ 7 = true) := by
  refine ⟨?_, ?_, ?_, ?_⟩
  all_goals decide +kernel

def atStage (n : Nat) : Block := setAll [(.OSTLER_BOOT_STATUS_STAGE, 0, n), (.OSTLER_DEBUG_STATUS_BUSY, 0, 1)] bench

theorem witness_BootResults :
    (Block.reset.boot.stopped = false ∧ Block.reset.boot.pgAux = false) ∧
    (∀ n ∈ [1, 3, 4, 5], (atStage n).boot.stopped = false ∧ (atStage n).stage = n ∧ (atStage n).boot.pgAux = true ∧ (atStage n).boot.pgMain = true ∧
      (atStage n).boot.pgStack = true ∧ (atStage n).boot.pgOpt = true ∧ (atStage n).flag .OSTLER_DEBUG_STATUS_BUSY = true ∧
      (atStage n).flag .HITCH_STATUS_LINK_UP = true ∧ ∀ pg : Fin 4, pg ≠ 0 → (atStage n).boot.good pg = true) ∧
    (∀ off ∈ [0x10008, 0x10060, 0x2000000, 0x3FFFFFF], bench.HostWrites off) :=
  ⟨by decide +kernel, by decide +kernel, hostWrites_all (by decide +kernel)⟩

theorem witness_CurbResults :
    (let b := { bench with clk := { bench.clk with running := true } }
     b.boot.stopped = false ∧ b.clk.running = true ∧ b.boot.pgAux = true) ∧
    (∀ off ∈ [0x1D00000, RegId.offset .OSTLER_INTERRUPT_MAX_NS 0, RegId.offset .DROVER_FLIP_MAX_NS 0], bench.HostReads off) :=
  ⟨by decide +kernel, hostReads_all (by decide +kernel)⟩

/-- Frame 0 guarded, line 0's stripe held, slice 0 with enough errors. -/
def benchMem (g : Bool) : Block :=
  { bench with mem := { bench.mem with frames := [(0, ⟨g, some 255⟩)], sliceErrs := [⟨0, 0, true⟩, ⟨0, 0, true⟩] } }

def vatOp0 : VatOp := ⟨0, 128, none, 0, 0, 0, 0, none, false, .none⟩

theorem witness_VatRowResults :
    (∀ n ∈ [1, 128], ∃ pl bs b, (benchMem true).boot.stopped = false ∧ (benchMem true).place 0 = some pl ∧
      localAccess ((benchMem true).reqOf (vatOpReq vatOp0)) 0 n none false (benchMem true) = (.ok bs, b)) ∧
    (atomicSize 7 8 = some 8 ∧ 0x7FFFF8 % 8 = 0 ∧ ∃ bs b,
      localAccess ((benchMem true).reqOf ⟨⟨0, 0, none, none⟩, 0, 0, 10⟩) 0x7FFFF8 8 (some (atomicBytes 7 8 [] [])) true (benchMem true) = (.ok bs, b)) ∧
    (((benchMem true).place 0).bind (fun pl => pl.parity)).isSome = true ∧ (benchMem true).sliceDue 0 = true := by
  refine ⟨fun n hn => ?_, ⟨by decide, by decide, ok_of (by decide +kernel)⟩, by decide +kernel, by decide +kernel⟩
  obtain ⟨pl, hp⟩ := Option.isSome_iff_exists.1 (show ((benchMem true).place 0).isSome = true by decide +kernel)
  simp only [List.mem_cons, List.not_mem_nil, or_false] at hn
  rcases hn with rfl | rfl
  · obtain ⟨bs, b, e⟩ := ok_of (show okB (localAccess ((benchMem true).reqOf (vatOpReq vatOp0)) 0 1 none false (benchMem true)).1 = true by decide +kernel)
    exact ⟨pl, bs, b, by decide +kernel, hp, e⟩
  · obtain ⟨bs, b, e⟩ := ok_of (show okB (localAccess ((benchMem true).reqOf (vatOpReq vatOp0)) 0 128 none false (benchMem true)).1 = true by decide +kernel)
    exact ⟨pl, bs, b, by decide +kernel, hp, e⟩

/-- The parity slot of line 0's stripe. -/
def parity0 (b : Block) : Option Slot := (b.place 0).bind (fun pl => pl.parity)

def benchHeld : Block := { benchMem true with mem := { (benchMem true).mem with holding := (parity0 (benchMem true)).toList.map Slot.key } }

theorem witness_StackResults :
    (∀ g : Bool, (benchMem g).boot.stopped = false ∧ ((benchMem g).place 0).isSome = true ∧ (parity0 (benchMem g)).isSome = g ∧
      ∀ pl ∈ ((benchMem g).place 0).toList, 1 ≤ (benchMem g).rget .STACK_CFG_REREADS pl.slot.s ∧ (benchMem g).rget .STACK_CFG_REREADS pl.slot.s < 2) ∧
    (∀ pl ∈ (benchHeld.place 0).toList, ∀ ps ∈ pl.parity.toList, benchHeld.mem.holding.contains ps.key = true ∧
      ((benchHeld.releaseStripe ps pl.slot).rebuildable pl 0 && !(benchHeld.releaseStripe ps pl.slot).lineLost 0) = true) ∧
    (parity0 benchHeld).isSome = true ∧
    (∀ stack ∈ [0, 7], bench.flag .STACK_CFG_SCRUB_EN stack = true ∧ bench.rget .STACK_STATUS_STATE stack ≠ 2 ∧
      (bench.scrubNext stack).slotUsable (bench.scrubSlot stack) = true ∧ (bench.scrubNext stack).lostAt (bench.scrubSlot stack) = none) ∧
    ((({ bench with mem := { bench.mem with lost := [0] } } : Block).scrubNext 0).lostAt (bench.scrubSlot 0)).isSome = true := by
  refine ⟨fun g => ?_, ?_, ?_, ?_, ?_⟩
  · cases g <;> decide +kernel
  all_goals decide +kernel

/-! ### Witnesses: links, transport, ports -/

def linkB (st : Nat) (inp : Nat) (aOk : Nat) : Block :=
  setAll [(.OE_STATUS_STATE, 0, st), (.CAPS_OE_LANE_MASK, 0, 255), (.OE_STATUS_INPUT, 0, inp), (.OE_STATUS_A_OK, 0, aOk)] benchOst

theorem witness_LinkResults :
    ((linkB 2 0 1).boot.stopped = false ∧ (linkB 2 0 1).hokuke 0 = true ∧ bitAt ((linkB 2 0 1).rget .CAPS_OE_LANE_MASK 0) 7 = true ∧ (linkB 2 0 1).linkOpen 0 = true) ∧
    ((linkB 4 0 1).linkState 0 = 4 ∧ (linkB 4 0 1).clk.t ≤ ((linkB 4 0 1).link 0).since + 50 * usec ∧ ((linkB 4 0 1).link 0).switching = none) ∧
    (∀ x ∈ [(true, 0), (false, 1)], let b := linkB 2 (b2n x.1) x.2
      b.flag .CAPS_OE_PRESENT 0 = true ∧ b.flag (inputOk true) 0 = true ∧
      ((b.rset (inputOk true) 0 0).rset (inputPwr true) 0 5).flag (inputOk false) 0 = decide (x.2 = 1)) ∧
    (∀ x ∈ [0, 1], let b := linkB 2 x 1
      ((b.rset (inputOk true) 0 0).rset (inputPwr true) 0 5).flag (inputOk (!true)) 0 = true ∧
      ((b.rset (inputOk true) 0 0).rset (inputPwr true) 0 5).rget .OE_STATUS_INPUT 0 = x ∧
      (((b.rget .OE_CFG_LOSS_DBM 0 : Nat) : Int) * 100 ≤ (0x7FFF : BitVec 16).toInt)) ∧
    (let b := (linkB 4 0 1).setLink 0 { (linkB 4 0 1).link 0 with switching := some (5, false) }
     b.boot.stopped = false ∧ (b.link 0).switching = some (5, false)) ∧
    (∀ l ∈ [(0x0F : BitVec 8), 0xFF], let t : Trained := ⟨1, 0, 77, l, []⟩
     (linkB 1 0 1).hokuke 0 = true ∧ (linkB 1 0 1).linkState 0 = 1 ∧
     4 ≤ ((List.range 8).filter (fun l => t.lanes.getLsbD l && bitAt ((linkB 1 0 1).rget .CAPS_OE_LANE_MASK 0) l)).length ∧
     (linkB 1 0 1).clash 0 t = false) := by
  refine ⟨?_, ?_, ?_, ?_, ?_, ?_⟩
  all_goals decide +kernel

theorem witness_LinkResults_traffic :
    benchOst.boot.stopped = false ∧ benchOst.hokuke 0 = true ∧ benchOst.linkOpen 0 = true ∧ benchOst.net.silent = false ∧
    (setAll [(.GTIME_CFG_MEASURE_MS, 0, 1)] benchOst).rget .GTIME_CFG_MEASURE_MS ≠ 0 := by decide +kernel

def outM : OutMsg := ⟨1, 0, 0, .refuse 0⟩
def flightA (refused : Bool) (mac : Option Nat) : Flight :=
  { id := 4, out := outM, psn := 0, count := 2, acked := if refused then [0, 1] else [], sentT := 0, tries := 0, resent := 0, cmd := some 1,
    refused := refused, rnr := if refused then some 0 else none, rnrLast := 0, mac := mac, pay := 4096, cut := if mac.isSome then 1 else 2, short := none }
def flightB (f : Flight) : Block := { benchOst with net := { benchOst.net with flights := [f] } }

theorem witness_TransportResults :
    (benchOst.boot.stopped = false ∧ benchOst.net.silent = false ∧ (benchOst.takePsn none 1 0).2 = true ∧ (benchOst.takePsn (some 3) 1 0).2 = true) ∧
    (let b : Block := { benchOst with net := { benchOst.net with peers := [(1, { Peer.init with unacked := 1, sackT := some 0, rxAhead := [2] })] } }
     (b.peer 1).unacked ≠ 0 ∧ (b.peer 1).sackT = some 0 ∧ (b.peer 1).rxAhead ≠ []) ∧
    (let f := flightA false none
     (flightB f).net.flights.find? (fun f => decide (f.id = 4)) = some f ∧ f.count ≠ 0 ∧ (flightB f).reachable f.out.dst = true ∧ f.unacked ≠ []) ∧
    (let f := flightA true none
     (flightB f).net.flights.find? (fun f => decide (f.id = 4)) = some f ∧ f.refused = true ∧ f.whole = true ∧ f.rnr = some 0 ∧ f.cmd = some 1 ∧
     ((flightB f).advanceTo (f.rnrLast + 10 * usec)).clk.t < 0 + ((flightB f).advanceTo (f.rnrLast + 10 * usec)).rget .HOKUKE_CFG_RNR_US * usec ∧
     ((flightB f).advanceTo (f.rnrLast + 10 * usec)).reachable f.out.dst = true) ∧
    (let f := flightA false (some 2)
     (flightB f).net.flights.find? (fun f => decide (f.id = 4)) = some f ∧ f.mac = some 2 ∧ f.cut < f.count ∧ (flightB f).net.silent = false ∧
     (flightB f).notPaused 2 ((flightB f).framePri 2 f.out) = true) := by
  refine ⟨?_, ?_, ?_, ?_, ?_⟩
  all_goals decide +kernel

def portB : Block :=
  setAll [(.MAC_STATUS_LINK, 2, 1), (.MAC_CFG_RX_EN, 2, 1), (.MAC_PREEMPT_EN, 2, 1)]
    { benchOst with net := { benchOst.net with macs := [(2, { Mac.init with
        pauses := [⟨7, 0, 0⟩], xoffs := [⟨7, 0, 0⟩], holdoffs := [⟨7, true, 0⟩, ⟨7, false, 0⟩], rates := [⟨1, 100, 0, 0⟩] })] } }

theorem witness_PortResults :
    (portB.boot.stopped = false ∧ portB.macUsed 2 = true ∧ portB.flag .MAC_STATUS_LINK 2 = true ∧ benchOst.macUsed 2 = true ∧
      benchOst.flag .MAC_STATUS_LINK 2 = false ∧ portB.flag .MAC_CFG_RX_EN 2 = true) ∧
    ((portB.mac 2).pauses.find? (fun p => decide (p.pri = 7)) = some ⟨7, 0, 0⟩ ∧
      (let b : Block := { portB with clk := { portB.clk with t := portB.wdTime 2 } }
       0 + b.wdTime 2 ≤ max b.clk.t 0)) ∧
    ((portB.mac 2).xoffs.find? (fun x => decide (x.pri = 7)) = some ⟨7, 0, 0⟩) ∧
    (∀ tx : Bool, (portB.mac 2).holdoffs.find? (fun h => decide (h.pri = 7) && decide (h.tx = tx)) = some ⟨7, tx, 0⟩) ∧
    portB.verifying 2 = true ∧ (portB.mac 2).rates.find? (fun r => decide (r.rank = 1)) = some ⟨1, 100, 0, 0⟩ := by
  refine ⟨?_, ?_, ?_, fun tx => ?_, ?_, ?_⟩
  case refine_4 => cases tx <;> decide +kernel
  all_goals decide +kernel

/-! ### Witnesses: the machine, host registers, the vector engine's frame -/

/-- Whether a command answers a next state, and that state. -/
def isNext {σ φ ρ : Type} : Host.Outcome σ φ ρ → Bool
  | .next _ => true
  | _ => false

def after (o : Host.Outcome State Fault Refusal) (s : State) : State :=
  match o with
  | .next t => t
  | _ => s

theorem next_of {o : Host.Outcome State Fault Refusal} (s : State) (h : isNext o = true) : o = .next (after o s) := by
  cases o with
  | next t => rfl
  | _ => cases h

/-- A command answers a next state that has a property. -/
theorem answers_of {i : Instr} {s : State} {q : State → Prop} (h : isNext (exec i s) = true) (hq : q (after (exec i s) s)) :
    ∃ t, exec i s = .next t ∧ q t := ⟨_, next_of s h, hq⟩

theorem witness_StepRunsFront : (∃ (c : Instr) (rest : List Instr) (s : State), s.pending = c :: rest) ∧
    (let b := { bench with clk := { bench.clk with running := true } }
     b.clk.running = true ∧ b.clk.step = 0 ∧ b.clk.slew = 0 ∧ b.rget .GTIME_SLEW_RATE_PPB = 0 ∧ b.clk.g + 64 < 2 ^ 68) :=
  ⟨⟨.hitchResume, [], ⟨[.hitchResume], bench⟩, rfl⟩, by decide +kernel⟩

theorem witness_CommandsAnswer : (∀ off n v, Instr.hitchResume = .registerWrite off n v → off < 0x4000000) ∧
    (∀ off n v, Instr.registerWrite 0x3FFFFFC 4 0 = .registerWrite off n v → off < 0x4000000) ∧
    ∃ t, exec .hitchResume (stateOf bench) = .next t := by
  refine ⟨fun _ _ _ h => (by cases h), fun _ _ _ h => (by cases h; decide), ?_⟩
  obtain ⟨t, h, _⟩ := answers_of (i := .hitchResume) (s := stateOf bench) (q := fun _ => True) (by decide +kernel) trivial
  exact ⟨t, h⟩

/-- The stopped module, with a command at the front of its queue. -/
def stoppedAt (q : List Instr) : State := ⟨q, { bench with boot := { bench.boot with stopped := true } }⟩

theorem witness_StoppedModuleStays : ∀ q ∈ [[], [Instr.powerGoodFall 1], [.hitchResume, .powerGoodFall 0]],
    (stoppedAt q).blk.boot.stopped = true ∧ (∀ rest, (stoppedAt q).pending ≠ .powerGoodFall 0 :: rest) ∧ ∃ t, step (stoppedAt q) = .next t := by
  intro q hq
  simp only [List.mem_cons, List.not_mem_nil, or_false] at hq
  rcases hq with rfl | rfl | rfl <;> refine ⟨rfl, fun rest h => ?_, ⟨_, next_of (stateOf bench) (by decide +kernel)⟩⟩ <;> cases h

theorem witness_ModuleFaultStops :
    (let b : Block := { setAll [(.OSTLER_FAULT_STATUS_MODULE_FAULT, 0, 1)] bench with cmds := [cmdOf 0x0700 .nop] }
     startOf (.nop 1) = some 1 ∧ b.faulted = true ∧ b.findCmd 1 = some (cmdOf 0x0700 .nop) ∧ (cmdOf 0x0700 .nop).phase = .waiting ∧
     ostlerServes 0x0700 = false) ∧
    vxTileOf (.vxNop 63 (flds 0 0)) = some 63 := by decide +kernel

theorem witness_SerialOrder :
    (1 ≤ 1 ∧ 0 < 2 ^ 1 ∧ 1 < 2 ^ 1) ∧ (precedes 32 0xFFFFFFFF 0 = true ∧ precedes 32 0 0x7FFFFFFF = true) ∧
    (precedes 32 0 0x80000000 = false ∧ precedes 32 0x80000000 0 = false) ∧ precedes 1 0 1 = false := by decide +kernel

/-- A host write that is held off for each reason: the security mode, the boot, a missing unit. -/
theorem witness_HostWritesHeldOff :
    hostWriteOf (.spaogDb 255 0) = some (0x100000 + 64 * 255) ∧ hostWriteOf (.tileCfgWrite 63 0) = some (tileOffset 63 8) ∧
    (setAll [(.HITCH_STATUS_LINK_UP, 0, 0)] bench).flag .HITCH_STATUS_LINK_UP = false ∧
    (setAll [(.OSTLER_BOOT_STATUS_SECURITY, 0, 1)] bench).hostWrote.secureOk (0x100000 + 64 * 255) = false ∧
    ((setAll [(.OSTLER_BOOT_STATUS_READY, 0, 0)] bench).hostWrote.flag .OSTLER_BOOT_STATUS_READY = false ∧ earlyOffset (0x100000 + 64 * 255) = false) ∧
    bench.hostWrote.unitGone (tileOffset 63 8) = true := by decide +kernel

def benchMbx (full owner : Nat) : Block := setAll [(.MBX_STATUS_FULL, 15, full), (.MBX_STATUS_OWNER, 15, owner), (.MBX_TAKE_MSG, 15, 9)] bench

/-- Mailbox 15, empty and full, free and owned, for a host agent and for a core. -/
theorem witness_MailboxMessage : ∀ x ∈ [0, 1], (benchMbx x 63).boot.stopped = false ∧ (benchMbx x 63).flag .MBX_STATUS_FULL 15 = decide (x = 1) ∧
    (benchMbx x 63).Reaches 63 (mbxOffset 15 0) ∧ (benchMbx x 63).Reaches 67 (mbxOffset 15 0) ∧ (benchMbx x 63).HostReads (mbxOffset 15 8) ∧
    hostAgent 63 = true ∧ coreAgent 67 = true := by
  intro x h
  simp only [List.mem_cons, List.not_mem_nil, or_false] at h
  rcases h with rfl | rfl <;>
    exact ⟨by decide +kernel, by decide +kernel, .inl ⟨by decide, hostWrites_of (by decide +kernel)⟩, .inr (by decide), hostReads_of (by decide +kernel),
      by decide, by decide⟩

theorem witness_MailboxLock : ∀ o ∈ [0, 62, 63], (benchMbx 0 o).boot.stopped = false ∧ (benchMbx 0 o).rget .MBX_STATUS_OWNER 15 = o ∧
    (benchMbx 0 o).Reaches 63 (lockOffset 15 63) ∧ (benchMbx 0 o).HostReads (lockOffset 15 63) ∧ coreAgent 64 = true := by
  intro o h
  simp only [List.mem_cons, List.not_mem_nil, or_false] at h
  rcases h with rfl | rfl | rfl <;>
    exact ⟨by decide +kernel, by decide +kernel, .inl ⟨by decide, hostWrites_of (by decide +kernel)⟩, hostReads_of (by decide +kernel), by decide⟩

def benchRoute (cls idx bitsNow mask : Nat) : Block :=
  setAll [(.MBX_ROUTE_CLASS, 15, cls), (.MBX_ROUTE_INDEX, 15, idx), (.MBX_DB_BITS, 15, bitsNow), (.MBX_DB_MASK_MASK, 15, mask)] bench

theorem witness_MailboxInterrupt :
    (∀ x ∈ [(0, 1023), (1, 3), (2, 0)], (benchRoute x.1 x.2 0 0).boot.stopped = false ∧ (benchRoute x.1 x.2 0 0).mbxRaised 15 = false ∧
      ((benchRoute x.1 x.2 0 0).rget .MBX_DB_BITS 15 ||| 1) &&& (2 ^ 32 - 1 - (benchRoute x.1 x.2 0 0).rget .MBX_DB_MASK_MASK 15) ≠ 0 ∧
      (benchRoute x.1 x.2 0 0).rget .MBX_ROUTE_CLASS 15 = x.1 ∧ (x.1 = 1 → (benchRoute x.1 x.2 0 0).rget .MBX_ROUTE_INDEX 15 ≤ 3) ∧
      (x.1 = 2 → (benchRoute x.1 x.2 0 0).tileWorks ((benchRoute x.1 x.2 0 0).rget .MBX_ROUTE_INDEX 15) = true)) ∧
    (benchRoute 0 0 2 0).mbxRaised 15 = true ∧
    ((benchRoute 0 0 0 1).rget .MBX_DB_BITS 15 ||| 1) &&& (2 ^ 32 - 1 - (benchRoute 0 0 0 1).rget .MBX_DB_MASK_MASK 15) = 0 ∧
    (benchRoute 0 0 2 0).rget .MBX_DB_BITS 15 &&& (3 : BitVec 32).toNat = (benchRoute 0 0 2 0).rget .MBX_DB_BITS 15 ∧ coreAgent 64 = true := by
  decide +kernel

theorem witness_MailboxFrame : ∀ i ∈ [Instr.mbxLockRead 15 64, .mbxLockWrite 15 64, .mbxLockForce 15 64 true, .mbxMsg 15 64 0, .mbxTake 15 64, .mbxDb 15 64 1,
    .mbxDbAck 15 64 1, .mbxDbMask 15 64 1], ∃ t, exec i (stateOf bench) = .next t := by
  intro i h
  have h2 : [Instr.mbxLockRead 15 64, .mbxLockWrite 15 64, .mbxLockForce 15 64 true, .mbxMsg 15 64 0, .mbxTake 15 64, .mbxDb 15 64 1,
    .mbxDbAck 15 64 1, .mbxDbMask 15 64 1].all (fun i => isNext (exec i (stateOf bench))) = true := by decide +kernel
  exact ⟨_, next_of (stateOf bench) (List.all_eq_true.1 h2 i h)⟩

/-- A consume doorbell at the boundary: WRITTEN records are consumed, and one more. -/
theorem witness_ConsumeDoorbell : (let b := setAll [(.SPAOG_CQ_TAIL_WRITTEN, 255, 5)] bench
    b.boot.stopped = false ∧ (5 : BitVec 32).toNat = b.rget .SPAOG_CQ_TAIL_WRITTEN 255 ∧
    precedes 32 (4 : BitVec 32).toNat (b.rget .SPAOG_CQ_TAIL_WRITTEN 255) = true ∧
    precedes 32 (b.rget .SPAOG_CQ_TAIL_WRITTEN 255) (6 : BitVec 32).toNat = true ∧
    (0x80000005 : BitVec 32).toNat ≠ b.rget .SPAOG_CQ_TAIL_WRITTEN 255 ∧
    precedes 32 (0x80000005 : BitVec 32).toNat (b.rget .SPAOG_CQ_TAIL_WRITTEN 255) = false ∧
    precedes 32 (b.rget .SPAOG_CQ_TAIL_WRITTEN 255) (0x80000005 : BitVec 32).toNat = false) ∧
    (setAll [(.SPAOG_CQ_TAIL_WRITTEN, 255, 5)] bench).HostWrites (0x104000 + 64 * 255) :=
  ⟨by decide +kernel, hostWrites_of (by decide +kernel)⟩

/-- TILE_CFG of tile 0: LEGACY_ROWS 8 and 2,048 are accepted by an idle tile, 0, 7 and 2,056 are not, nor is any by a busy tile or one
with an open group. -/
theorem witness_TileConfigWrite :
    bench.boot.stopped = false ∧ bench.HostWrites (tileOffset 0 8) ∧
    (∀ rows ∈ [8, 2048], bits ((BitVec.ofNat 32 (4 * rows)).toNat) 2 12 = rows ∧ 8 ≤ rows ∧ rows ≤ 2048 ∧ rows % 8 = 0) ∧
    (∀ rows ∈ [0, 7, 2056], bits ((BitVec.ofNat 32 (4 * rows)).toNat) 2 12 = rows ∧ ¬(8 ≤ rows ∧ rows ≤ 2048 ∧ rows % 8 = 0)) ∧
    (bench.rget .TILE_STATUS_STATE 0 = 0 ∧ ∀ g ∈ (bench.tile 0).groups, g.2.isOpen = false) ∧
    ¬(∀ g ∈ (benchOpen.tile 0).groups, g.2.isOpen = false) ∧ (setAll [(.TILE_STATUS_STATE, 0, 1)] bench).rget .TILE_STATUS_STATE 0 ≠ 0 :=
  ⟨by decide +kernel, hostWrites_of (by decide +kernel), by decide +kernel, by decide +kernel, by decide +kernel, by decide +kernel, by decide +kernel⟩

theorem witness_HostRegisterFrame : ∀ i ∈ [Instr.spaogCqDb 255 0, .spaogSqHead 255 0, .cqEnableWrite 255 0, .spaogGate 4095 0, .tileCfgWrite 0 32, .tileFlagWrite 0 15 7,
    .tileVxCfgWrite 0 1, .macRawrxHead 2 1, .traceCtlTrigger, .curbPowerPeakRead, .droverFlipMaxNs], ∃ t, exec i (stateOf benchOst) = .next t := by
  intro i h
  have h2 : [Instr.spaogCqDb 255 0, .spaogSqHead 255 0, .cqEnableWrite 255 0, .spaogGate 4095 0, .tileCfgWrite 0 32, .tileFlagWrite 0 15 7,
    .tileVxCfgWrite 0 1, .macRawrxHead 2 1, .traceCtlTrigger, .curbPowerPeakRead, .droverFlipMaxNs].all (fun i => isNext (exec i (stateOf benchOst))) = true := by
    decide +kernel
  exact ⟨_, next_of (stateOf benchOst) (List.all_eq_true.1 h2 i h)⟩

theorem witness_CountersCleared : bench.boot.stopped = false ∧ bench.HostWrites 0x1801600 := ⟨by decide +kernel, hostWrites_of (by decide +kernel)⟩

/-- An instruction that computes and one that stores, in a kernel that goes on. -/
theorem witness_VxFrame :
    (vxPar (.vxNop 0 (flds 0 0)) = none ∧ ∃ t, exec (.vxNop 0 (flds 0 0)) (kernelOn kernP 0x00 (flds 0 0)) = .next t ∧
      (t.blk.tile 0).vx.cmd = ((kernelOn kernP 0x00 (flds 0 0)).blk.tile 0).vx.cmd) ∧
    (vxPar (.sst 0 (flds 0 0)) = none ∧ vxStoreRow (.sst 0 (flds 0 0)) = true ∧ ∃ t, exec (.sst 0 (flds 0 0)) (kernelOn kernP 0x37 (flds 0 0)) = .next t ∧
      (t.blk.tile 0).vx.cmd = ((kernelOn kernP 0x37 (flds 0 0)).blk.tile 0).vx.cmd) :=
  ⟨⟨rfl, answers_of (by decide +kernel) (by decide +kernel)⟩, rfl, rfl, answers_of (by decide +kernel) (by decide +kernel)⟩

theorem witness_VxStoreBytes : ∀ x ∈ [((0x31 : BitVec 8), Instr.vst 0 (flds 0 0)), (0x33, .vsts 0 (flds 0 0)), (0x35, .vstx 0 (flds 0 0)), (0x37, .sst 0 (flds 0 0))],
    (kernelOn kernP x.1 (flds 0 0)).blk.VxRuns (0 : Fin 64) x.1 (flds 0 0) 0 kernCmd kernP ∧ ∃ t, exec x.2 (kernelOn kernP x.1 (flds 0 0)) = .next t := by
  intro x h
  simp only [List.mem_cons, List.not_mem_nil, or_false] at h
  rcases h with rfl | rfl | rfl | rfl <;>
    exact ⟨vxRuns_of (by decide +kernel), _, next_of (stateOf bench) (by decide +kernel)⟩

theorem witness_LanesBelowVl : (flds 8 0).fm ≤ 8 ∧ (flds 0 0).fm ≤ 8 ∧ Vx.init.vl ≤ 512 := by decide +kernel

theorem witness_KernelStart : ∃ s c, State.live s ∧ s.blk.TileStarts 1 (.vkern kernP) c ∧ ∃ b, codeLoad c kernP (s.blk.entered 1 c) = (.ok (), b) := by
  obtain ⟨⟨s, c, h1, h2, h3, _⟩, _⟩ := witness_VxKernelResults
  obtain ⟨_, b, e⟩ := ok_of h3
  exact ⟨s, c, h1, h2, b, e⟩

/-! ### Values of the spec's worked examples and tables -/

/-- Chapter 04: 21.0 to E4M3 by RNE, RNA and SR; 500.0 with SAT 1 and 0, and to E5M2; 2^−11. -/
theorem test_convert_example :
    cvtCode 0 3 .rne true 0x41A80000 = ⟨0x5A, false, false⟩ ∧ (cvtCode 0 3 .rna true 0x41A80000).code = 0x5B ∧
    (cvtCode 0 3 (.sr 32767) true 0x41A80000).code = 0x5B ∧ (cvtCode 0 3 (.sr 32768) true 0x41A80000).code = 0x5A ∧
    cvtCode 0 3 .rne true 0x43FA0000 = ⟨0x7E, true, false⟩ ∧ cvtCode 0 3 .rne false 0x43FA0000 = ⟨0x7F, true, false⟩ ∧
    cvtCode 0 4 .rne true 0x43FA0000 = ⟨0x60, false, false⟩ ∧ cvtCode 0 3 .rne true 0x3A000000 = ⟨0, false, true⟩ := by decide +kernel

/-- Chapter 06, "Worked kernel": the seed of a group whose greatest magnitude is 3.5, and 1.3 and 3.5 at that scale. -/
theorem test_seed_example :
    seedScale [fp32.decode 0x3FA66666, fp32.decode 0xC0600000] 3 0 = (0x3C000000, false) ∧
    (cvtCode 0 3 .rne true (divF32 0x3FA66666 0x3C000000)).code = 0x72 ∧ (cvtCode 0 3 .rne true (divF32 0x40600000 0x3C000000)).code = 0x7E := by
  decide +kernel

/-- Chapter 06: word 5 of the worked kernel, VQNT. -/
theorem test_vx_word5 :
    vxDecode 0x0001004300300282 = ⟨2, 0, 3, 0, 3, 0, 1, 0, 0x100⟩ ∧ vxOpcode 0x0001004300300282 = 0x82 ∧
    vxEncode 0x82 ⟨2, 0, 3, 0, 3, 0, 1, 0, 0x100⟩ = 0x0001004300300282 := by decide +kernel

/-- Chapter 05: a MATMUL of M = 256, N = 128, K = 2,048 in BF16 takes 160 + 8,192 cycles; slots of 96 tile rows. -/
theorem test_matmul_example :
    160 + MatmulParams.cycles { matP with m := 256, n := 128, k := 2048, fmtA := 1, fmtB := 1 } = 8352 ∧
    AccMode.slots ⟨true, false, 96⟩ = 21 ∧ AccMode.slots ⟨true, true, 96⟩ = 42 := by decide +kernel

/-- Chapter 07: where MPA 0x0012_3456_7A40 lies in a guarded frame, and its tags. -/
theorem test_place_example :
    (let b : Block := { bench with mem := { bench.mem with frames := [(4660, ⟨true, some 255⟩)] } }
     b.place 0x1234567A40 = some ⟨⟨1, 20, 2382005⟩, some ⟨5, 20, 2382005⟩, 4660, 6325⟩) ∧
    (⟨1, 20, 2382005⟩ : Slot).tag = 0xD9902651 ∧ (⟨5, 20, 2382005⟩ : Slot).tag = 0xD9902655 := by decide +kernel

/-- Chapter 11: table row 77 of table 9 has key 0x0000_0900_0000_004D and falls in set 95. -/
theorem test_key_example : keyOf 9 77 = 0x000009000000004D ∧ sbSet 0 (keyOf 9 77) = 95 := by decide +kernel

/-- Chapter 10: the record sizes of its table for W = 128. -/
theorem test_record_example :
    TableParams.recBytes { tabP with width := 128, fmt := 2, rule := 6, master := false } = 320 ∧
    TableParams.recBytes { tabP with width := 128, fmt := 2, rule := 4, stateFmt := 1, master := false } = 832 ∧
    TableParams.recBytes { tabP with width := 128, fmt := 5, rule := 1, master := false } = 192 ∧
    TableParams.recBytes { tabP with width := 128, fmt := 1, rule := 5, stateFmt := 0, master := true } = 1280 := by decide +kernel

/-- Chapter 15: 64 exchanges of its example give OE_PEER_OFFSET 19,752 and OE_PEER_DELAY 8,640. -/
theorem test_measure_example :
    (let b := bench.measureLink 0 (List.replicate 64 ⟨160000, 188392, 188800, 177688⟩)
     b.rget .OE_PEER_OFFSET_VALUE 0 = 19752 ∧ b.rget .OE_PEER_DELAY_VALUE 0 = 8640) := by decide +kernel

/-- Chapter 03: the lock and the message of MBX_3, step by step. -/
theorem test_mailbox_example :
    (let s1 := after (exec (.mbxLockRead 3 5) (stateOf bench)) (stateOf bench)
     let s2 := after (exec (.mbxMsg 3 5 0x42) s1) s1
     let s3 := after (exec (.mbxLockWrite 3 5) s2) s2
     s1.blk.out.reads = [bytesOf 4 0] ∧ s1.blk.rget .MBX_STATUS_OWNER 3 = 5 ∧ s2.blk.rget .MBX_STATUS_FULL 3 = 1 ∧
     s2.blk.rget .MBX_DB_BITS 3 = 2 ^ 31 ∧ s3.blk.rget .MBX_STATUS_OWNER 3 = 0 ∧ (s3.blk.mbxTakeOut 3).1 = 0x100000042) := by decide +kernel

/-- Chapter 01: STACK_5 loses channel 9. -/
theorem test_mapout_example :
    (let b := bench.mapoutPcs 5 [18, 19]
     b.rget .CAPS_CHANNEL_MASK_CHANNEL 5 = 0xFDFF ∧ b.rget .CAPS_CHANNEL_MASK_PSEUDO 5 = 0xFFFFFFFF - 2 ^ 18 - 2 ^ 19 ∧ b.rget .CAPS_COUNTS_CHANNELS = 0x7F ∧
     b.word .CAPS_MEM_RAW 0 * 4 = 1143 * 2 ^ 30) := by decide +kernel

/-- Chapter 00: the bytes of 0x0000_0040_0000_1000; serial numbers compare across the wrap (R9). -/
theorem test_order_example :
    bytesOf 8 0x0000004000001000 = [0x00, 0x10, 0x00, 0x00, 0x40, 0x00, 0x00, 0x00] ∧ precedes 32 0xFFFFFFFE 1 = true ∧ precedes 32 1 0xFFFFFFFE = false := by
  decide +kernel

/-- Chapter 10: SORT_DEDUP's and SCATTER_UPDATE's sums of its example: 0.25 + 0.5 × (−1.5) = −0.5, and −0.5 + 0.25 = −0.25. -/
theorem test_gradient_example :
    addF32 0x3E800000 (mulF32 0x3F000000 0xBFC00000) = 0xBF000000 ∧ addF32 0xBF000000 0x3E800000 = 0xBE800000 := by decide +kernel

/-- Chapter 12: SLOT_BYTES of its example, and its clip limit of 1.0 × (1 + 0.05) in FP32. -/
theorem test_shard_example :
    ShardParams.slotBytes { shardP with elems := 524288, rule := 4, wfmt := 1, stateFmt := 0, mode := 1 } = 7340096 ∧
    (setAll [(.FARRIER_CLIP_CFG_THRESH, 3, 0x3F800000), (.FARRIER_CLIP_CFG_TOL, 3, 0x3D4CCCCD)] bench).lagLimit 3 = 0x3F866666 := by decide +kernel

/-- The check values of CRC-32C and CRC-32 for the digits 1 to 9. -/
theorem test_crc : crc32c [0x31, 0x32, 0x33, 0x34, 0x35, 0x36, 0x37, 0x38, 0x39] = 0xE3069283 ∧
    crc32 [0x31, 0x32, 0x33, 0x34, 0x35, 0x36, 0x37, 0x38, 0x39] = 0xCBF43926 := by decide +kernel

/-- A MIGRATE packet, written out from chapter 09's encoding: OBJ 0x0102, TIER 1, LEND 15; and a MAP packet. -/
theorem test_packet_drover :
    parseParams 0x0603 1 (List.replicate 16 0 ++ [0x02, 0x01, 0x01, 0x0F] ++ List.replicate 44 0) = .migrate ⟨0x0102, 1, 15⟩ ∧
    parseParams 0x0601 1 (List.replicate 16 0 ++ [0, 0, 0x20, 0, 0, 0, 0, 0xFF, 0, 0, 1, 0, 0, 0, 0, 0, 7, 0, 0x15, 2, 3] ++ List.replicate 27 0) =
      .map ⟨0x200000, 0x10000, 7, true, false, true, false, true, 2, 3⟩ := by decide +kernel

/-- DROVER_CFG and DROVER_TIMEOUT at power-up, from chapter 09's tables; a write out of range is stored as the nearer limit. -/
theorem test_drover_registers :
    State.reset.blk.word .DROVER_CFG 0 = 0x000A006410208008 ∧ State.reset.blk.word .DROVER_TIMEOUT 0 = 0x00320064 ∧
    (let s := after (exec (.registerWrite 0xC00008 8 0x006300002100C800) (stateOf bench)) (stateOf bench)
     s.blk.rget .DROVER_CFG_MAX_PASSES = 1 ∧ s.blk.rget .DROVER_CFG_FLIP_LOCAL = 128) := by decide +kernel

/-- A tile's flag, a gate and a doorbell take what the host writes (R62, R70, R144). -/
theorem test_host_writes :
    (let s := after (exec (.tileFlagWrite 0 15 0xFFFFFFFF) (stateOf bench)) (stateOf bench)
     s.blk.flagVal 0 15 = 0xFFFFFFFF ∧ (s.blk.flagUp 0 15).flagVal 0 15 = 0) ∧
    (let s := after (exec (.spaogDb 9 0x80) (stateOf bench)) (stateOf bench)
     s.blk.rget .PERF_DOORBELLS_COUNT = 1) := by decide +kernel

/-- A scalar addition wraps, an arithmetic shift keeps the sign, and S0 takes nothing (R165, chapter 06's table). -/
def kernelWith (op : BitVec 8) (f : VxFields) (g : Vx → Vx) : State :=
  let s := kernelOn kernP op f
  { s with blk := s.blk.onTile 0 (fun t => { t with vx := g t.vx }) }

def ran (i : Instr) (s : State) : Vx := ((after (exec i s) s).blk.tile 0).vx

theorem test_vx_scalar :
    (let f : VxFields := ⟨3, 1, 2, 0, 0, 0, 0, 0, 0⟩
     let x := fun v w (x : Vx) => (x.setS 1 v).setS 2 w
     (ran (.sadd 0 f) (kernelWith 0x10 f (x 0xFFFFFFFFFFFFFFFF 2))).sreg 3 = 1 ∧
     (ran (.ssub 0 f) (kernelWith 0x11 f (x 1 2))).sreg 3 = 0xFFFFFFFFFFFFFFFF ∧
     (ran (.ssra 0 f) (kernelWith 0x16 f (x 0x8000000000000000 4))).sreg 3 = 0xF800000000000000 ∧
     (ran (.sadd 0 { f with d := 0 }) (kernelWith 0x10 { f with d := 0 } (x 5 2))).sreg 0 = 0) := by decide +kernel

/-- VADD in FP32 adds the elements below VL, 1.0 + 2.0 = 3.0, and leaves word VL (R169). -/
theorem test_vx_add :
    (let f : VxFields := ⟨3, 1, 2, 0, 0, 0, 0, 0, 0⟩
     let g := fun x : Vx => (({ x with vl := 2 } : Vx).setWord 1 1 0x3F800000).setWord 2 1 0x40000000
     let y := ran (.vadd 0 f 0) (kernelWith 0x40 f g)
     y.word 3 1 = 0x40400000 ∧ y.word 3 0 = 0 ∧ y.word 3 2 = 0 ∧ y.pc = 1) := by decide +kernel

/-- The Vat's atomics (R236): an integer ADD wraps, MIN is signed, CAS stores on equality alone. -/
theorem test_atomics :
    atomicBytes 0 7 [2, 0, 0, 0] [] [0xFF, 0xFF, 0xFF, 0xFF] = [1, 0, 0, 0] ∧
    atomicBytes 1 7 [0xFF, 0xFF, 0xFF, 0xFF] [] [1, 0, 0, 0] = [0xFF, 0xFF, 0xFF, 0xFF] ∧
    atomicBytes 7 7 [9, 0, 0, 0] [1, 0, 0, 0] [1, 0, 0, 0] = [9, 0, 0, 0] ∧ atomicBytes 7 7 [9, 0, 0, 0] [2, 0, 0, 0] [1, 0, 0, 0] = [1, 0, 0, 0] := by
  decide +kernel

/-- Simultaneous events apply by rank and source: link losses (rank 2) by engine, a packet fetch (rank 6), host writes last (R19, R21). -/
theorem test_event_order :
    bench.orderTick [.hitchResume, .packetFetch 0 0, .lossOfSignal 1, .lossOfSignal 0] =
      [.lossOfSignal 0, .lossOfSignal 1, .packetFetch 0 0, .hitchResume] := by decide +kernel

end Sys2Proof.Machine
end

section
/-! SUPPORT. The rows that are a host access: which offset each reaches and what it does there. Completion and frame of every such
row follow from its one equation. -/

namespace Sys2Proof.Machine

/-! ### Rows that are a host access -/

/-- Command `i` is a host write to BAR0 offset `off` with effect `f` (R5, R26). -/
def IsHostWrite (i : Instr) (off : Nat) (f : Block → Block) : Prop :=
  ∀ s : State, exec i s = s.run (fun b => b.barWrite off f)

/-- Command `i` is a host read of `n` bytes at BAR0 offset `off`, whose answer and block `f` gives (R5, R26). -/
def IsHostRead (i : Instr) (off n : Nat) (f : Block → Nat × Block) : Prop :=
  ∀ s : State, exec i s = s.run (fun b => b.barRead off n f)

theorem IsHostWrite.does {i : Instr} {off : Nat} {f : Block → Block} (h : IsHostWrite i off f) : HostDoes i off f := by
  intro s hl hw
  rw [h s, State.run_live hl, Block.barWrite_reaches hw]

theorem IsHostRead.gets {i : Instr} {off n : Nat} {f : Block → Nat × Block} (h : IsHostRead i off n f) : HostGets i off n f := by
  intro s hl hr
  rw [h s, State.run_live hl, Block.barRead_reaches hr]

/-- A host write changes the registers that its effect changes, and what signals. -/
theorem IsHostWrite.frame {i : Instr} {off : Nat} {f : Block → Block} {rs : List (Fld × Nat)} {s t : State} (h : IsHostWrite i off f)
    (hf : ∀ b : Block, b.OnlyRegs rs (f b)) (e : exec i s = .next t) : s.blk.OnlyRegs rs t.blk :=
  State.run_next_only ((h s).symm.trans e) rs (Block.barWrite_only (hf _))

/-- A host read changes the registers that its effect changes, and what signals. -/
theorem IsHostRead.frame {i : Instr} {off n : Nat} {f : Block → Nat × Block} {rs : List (Fld × Nat)} {s t : State}
    (h : IsHostRead i off n f) (hf : ∀ b : Block, b.OnlyRegs rs (f b).2) (e : exec i s = .next t) : s.blk.OnlyRegs rs t.blk :=
  State.run_next_only ((h s).symm.trans e) rs (Block.barRead_only (hf _))

/-! ### Rows with a condition -/

/-- Command `i` has effect `f` where condition `p` holds, and none elsewhere. -/
def IsGuarded (i : Instr) (p : Block → Bool) (f : Block → Block) : Prop :=
  ∀ s : State, exec i s = s.run (fun b => if p b then f b else b)

theorem IsGuarded.does {i : Instr} {p : Block → Bool} {f : Block → Block} {s : State} (h : IsGuarded i p f) (hl : s.live)
    (hp : p s.blk = true) : exec i s = .next (s.withBlk (f s.blk)) := by
  rw [h s, State.run_live hl, if_pos hp]

/-! ### The rings' and gates' registers -/

theorem spaogCqDb_isHostWrite (q : Fin 256) (v : BitVec 32) :
    IsHostWrite (.spaogCqDb q v) (0x104000 + 64 * q.val) (fun b => b.cqConsume q v.toNat) := fun _ => rfl
theorem spaogSqHead_isHostWrite (q : Fin 256) (v : BitVec 64) :
    IsHostWrite (.spaogSqHead q v) (sqOffset q 16) (fun b => b.writeSqHead q v.toNat) := fun _ => rfl
theorem cqEnableWrite_isHostWrite (q : Fin 256) (v : BitVec 64) :
    IsHostWrite (.cqEnableWrite q v) (0x112010 + 32 * q.val) (fun b => b.writeCqCfg q v.toNat) := fun _ => rfl
theorem spaogGate_isHostWrite (g : Fin 4096) (v : BitVec 64) :
    IsHostWrite (.spaogGate g v) (0x120000 + 8 * g.val) (fun b => b.writeGate g v.toNat) := fun _ => rfl

/-! ### The tiles' registers -/

theorem tileCfgWrite_isHostWrite (n : Fin 64) (v : BitVec 32) :
    IsHostWrite (.tileCfgWrite n v) (tileOffset n 8) (fun b => b.writeTileCfg n v.toNat) := fun _ => rfl
theorem tileCtlRelease_isHostWrite (n : Fin 64) :
    IsHostWrite (.tileCtlRelease n) (tileOffset n 0x10) (fun b => b.tileRelease n) := fun _ => rfl
theorem tileCtlFlush_isHostWrite (n : Fin 64) :
    IsHostWrite (.tileCtlFlush n) (tileOffset n 0x10) (fun b => b.tileFlush n) := fun _ => rfl
theorem tileFlagWrite_isHostWrite (n : Fin 64) (k : Fin 16) (v : BitVec 32) :
    IsHostWrite (.tileFlagWrite n k v) (tileOffset n (0x100 + 8 * k.val)) (fun b => b.rset .TILE_FLAG_VALUE (flagIdx n k) v.toNat) :=
  fun _ => rfl
theorem tileVxCfgWrite_isHostWrite (n : Fin 64) (v : BitVec 32) :
    IsHostWrite (.tileVxCfgWrite n v) (tileOffset n 0x60) (fun b => b.vxCfg n v.toNat) := fun _ => rfl

/-! ### The Hitch, the Vat, the stacks and the ports -/

theorem hitchResume_isHostWrite : IsHostWrite .hitchResume 0x200018 (fun b => if b.cutActive then b.resume else b) := fun _ => rfl
theorem msixUnmask_isHostWrite (n : Fin 1024) :
    IsHostWrite (.msixUnmask n) (0x24000C + 16 * n.val) (fun b => (b.rset .MSIX_CTL_MASK n 0).sendPending) := fun _ => rfl
theorem vatKeepRelease_isHostWrite (n : Fin 16) : IsHostWrite (.vatKeepRelease n) 0x800010 (fun b => b.keepRelease n) := fun _ => rfl
theorem forceMapout_isHostWrite (n : Fin 8) (pc : Fin 32) :
    IsHostWrite (.forceMapout n pc) (0xA00018 + 0x40000 * n.val) (fun b => b.mapoutPcs n [pc.val]) := fun _ => rfl
theorem macRawtxTail_isHostWrite (m : Fin 16) (v : BitVec 32) :
    IsHostWrite (.macRawtxTail m v) (macBase m + 0xF0) (fun b => (b.rset .MAC_RAWTX_TAIL_POSTED m v.toNat).rawSend m) := fun _ => rfl
theorem macRawrxHead_isHostWrite (m : Fin 16) (v : BitVec 32) :
    IsHostWrite (.macRawrxHead m v) (macBase m + 0xD0) (fun b => b.rset .MAC_RAWRX_HEAD_CONSUMED m v.toNat) := fun _ => rfl
theorem macTxtsPop_isHostRead (m : Fin 16) : IsHostRead (.macTxtsPop m) (macBase m + 0xA0) 4
    (fun b => (b.word .MAC_TXTS_POP m, (b.onMac m (fun x => { x with txts := x.txts.drop 1 })).showTxts m)) := fun _ => rfl

/-! ### Trace, time, counters and the maxima that a read clears -/

theorem traceCtlTrigger_isHostWrite : IsHostWrite .traceCtlTrigger 0x1800020 (fun b => b.trigger 2) := fun _ => rfl
theorem gtimeStep_isHostWrite (v : BitVec 64) : IsHostWrite (.gtimeStep v) 0x1800108 (fun b => b.gtimeStep v) := fun _ => rfl
theorem perfCtlClear_isHostWrite (v : BitVec 64) :
    IsHostWrite (.perfCtlClear v) 0x1801600 (fun b => b.perfClear v.toNat) := fun _ => rfl
theorem curbPowerPeakRead_isHostRead : IsHostRead .curbPowerPeakRead 0x1D00000 8
    (fun b => (b.word .CURB_POWER 0, b.rset .CURB_POWER_PEAK_MW_K 0 0)) := fun _ => rfl
theorem ostlerInterruptMaxNs_isHostRead : IsHostRead .ostlerInterruptMaxNs (RegId.offset .OSTLER_INTERRUPT_MAX_NS 0) 8
    (fun b => (b.rget .OSTLER_INTERRUPT_MAX_NS_COUNT, b.rset .OSTLER_INTERRUPT_MAX_NS_COUNT 0 0)) := fun _ => rfl
theorem droverFlipMaxNs_isHostRead : IsHostRead .droverFlipMaxNs (RegId.offset .DROVER_FLIP_MAX_NS 0) 8
    (fun b => (b.rget .DROVER_FLIP_MAX_NS_COUNT, b.rset .DROVER_FLIP_MAX_NS_COUNT 0 0)) := fun _ => rfl

/-! ### Curb -/

theorem curbSample_isGuarded (mw : Nat) (g v : Fin 49) :
    IsGuarded (.curbSample mw g v) (fun b => b.clk.running) (fun b => (b.curbTake mw).curbDecide mw g v) := fun _ => rfl
theorem thermalSample_isGuarded (temps : List (BitVec 16)) (g v : Fin 49) :
    IsGuarded (.thermalSample temps g v) (fun b => b.clk.running) (fun b => (b.tempTake temps).thermalWarn.thermalThrottle g v) :=
  fun _ => rfl
theorem thermalTrip_isGuarded : IsGuarded .thermalTrip (fun b => b.boot.pgAux)
    (fun b => ((Block.curbAction { b with out := { b.out with thermtrip := true } } 8).sbAlert 1).emergency 0) := fun _ => rfl
theorem avsAckTimeout_isGuarded (rail : Fin 2) : IsGuarded (.avsAckTimeout rail) (fun b => b.boot.pgAux)
    (fun b => Block.emergency { b with boot := { b.boot with avsStopped := true } } rail.val) := fun _ => rfl

/-! ### REGISTER_WRITE -/

/-- An aligned write of 4 or 8 bytes inside BAR0 is a host write of its low bytes (R26, R27). -/
theorem registerWrite_does {off n : Nat} (v : BitVec 64) (ho : off < 0x4000000) (hn : n = 4 ∨ n = 8) (ha : off % n = 0) :
    HostDoes (.registerWrite off n v) off (fun b => b.bar0Write off n (v.toNat % 2 ^ (8 * n))) := by
  intro s hl hw
  show execRegisterWrite off n v s = _
  unfold execRegisterWrite
  rw [if_neg (Nat.not_le.mpr ho), State.run_live hl, if_pos ⟨hn, ha⟩, Block.barWrite_reaches hw]

end Sys2Proof.Machine
end

section
/-! SUPPORT. What the writers of plain registers change: the fields of one ring, gate or tile. -/

namespace Sys2Proof.Machine
open Block.OnlyRegs

/-- A consumption report changes the ring's consumed count alone (R86). -/
theorem Block.cqConsume_only (b : Block) (q v : Nat) : b.OnlyRegs [(.SPAOG_CQ_HEAD_CONSUMED, q)] (b.cqConsume q v) := by
  unfold Block.cqConsume
  exact ite (fun _ => Block.accessError_only _ _ _ _ _ _ _)
    (fun _ => ite (fun _ => Block.rset_only (by decide) (by simp) b _) (fun _ => refl _ _))

/-- A write of SPAOG_SQ_HEAD changes the position to fetch from, and nothing while the ring is enabled (R71). -/
theorem Block.writeSqHead_only (b : Block) (q v : Nat) :
    b.OnlyRegs [(.SPAOG_SQ_HEAD_SEQ, q), (.SPAOG_SQ_HEAD_POS, q), (.SPAOG_SQ_DBVAL_LIMIT, q)] (b.writeSqHead q v) := by
  unfold Block.writeSqHead
  refine ite (fun _ => refl _ _) (fun _ => ?_)
  exact ((Block.rset_only (by decide) (by simp) b _).trans (Block.rset_only (by decide) (by simp) _ _)).trans
    (Block.rset_only (by decide) (by simp) _ _)

/-- The fields of SPAOG_CQ_CFG of ring `q`. -/
def cqCfgFields (q : Nat) : List (Fld × Nat) :=
  [(.SPAOG_CQ_CFG_ENABLE, q), (.SPAOG_CQ_CFG_SIZE_LOG2, q), (.SPAOG_CQ_CFG_VECTOR, q), (.SPAOG_CQ_CFG_COAL_COUNT, q),
   (.SPAOG_CQ_CFG_COAL_TIME, q), (.SPAOG_CQ_CFG_CTX, q), (.SPAOG_CQ_CFG_FAULT, q), (.SPAOG_CQ_CFG_LOST, q)]

theorem Block.rset_cqCfg {f : Fld} (hf : f.fits = true) {q : Nat} (h : (f, q) ∈ cqCfgFields q) (b : Block) (v : Nat) :
    b.OnlyRegs (cqCfgFields q) (b.rset f q v) := Block.rset_only hf h b v

/-- A write of SPAOG_CQ_CFG changes its ring's fields, whether the locked ones take, are refused or stand (R62, R87). -/
theorem Block.writeCqCfg_only (b : Block) (q v : Nat) : b.OnlyRegs (cqCfgFields q) (b.writeCqCfg q v) := by
  unfold Block.writeCqCfg
  extract_lets b₁ was same b₂ ok b₃
  have h₁ : b.OnlyRegs (cqCfgFields q) b₁ := ((Block.rset_cqCfg (by decide) (by simp [cqCfgFields]) b _).trans
    (Block.rset_cqCfg (by decide) (by simp [cqCfgFields]) _ _)).trans (Block.rset_cqCfg (by decide) (by simp [cqCfgFields]) _ _)
  have h₂ : b₁.OnlyRegs (cqCfgFields q) b₂ :=
    (Block.rset_cqCfg (by decide) (by simp [cqCfgFields]) b₁ _).trans (Block.rset_cqCfg (by decide) (by simp [cqCfgFields]) _ _)
  refine h₁.trans (ite (fun _ => refl _ _) (fun _ => ite (fun _ => Block.accessError_only _ _ _ _ _ _ _) (fun _ => h₂.trans ?_)))
  refine ite (fun _ => ?_) (fun _ => Block.rset_cqCfg (by decide) (by simp [cqCfgFields]) _ _)
  have h₃ : b₂.OnlyRegs (cqCfgFields q) b₃ := Block.rset_cqCfg (by decide) (by simp [cqCfgFields]) b₂ _
  exact h₃.trans (ite (fun _ => refl _ _) (fun _ =>
    (Block.rset_cqCfg (by decide) (by simp [cqCfgFields]) b₃ _).trans (Block.rset_cqCfg (by decide) (by simp [cqCfgFields]) _ _)))

/-- A gate's write changes its value, context and enable bit (R70). -/
theorem Block.writeGate_only (b : Block) (g v : Nat) :
    b.OnlyRegs [(.SPAOG_GATE_VALUE, g), (.SPAOG_GATE_CTX, g), (.SPAOG_GATE_ENABLE, g)] (b.writeGate g v) :=
  ((Block.rset_only (by decide) (by simp) b _).trans (Block.rset_only (by decide) (by simp) _ _)).trans
    (Block.rset_only (by decide) (by simp) _ _)

/-- A write of TILE_CFG changes the tile's configuration, or CFG_REJECT alone (R148). -/
theorem Block.writeTileCfg_only (b : Block) (n v : Nat) : b.OnlyRegs
    [(.TILE_CFG_ACC_MODE, n), (.TILE_CFG_LEGACY_BF16, n), (.TILE_CFG_LEGACY_ROWS, n), (.TILE_STATUS_ACC_MODE, n),
     (.TILE_STATUS_CFG_REJECT, n)] (b.writeTileCfg n v) := by
  unfold Block.writeTileCfg
  refine ite (fun _ => ?_) (fun _ => Block.rset_only (by decide) (by simp) b _)
  exact ((Block.rset_only (by decide) (by simp) b _).trans (Block.rset_only (by decide) (by simp) _ _)).trans
    ((Block.rset_only (by decide) (by simp) _ _).trans (Block.rset_only (by decide) (by simp) _ _))

/-- A write of TILE_VX_CFG changes the tile's service settings, or CFG_REJECT alone (R189). -/
theorem Block.vxCfg_only (b : Block) (n v : Nat) :
    b.OnlyRegs [(.TILE_VX_CFG_SVC_EN, n), (.TILE_VX_CFG_SHARE, n), (.TILE_STATUS_CFG_REJECT, n)] (b.vxCfg n v) := by
  unfold Block.vxCfg
  refine ite (fun _ => Block.rset_only (by decide) (by simp) b _) (fun _ => ?_)
  exact (Block.rset_only (by decide) (by simp) b _).trans (Block.rset_only (by decide) (by simp) _ _)

end Sys2Proof.Machine
end

section
/-! SUPPORT. Serial order (R9) through the distance from one value to the other, which is a residue. -/

namespace Sys2Proof.Machine

/-- The distance from `a` to `b` modulo 2^n, as R9 writes it. -/
def serialDist (n a b : Nat) : Int := ((b : Int) - a) % 2 ^ n

theorem serialDist_lt (n a b : Nat) : serialDist n a b < 2 ^ n := Int.emod_lt_of_pos _ (by positivity)

/-- The distance is the number that the model's `precedes` looks at. -/
theorem serialDist_eq_cast {n a b : Nat} (ha : a < 2 ^ n) :
    serialDist n a b = ((b + 2 ^ n - a % 2 ^ n) % 2 ^ n : Nat) := by
  have hsub : ((b + 2 ^ n - a : Nat) : Int) = (b : Int) - a + 2 ^ n := by
    rw [Nat.cast_sub (by omega)]
    push_cast
    ring
  rw [Nat.mod_eq_of_lt ha, Int.natCast_emod, hsub]
  push_cast
  rw [Int.add_emod_right, serialDist]

theorem precedes_iff {n a b : Nat} (ha : a < 2 ^ n) :
    precedes n a b = true ↔ 1 ≤ serialDist n a b ∧ serialDist n a b ≤ 2 ^ (n - 1) - 1 := by
  have hhalf : ((2 ^ (n - 1) : Nat) : Int) = 2 ^ (n - 1) := by norm_cast
  have hpos : 0 < 2 ^ (n - 1) := Nat.two_pow_pos _
  rw [serialDist_eq_cast ha, ← hhalf]
  simp only [precedes, Bool.and_eq_true, decide_eq_true_eq]
  omega

theorem serialDist_self (n a : Nat) : serialDist n a a = 0 := by simp [serialDist]

/-- Between two values that differ, the two distances make one full turn. -/
theorem serialDist_add_swap {n a b : Nat} (ha : a < 2 ^ n) (hb : b < 2 ^ n) (h : a ≠ b) :
    serialDist n a b + serialDist n b a = 2 ^ n := by
  have hfull : ((2 ^ n : Nat) : Int) = 2 ^ n := by norm_cast
  unfold serialDist
  rw [← hfull]
  rcases Nat.lt_or_gt_of_ne h with hab | hab
  · rw [Int.emod_eq_of_lt (by omega) (by omega), ← Int.add_emod_right, Int.emod_eq_of_lt (by omega) (by omega)]
    omega
  · rw [Int.emod_eq_of_lt (a := (a : Int) - b) (by omega) (by omega), ← Int.add_emod_right, Int.emod_eq_of_lt (by omega) (by omega)]
    omega

end Sys2Proof.Machine
end

section
/-! The obligations on host accesses, Curb's rows and serial arithmetic, settled. -/

namespace Sys2Proof.Machine

/-- Settles O29: each row is a host write or read with the effect named, and one that reaches its register has it. -/
theorem hostWriteResults : Obligations.HostWriteResults :=
  ⟨fun n v => (tileCfgWrite_isHostWrite n v).does,
   fun n => (tileCtlRelease_isHostWrite n).does,
   fun n => (tileCtlFlush_isHostWrite n).does,
   fun n k v => (tileFlagWrite_isHostWrite n k v).does,
   fun n v => (tileVxCfgWrite_isHostWrite n v).does,
   hitchResume_isHostWrite.does,
   fun n => (msixUnmask_isHostWrite n).does,
   fun n => (vatKeepRelease_isHostWrite n).does,
   fun n pc => (forceMapout_isHostWrite n pc).does,
   fun m v => (macRawtxTail_isHostWrite m v).does,
   fun m v => (macRawrxHead_isHostWrite m v).does,
   fun m => (macTxtsPop_isHostRead m).gets,
   traceCtlTrigger_isHostWrite.does,
   fun v => (gtimeStep_isHostWrite v).does,
   fun v => (perfCtlClear_isHostWrite v).does,
   fun _ v ho => ⟨registerWrite_does v ho (.inl rfl), registerWrite_does v ho (.inr rfl)⟩⟩

/-- Settles O33: samples act while the clock runs, the thermal trip and a silent regulator while PG_AUX stands, and a maximum is
read as any register of the host's. -/
theorem curbResults : Obligations.CurbResults :=
  ⟨fun _ hl hclk => ⟨fun mw g v => (curbSample_isGuarded mw g v).does hl hclk,
     fun temps g v => (thermalSample_isGuarded temps g v).does hl hclk⟩,
   fun _ hl haux => ⟨thermalTrip_isGuarded.does hl haux, fun rail => (avsAckTimeout_isGuarded rail).does hl haux⟩,
   curbPowerPeakRead_isHostRead.gets, ostlerInterruptMaxNs_isHostRead.gets, droverFlipMaxNs_isHostRead.gets⟩

/-- Settles O45: the distances from a to b and from b to a make a full turn of 2^n, so at most one of them is below half a turn, and
neither is when both are half a turn. -/
theorem serialOrder : Obligations.SerialOrder := by
  intro n a b hn ha hb
  have hpow : (2 : Int) ^ n = 2 * 2 ^ (n - 1) := by rw [← pow_succ', Nat.sub_add_cancel hn]
  have hab := precedes_iff (b := b) ha
  have hba := precedes_iff (b := a) hb
  refine ⟨hab, ?_⟩
  simp only [← Bool.not_eq_true, hab, hba]
  change _ ∧ (_ ↔ a = b ∨ serialDist n a b = 2 ^ (n - 1))
  by_cases h : a = b
  · subst h
    simp [serialDist_self]
  · have hturn := serialDist_add_swap ha hb h
    have hlt := serialDist_lt n a b
    have hlt' := serialDist_lt n b a
    omega

/-- Settles O55: each row is a host access, and its effect writes no field but the ones listed. -/
theorem hostRegisterFrame : Obligations.HostRegisterFrame := by
  intro s t
  exact
    ⟨fun q v => (spaogCqDb_isHostWrite q v).frame (fun b => b.cqConsume_only q _),
     fun q v => (spaogSqHead_isHostWrite q v).frame (fun b => b.writeSqHead_only q _),
     fun q v => (cqEnableWrite_isHostWrite q v).frame (fun b => b.writeCqCfg_only q _),
     fun g v => (spaogGate_isHostWrite g v).frame (fun b => b.writeGate_only g _),
     fun n v => (tileCfgWrite_isHostWrite n v).frame (fun b => b.writeTileCfg_only n _),
     fun n k v => (tileFlagWrite_isHostWrite n k v).frame (fun b => Block.rset_only (by decide) (by simp) b _),
     fun n v => (tileVxCfgWrite_isHostWrite n v).frame (fun b => b.vxCfg_only n _),
     fun m v => (macRawrxHead_isHostWrite m v).frame (fun b => Block.rset_only (by decide) (by simp) b _),
     traceCtlTrigger_isHostWrite.frame (fun b => Block.trigger_only [] b 2),
     curbPowerPeakRead_isHostRead.frame (fun b => Block.rset_only (by decide) (by simp) b _),
     droverFlipMaxNs_isHostRead.frame (fun b => Block.rset_only (by decide) (by simp) b _)⟩

end Sys2Proof.Machine
end

section
/-! SUPPORT. What every command is: a change of the block that knows nothing of the queue (R26). REGISTER_WRITE outside BAR0 is the
one exception. -/

namespace Sys2Proof.Machine

/-- The block that command `i` leaves from block `b`: that of its next state on an empty queue. -/
def blockAfter (i : Instr) (b : Block) : Block :=
  match exec i ⟨[], b⟩ with
  | .next t => t.blk
  | _ => b

/-- Command `i` answers a next state from every state, and the block that it leaves depends on the block alone. -/
def ChangesBlock (i : Instr) : Prop := ∀ s : State, exec i s = .next (s.withBlk (blockAfter i s.blk))

theorem ChangesBlock.keeps_pending {i : Instr} (h : ChangesBlock i) {s t : State} (e : exec i s = .next t) : t.pending = s.pending := by
  rw [h s] at e
  cases e
  rfl

theorem ChangesBlock.pending_irrelevant {i : Instr} (h : ChangesBlock i) {s t : State} (q : List Instr) (e : exec i s = .next t) :
    exec i { s with pending := q } = .next { t with pending := q } := by
  rw [h s] at e
  cases e
  exact h _

/-- An access outside the 64 MiB of BAR0 stops (log entry 1). -/
theorem registerWrite_outside {off : Nat} (n : Nat) (v : BitVec 64) (s : State) (h : 0x4000000 ≤ off) :
    exec (.registerWrite off n v) s = .fault .bar0Range := if_pos h

/-- An access inside BAR0 (R5, R26): one of another size or alignment is dropped and, over a link that is up, recorded (R27). -/
theorem registerWrite_inside {off : Nat} (n : Nat) (v : BitVec 64) (s : State) (h : off < 0x4000000) :
    exec (.registerWrite off n v) s = s.run (fun b =>
      if (n = 4 ∨ n = 8) ∧ off % n = 0 then b.barWrite off (fun b => b.bar0Write off n (v.toNat % 2 ^ (8 * n)))
      else if b.flag .HITCH_STATUS_LINK_UP then b.accessError 0x056 none 0 off
      else b) := if_neg (Nat.not_le.mpr h)

/-- Every command changes the block alone, save the access outside BAR0: `exec` takes each of the others to a function of the block that
`State.run` lifts, or for a fall of a power input and a sideband transfer `State.always`. -/
theorem exec_changesBlock (i : Instr) (hin : ∀ off n v, i = .registerWrite off n v → off < 0x4000000) : ChangesBlock i := by
  intro s
  cases i
  case registerWrite off n v =>
    have ho := hin off n v rfl
    unfold blockAfter
    rw [registerWrite_inside n v s ho, registerWrite_inside n v _ ho]
    rfl
  all_goals rfl

/-- A command that answers a next state changes the block alone. -/
theorem changesBlock_of_next {i : Instr} {s t : State} (e : exec i s = .next t) : ChangesBlock i := by
  refine exec_changesBlock i (fun off n v hi => Nat.lt_of_not_le (fun hout => ?_))
  rw [hi, registerWrite_outside n v s hout] at e
  cases e

end Sys2Proof.Machine
end

section
/-! SUPPORT. The step by its queue, and what an idle tick adds to global time (R16, R17). -/

namespace Sys2Proof.Machine

theorem step_of_cons {c : Instr} {rest : List Instr} {s : State} (h : s.pending = c :: rest) :
    step s = exec c { s with pending := rest } := by
  unfold step
  rw [h]

theorem step_of_nil {s : State} (h : s.pending = []) : step s = .next (s.withBlk s.blk.tick) := by
  obtain ⟨q, b⟩ := s
  cases h
  rfl

/-- A tick of a running clock, with no step and no slew pending and no wrap in sight, adds 64 sixteenths of a nanosecond. -/
theorem Block.tick_clk_g {b : Block} (hrun : b.clk.running = true) (hstep : b.clk.step = 0) (hslew : b.clk.slew = 0)
    (hrate : b.rget .GTIME_SLEW_RATE_PPB = 0) (hg : b.clk.g + 64 < 2 ^ 68) : b.tick.clk.g = b.clk.g + 64 := by
  have hrate' : toSigned 32 (b.rget .GTIME_SLEW_RATE_PPB) = 0 := by rw [hrate]; rfl
  unfold Block.tick
  simp only [hrun, hstep, hslew, hrate', if_true]
  omega

end Sys2Proof.Machine
end

section
/-! SUPPORT. The rows that are a host write, and what becomes of one that is held off (R28, R56, R473, R486). -/

namespace Sys2Proof.Machine

/-- A host agent's mailbox write is a host write (R92). -/
theorem Block.mbxWrite_host {a : Nat} (ha : hostAgent a = true) (b : Block) (off : Nat) (f : Block → Block) :
    b.mbxWrite a off f = b.barWrite off f := if_pos ha

theorem registerWrite_isHostWrite {off n : Nat} (v : BitVec 64) (ho : off < 0x4000000) (hn : (n = 4 ∨ n = 8) ∧ off % n = 0) :
    IsHostWrite (.registerWrite off n v) off (fun b => b.bar0Write off n (v.toNat % 2 ^ (8 * n))) :=
  fun s => (registerWrite_inside n v s ho).trans (congrArg s.run (funext fun _ => if_pos hn))

theorem stagingWrite_isHostWrite {o : Nat} {l : List Byte} (h : o + l.length ≤ 0x2000000) :
    IsHostWrite (.stagingWrite o l) (0x2000000 + o) (fun b => b.writeStaging o l) := by
  intro s
  unfold exec execStagingWrite
  simp only [if_pos h]

/-- A mailbox write names its offset where a host agent does it, and is a host write there. -/
theorem exists_isHostWrite_mbx {i : Instr} {a o off : Nat} {f : Block → Block}
    (hi : ∀ s : State, exec i s = s.run (fun b => b.mbxWrite a o f)) (h : (if hostAgent a then some o else none) = some off) :
    ∃ f, IsHostWrite i off f := by
  obtain ⟨ha, ho⟩ := Option.ite_none_right_eq_some.1 h
  cases ho
  exact ⟨f, fun s => (hi s).trans (congrArg s.run (funext fun b => b.mbxWrite_host ha o f))⟩

/-- Every row that names an offset to write is a host write to that offset. -/
theorem exists_isHostWrite {i : Instr} {off : Nat} (h : hostWriteOf i = some off) : ∃ f, IsHostWrite i off f := by
  cases i
  case mbxLockWrite n a => exact exists_isHostWrite_mbx (fun _ => by unfold exec; rfl) h
  case mbxLockForce n a release => exact exists_isHostWrite_mbx (fun _ => by unfold exec; rfl) h
  case mbxMsg n a v => exact exists_isHostWrite_mbx (fun _ => by unfold exec; rfl) h
  case mbxDb n a v => exact exists_isHostWrite_mbx (fun _ => by unfold exec; rfl) h
  case mbxDbAck n a v => exact exists_isHostWrite_mbx (fun _ => by unfold exec; rfl) h
  case mbxDbMask n a v => exact exists_isHostWrite_mbx (fun _ => by unfold exec; rfl) h
  case stagingWrite o l =>
    obtain ⟨hl, ho⟩ := Option.ite_none_right_eq_some.1 h
    cases ho
    exact ⟨_, stagingWrite_isHostWrite hl⟩
  case registerWrite o n v =>
    obtain ⟨⟨hin, hn⟩, ho⟩ := Option.ite_none_right_eq_some.1 h
    cases ho
    exact ⟨_, registerWrite_isHostWrite v hin hn⟩
  -- The other rows name no offset, or are that host write as the model writes them.
  all_goals cases h
  all_goals exact ⟨_, fun _ => by unfold exec; rfl⟩

/-- With the link down a host write leaves the state as it is (R56). -/
theorem IsHostWrite.linkDown {i : Instr} {off : Nat} {f : Block → Block} {s : State} (h : IsHostWrite i off f)
    (hd : s.blk.flag .HITCH_STATUS_LINK_UP = false) : exec i s = .next s := by
  rw [h s, State.run, Block.barWrite_linkDown hd, ite_self]

/-- A host write that is held off changes no register but what signals (R28, R473, R486). -/
theorem IsHostWrite.held {i : Instr} {off : Nat} {f : Block → Block} {s : State} (h : IsHostWrite i off f)
    (hh : s.blk.hostWrote.secureOk off = false ∨
      (s.blk.hostWrote.flag .OSTLER_BOOT_STATUS_READY = false ∧ earlyOffset off = false) ∨ s.blk.hostWrote.unitGone off = true) :
    ∃ t : State, exec i s = .next t ∧ s.blk.OnlyRegs [] t.blk :=
  ⟨_, h s, State.run_next_only (s := s) (f := fun b => b.barWrite off f) rfl [] (Block.barWrite_held hh)⟩

end Sys2Proof.Machine
end

section
/-! The obligations on the step, the queue and held-off host writes, settled. -/

namespace Sys2Proof.Machine

/-- Settles O40: every command but the access outside BAR0 is a change of the block alone, so the queue neither decides nor changes. -/
theorem commandsAnswer : Obligations.CommandsAnswer := by
  refine ⟨fun i s hin => ?_, fun off n v s => registerWrite_outside n v s, fun i s t q e => ?_⟩
  · exact ⟨blockAfter i s.blk, exec_changesBlock i hin s⟩
  · have h := changesBlock_of_next e
    exact ⟨h.keeps_pending e, h.pending_irrelevant q e⟩

/-- Settles O48: each row that names an offset is a host write, which the link, the security mode, the boot or a missing unit holds off
before its effect. -/
theorem hostWritesHeldOff : Obligations.HostWritesHeldOff := by
  intro i off s hi
  obtain ⟨f, h⟩ := exists_isHostWrite hi
  exact ⟨h.linkDown, h.held⟩

/-- Settles O39: `step` matches on the queue, and an idle tick adds 64 sixteenths of a nanosecond to global time, which is 4 ns. -/
theorem stepRunsFront : Obligations.StepRunsFront := by
  refine ⟨fun c rest s => step_of_cons, fun s => step_of_nil, fun b hrun hstep hslew hrate hg => .inl ?_⟩
  unfold Block.now
  rw [Block.tick_clk_g hrun hstep hslew hrate hg]
  omega

end Sys2Proof.Machine
end

section
/-! SUPPORT. The Hitch's rows (chapter 02): events that act under a condition, configuration requests that are served, and the way of
an access through BAR2, an HDM range or a registered window to its context. -/

namespace Sys2Proof.Machine

/-! ### Rows with and without a condition -/

/-- A row whose condition is a proposition is guarded by that condition's decision. -/
theorem IsGuarded.of_prop {i : Instr} {p : Block → Prop} [∀ b, Decidable (p b)] {f : Block → Block}
    (h : ∀ s : State, exec i s = s.run (fun b => if p b then f b else b)) : IsGuarded i (fun b => decide (p b)) f := by
  intro s
  simp only [h s, decide_eq_true_eq]

/-- Command `i` has effect `f` wherever the module acts. -/
def IsUnguarded (i : Instr) (f : Block → Block) : Prop := ∀ s : State, exec i s = s.run f

theorem IsUnguarded.does {i : Instr} {f : Block → Block} {s : State} (h : IsUnguarded i f) (hl : s.live) :
    exec i s = .next (s.withBlk (f s.blk)) := by
  rw [h s, State.run_live hl]

/-! ### Events of the host link -/

/-- The link comes up at a width and rate that the module supports, PERST_N released (R29, R30). -/
theorem linkUpHost_isGuarded (width gen : Nat) (cxl : Bool) : IsGuarded (.linkUpHost width gen cxl)
    (fun b => decide (linkSupported width gen ∧ !b.boot.perstN ∧ b.boot.pgMain ∧ !b.flag .HITCH_STATUS_LINK_UP))
    (fun b => (Block.rset { b with hitch := { b.hitch with cxlOk := cxl } } .HITCH_STATUS_LINK_UP 0 1).setHostCaps width gen) :=
  .of_prop fun _ => rfl
theorem hostLinkRetrain_isGuarded (width gen : Nat) : IsGuarded (.hostLinkRetrain width gen)
    (fun b => decide (linkSupported width gen ∧ b.flag .HITCH_STATUS_LINK_UP)) (fun b => b.setHostCaps width gen) :=
  .of_prop fun _ => rfl

theorem hotReset_isGuarded : IsGuarded .hotReset (fun b => b.flag .HITCH_STATUS_LINK_UP) (fun b => b.cut 1) := fun _ => rfl
theorem surpriseLinkDown_isGuarded :
    IsGuarded .surpriseLinkDown (fun b => b.flag .HITCH_STATUS_LINK_UP) (fun b => b.cut 2) := fun _ => rfl
theorem functionLevelReset_isGuarded :
    IsGuarded .functionLevelReset (fun b => b.flag .HITCH_STATUS_LINK_UP) (fun b => b.cut 4) := fun _ => rfl
theorem cxlReset_isGuarded : IsGuarded .cxlReset
    (fun b => decide (b.flag .HITCH_STATUS_LINK_UP ∧ b.flag .CAPS_HOST_CXL)) (fun b => b.cut 5) := .of_prop fun _ => rfl
theorem d3hotEntry_isGuarded : IsGuarded .d3hotEntry (fun b => b.flag .HITCH_STATUS_LINK_UP) (fun b => b.cut 7) := fun _ => rfl
theorem ideCheckFailure_isGuarded : IsGuarded .ideCheckFailure
    (fun b => decide (b.flag .HITCH_STATUS_LINK_UP ∧ b.flag .HITCH_STATUS_IDE_STATE))
    (fun b => (b.cut 6).rset .HITCH_STATUS_IDE_STATE 0 2) := .of_prop fun _ => rfl
theorem ideRekeyComplete_isGuarded : IsGuarded .ideRekeyComplete
    (fun b => b.flag .HITCH_STATUS_LINK_UP) (fun b => b.rset .HITCH_STATUS_IDE_STATE 0 1) := fun _ => rfl

/-- PERST_N cuts when it falls, and does nothing while it is asserted (R50, R54). -/
theorem perstNAssert_isGuarded : IsGuarded .perstNAssert (fun b => !b.boot.perstN)
    (fun b => (Block.cut { b with boot := { b.boot with perstN := true } } 3).frontReset) := by
  intro s
  show execPerstNAssert s = _
  simp only [execPerstNAssert, Bool.not_eq_true', ← Bool.not_eq_true, ite_not]

theorem perstNDeassert_isUnguarded : IsUnguarded .perstNDeassert
    (fun b => { b with boot := { b.boot with perstN := false, perstSeen := true } }) := fun _ => rfl

/-! ### Requests and accesses of the host and of peers -/

theorem configurationRequest_isUnguarded (r : CfgReq) : IsUnguarded (.configurationRequest r) (fun b => b.configRequest r) :=
  fun _ => rfl
theorem bar2HdmAccess_isUnguarded (w : WinOp) : IsUnguarded (.bar2HdmAccess w) (fun b => b.doWindow w) := fun _ => rfl
theorem peerWrite_isUnguarded (addr : Nat) (requester : BitVec 16) (data : List (BitVec 8)) : IsUnguarded
    (.peerWrite addr requester data) (fun b => b.peerAccess addr requester.toNat data.length (some data)) := fun _ => rfl
theorem peerRead_isUnguarded (addr : Nat) (requester : BitVec 16) (n : Nat) : IsUnguarded
    (.peerRead addr requester n) (fun b => b.peerAccess addr requester.toNat n none) := fun _ => rfl

/-! ### Configuration requests -/

/-- Configuration requests are served: the link is up and the boot ROM has released the Hitch (R56). -/
structure Block.ServesConfig (b : Block) : Prop where
  up : b.flag .HITCH_STATUS_LINK_UP = true
  romDone : 1 < b.stage
  notFailed : b.stage ≠ 15

section
variable {b : Block}

/-- A served request meets neither a link that is down nor Retry Status. -/
theorem Block.ServesConfig.noRetry (h : b.ServesConfig) :
    ¬ (b.rget .OSTLER_BOOT_STATUS_STAGE ≤ 1 ∨ b.rget .OSTLER_BOOT_STATUS_STAGE = 15) :=
  not_or.2 ⟨Nat.not_le.2 h.romDone, h.notFailed⟩

theorem Block.ServesConfig.read (h : b.ServesConfig) (d : Nat) : b.configRequest (.read d) =
    { b with out := { b.out with
      reads := b.out.reads ++ [bytesOf 4 (Sparse.get Config.configReset b.hitch.config d).toNat] } } := by
  simp [Block.configRequest, h.up, h.noRetry]

theorem Block.ServesConfig.write (h : b.ServesConfig) (d : Nat) (v : BitVec 32) : b.configRequest (.write d v) =
    { b with hitch := { b.hitch with
      config := Sparse.set Config.configReset b.hitch.config d
        (Config.configWrite d (Sparse.get Config.configReset b.hitch.config d) v) } } := by
  simp [Block.configRequest, h.up, h.noRetry]

theorem Block.ServesConfig.msix (h : b.ServesConfig) (en mask : Bool) : b.configRequest (.msix en mask) =
    Block.sendPending { b with hitch := { b.hitch with msixEnable := en, funcMask := mask } } := by
  simp [Block.configRequest, h.up, h.noRetry]

theorem Block.ServesConfig.bar2Size (h : b.ServesConfig) {k : Nat} (hlo : 30 ≤ k) (hhi : k ≤ 39) :
    b.configRequest (.bar2Size k) = { b with hitch := { b.hitch with barSize := k } } := by
  simp [Block.configRequest, h.up, h.noRetry, hlo, hhi]

end

/-! ### Windows of the host -/

/-- Nothing keeps window accesses out: the link is up (R56), the security mode has its secure streams (R486), and the access is no AtomicOp
(R35). -/
structure Block.AdmitsWindow (b : Block) (w : WinOp) : Prop where
  up : b.flag .HITCH_STATUS_LINK_UP = true
  secure : b.flag .OSTLER_BOOT_STATUS_READY = false ∨ b.flag .OSTLER_BOOT_STATUS_SECURITY = false ∨
    b.rget .HITCH_STATUS_IDE_STATE = 1
  plain : w.atomicOp = false

section
variable {b : Block} {w : WinOp}

theorem Block.AdmitsWindow.notInsecure (h : b.AdmitsWindow w) :
    ¬ (b.flag .OSTLER_BOOT_STATUS_READY ∧ b.flag .OSTLER_BOOT_STATUS_SECURITY ∧ b.rget .HITCH_STATUS_IDE_STATE ≠ 1) := by
  rintro ⟨hready, hsec, hide⟩
  rcases h.secure with h | h | h
  · simp [h] at hready
  · simp [h] at hsec
  · exact hide h

/-- An access through BAR2 takes the address that HITCH_BAR2_MAP gives it (R32, R40). -/
theorem Block.AdmitsWindow.bar2 (h : b.AdmitsWindow w) (hwin : w.win = 0) (hvalid : b.flag .HITCH_BAR2_MAP_VALID = true)
    (hctx : b.ctxExists (b.rget .HITCH_BAR2_MAP_CTX) = true) :
    b.doWindow w = b.windowAccess (b.rget .HITCH_BAR2_MAP_CTX) (b.rget .HITCH_BAR2_MAP_VA_BASE * 2 ^ 21 + w.offset) w.size 0 w.data
      w.offset false := by
  unfold Block.doWindow
  simp [h.up, h.notInsecure, h.plain, hwin, hvalid, hctx]

/-- An access through an HDM range, which only a link in CXL mode has, takes the address that its decoder's map gives it (R31, R32, R40). -/
theorem Block.AdmitsWindow.hdm (h : b.AdmitsWindow w) {i : Nat} (hwin : w.win.val = i + 1) (hcxl : b.flag .CAPS_HOST_CXL = true)
    (hvalid : b.flag .HITCH_HDM_MAP_VALID i = true) (hctx : b.ctxExists (b.rget .HITCH_HDM_MAP_CTX i) = true) :
    b.doWindow w = b.windowAccess (b.rget .HITCH_HDM_MAP_CTX i) (b.rget .HITCH_HDM_MAP_VA_BASE i * 2 ^ 28 + w.offset) w.size 0 w.data
      w.offset true := by
  have hne : w.win ≠ 0 := fun h0 => by simp [h0] at hwin
  unfold Block.doWindow
  simp [h.up, h.notInsecure, h.plain, hne, hwin, hcxl, hvalid, hctx]

end

/-! ### Windows of peers -/

/-- Window `w` accepts a peer access of a requester (R37 to R40): peer accesses are enabled over secure streams (R535), `w` is the window that
takes the address, its requester check passes, and its context exists. -/
structure Block.AcceptsPeer (b : Block) (addr requester w : Nat) : Prop where
  up : b.flag .HITCH_STATUS_LINK_UP = true
  enabled : b.flag .HITCH_CFG_P2P = true
  secure : b.peerSecure = true
  takes : b.peerWindow addr = some w
  admits : b.flag .HITCH_WIN_CTL_REQ_CHECK w = true → b.rget .HITCH_WIN_CTL_REQUESTER w = requester
  exists_ : b.ctxExists (b.rget .HITCH_WIN_CTL_CTX w) = true

/-- An accepted peer access, which for a read the window's READ bit admits, goes to the window's target with the STREAM hint (R37, R38). -/
theorem Block.AcceptsPeer.access {b : Block} {addr requester w : Nat} (h : b.AcceptsPeer addr requester w) {n : Nat}
    {data : Option (List Byte)} (hread : data = none → b.flag .HITCH_WIN_CTL_READ w = true) :
    b.peerAccess addr requester n data = b.windowAccess (b.rget .HITCH_WIN_CTL_CTX w)
      (b.rget .HITCH_WIN_TARGET_TARGET_VA w * 4096 + (addr - b.rget .HITCH_WIN_BASE_ADDR w)) n 1 data addr false := by
  have haccept : ¬ ((b.flag .HITCH_WIN_CTL_REQ_CHECK w ∧ b.rget .HITCH_WIN_CTL_REQUESTER w ≠ requester) ∨
      (data.isNone ∧ !b.flag .HITCH_WIN_CTL_READ w) ∨ !b.ctxExists (b.rget .HITCH_WIN_CTL_CTX w)) := by
    rintro (⟨hcheck, hother⟩ | ⟨hnone, hclosed⟩ | habsent)
    · exact hother (h.admits hcheck)
    · simp [hread (Option.isNone_iff_eq_none.1 hnone)] at hclosed
    · simp [h.exists_] at habsent
  unfold Block.peerAccess
  simp only [h.up, h.enabled, h.secure, h.takes]
  exact if_neg haccept

end Sys2Proof.Machine
end

section
/-! The obligations on the Hitch's events and windows, settled. -/

namespace Sys2Proof.Machine

/-- Settles O30: each event acts where its condition holds, and a configuration request is applied where it is served. A dword's content is
free (log entry 14), and what a reset's cut clears is log entry 23's. -/
theorem hitchEventResults : Obligations.HitchEventResults := by
  refine ⟨fun s width gen hl hs => ⟨fun cxl hperst hmain hdown => ?_, fun hup => ?_⟩, fun s hl hup => ?_, fun s hl => ⟨fun hperst => ?_, ?_⟩,
    fun s hl hup hrom hfail => ?_⟩
  · exact (linkUpHost_isGuarded width gen cxl).does hl (by simp [hs, hperst, hmain, hdown])
  · exact (hostLinkRetrain_isGuarded width gen).does hl (by simp [hs, hup])
  · exact ⟨hotReset_isGuarded.does hl hup, surpriseLinkDown_isGuarded.does hl hup, functionLevelReset_isGuarded.does hl hup,
      fun hcxl => cxlReset_isGuarded.does hl (decide_eq_true ⟨hup, hcxl⟩), d3hotEntry_isGuarded.does hl hup,
      fun hide => ideCheckFailure_isGuarded.does hl (decide_eq_true ⟨hup, hide⟩), ideRekeyComplete_isGuarded.does hl hup⟩
  · exact perstNAssert_isGuarded.does hl (by simp [hperst])
  · exact perstNDeassert_isUnguarded.does hl
  · have hserves : s.blk.ServesConfig := ⟨hup, hrom, hfail⟩
    exact ⟨fun d => by rw [(configurationRequest_isUnguarded _).does hl, hserves.read],
      fun d v => by rw [(configurationRequest_isUnguarded _).does hl, hserves.write],
      fun en mask => by rw [(configurationRequest_isUnguarded _).does hl, hserves.msix],
      fun k hlo hhi => by rw [(configurationRequest_isUnguarded _).does hl, hserves.bar2Size hlo hhi]⟩

/-- Settles O31: an admitted host access and an accepted peer access go to the address that their window gives them in its context. -/
theorem windowResults : Obligations.WindowResults := by
  constructor
  · intro s w hl hup hsec hplain
    have hadmits : s.blk.AdmitsWindow w := ⟨hup, hsec, hplain⟩
    rw [(bar2HdmAccess_isUnguarded w).does hl]
    exact ⟨fun hwin hvalid hctx => by rw [hadmits.bar2 hwin hvalid hctx],
      fun i hwin hcxl hvalid hctx => by rw [hadmits.hdm hwin hcxl hvalid hctx]⟩
  · intro s addr requester w hl hup hp2p hsec htakes hreq hctx va
    have haccepts : s.blk.AcceptsPeer addr requester.toNat w := ⟨hup, hp2p, hsec, htakes, hreq, hctx⟩
    refine ⟨fun data => ?_, fun n hread => ?_⟩
    · rw [(peerWrite_isUnguarded addr requester data).does hl, haccepts.access (fun hnone => by cases hnone)]
    · rw [(peerRead_isUnguarded addr requester n).does hl, haccepts.access (fun _ => hread)]

end Sys2Proof.Machine
end

section
/-! SUPPORT. Mailbox accesses by agent: a host agent's is a host access, a core's acts at once, and another's does nothing (R92). -/

namespace Sys2Proof.Machine
open Block.OnlyRegs

/-- Command `i` is a mailbox write of agent `a` at BAR0 offset `off` with effect `f` (R92, R94, R97, R98). -/
def IsMbxWrite (i : Instr) (a off : Nat) (f : Block → Block) : Prop :=
  ∀ s : State, exec i s = s.run (fun b => b.mbxWrite a off f)

/-- Command `i` is a mailbox read of agent `a`, of `n` bytes at BAR0 offset `off`, whose answer and block `f` gives (R93, R97). -/
def IsMbxRead (i : Instr) (a off n : Nat) (f : Block → Nat × Block) : Prop :=
  ∀ s : State, exec i s = s.run (fun b =>
    if hostAgent a then b.barRead off n f else if coreAgent a then (f b).2 else b)

section
variable {i : Instr} {a off n : Nat} {s t : State} {rs : List (Fld × Nat)}

theorem IsMbxWrite.host {f : Block → Block} (h : IsMbxWrite i a off f) (ha : hostAgent a = true) : IsHostWrite i off f :=
  fun s => (h s).trans (congrArg s.run (funext fun b => b.mbxWrite_host ha off f))

theorem Block.mbxWrite_core (ha : coreAgent a = true) (b : Block) (off : Nat) (f : Block → Block) : b.mbxWrite a off f = f b := by
  unfold Block.mbxWrite
  rw [if_neg (by simp [hostAgent_of_core ha]), if_pos ha]

theorem IsMbxWrite.core {f : Block → Block} (h : IsMbxWrite i a off f) (ha : coreAgent a = true) : IsUnguarded i f :=
  fun s => (h s).trans (congrArg s.run (funext fun b => b.mbxWrite_core ha off f))

/-- A mailbox write that reaches its register has its effect on the block, counted where a host agent wrote. -/
theorem IsMbxWrite.reaches {f : Block → Block} (h : IsMbxWrite i a off f) (hl : s.live) (hr : s.blk.Reaches a off) :
    ∃ b', (b' = s.blk ∨ b' = s.blk.hostWrote) ∧ exec i s = .next (s.withBlk (f b')) := by
  obtain ⟨b', hb', hw⟩ := Block.mbxWrite_reaches hr f
  exact ⟨b', hb', by rw [h s, State.run_live hl, hw]⟩

/-- A mailbox write changes what its effect changes, wherever the access was at most counted. -/
theorem IsMbxWrite.frame {f : Block → Block} (h : IsMbxWrite i a off f)
    (hf : ∀ b', s.blk.OnlyRegs [] b' → b'.OnlyRegs rs (f b')) (e : exec i s = .next t) : s.blk.OnlyRegs rs t.blk :=
  State.run_next_only ((h s).symm.trans e) rs (Block.mbxWrite_only hf)

theorem IsMbxRead.host {f : Block → Nat × Block} (h : IsMbxRead i a off n f) (ha : hostAgent a = true) : IsHostRead i off n f :=
  fun s => (h s).trans (congrArg s.run (funext fun _ => if_pos ha))

theorem IsMbxRead.core {f : Block → Nat × Block} (h : IsMbxRead i a off n f) (ha : coreAgent a = true) :
    IsUnguarded i (fun b => (f b).2) :=
  fun s => (h s).trans (congrArg s.run (funext fun _ => (if_neg (by simp [hostAgent_of_core ha])).trans (if_pos ha)))

/-- A mailbox read changes what its effect changes. -/
theorem IsMbxRead.frame {f : Block → Nat × Block} (h : IsMbxRead i a off n f) (hf : ∀ b : Block, b.OnlyRegs rs (f b).2)
    (e : exec i s = .next t) : s.blk.OnlyRegs rs t.blk :=
  State.run_next_only ((h s).symm.trans e) rs
    (ite (fun _ => Block.barRead_only (hf _)) (fun _ => ite (fun _ => hf _) (fun _ => refl _ _)))

end

/-! ### The rows -/

theorem mbxLockRead_isMbxRead (n : Fin 16) (a : Nat) :
    IsMbxRead (.mbxLockRead n a) a (lockOffset n a) 4 (fun b => b.mbxLockTry n a) := fun _ => rfl
theorem mbxTake_isMbxRead (n : Fin 16) (a : Nat) :
    IsMbxRead (.mbxTake n a) a (mbxOffset n 8) 8 (fun b => b.mbxTakeOut n) := fun _ => rfl
theorem mbxLockWrite_isMbxWrite (n : Fin 16) (a : Nat) :
    IsMbxWrite (.mbxLockWrite n a) a (lockOffset n a) (fun b => b.mbxRelease n a) := fun _ => rfl
theorem mbxLockForce_isMbxWrite (n : Fin 16) (a : Nat) (r : Bool) : IsMbxWrite (.mbxLockForce n a r) a (mbxOffset n 0x1C)
    (fun b => if coreAgent a && r then b.rset .MBX_STATUS_OWNER n 0 else b) := fun _ => rfl
theorem mbxMsg_isMbxWrite (n : Fin 16) (a : Nat) (v : BitVec 32) :
    IsMbxWrite (.mbxMsg n a v) a (mbxOffset n 0) (fun b => b.mbxPut n v.toNat) := fun _ => rfl
theorem mbxDb_isMbxWrite (n : Fin 16) (a : Nat) (v : BitVec 32) :
    IsMbxWrite (.mbxDb n a v) a (mbxOffset n 0x20) (fun b => b.mbxRing n v.toNat) := fun _ => rfl
theorem mbxDbAck_isMbxWrite (n : Fin 16) (a : Nat) (v : BitVec 32) :
    IsMbxWrite (.mbxDbAck n a v) a (mbxOffset n 0x24) (fun b => b.mbxAck n v.toNat) := fun _ => rfl
theorem mbxDbMask_isMbxWrite (n : Fin 16) (a : Nat) (v : BitVec 32) :
    IsMbxWrite (.mbxDbMask n a v) a (mbxOffset n 0x28) (fun b => b.mbxMask n v.toNat) := fun _ => rfl

/-- Only a core's write of 1 forces a lock (R94, log entry 20). -/
theorem mbxLockForce_core {a : Nat} (ha : coreAgent a = true) (n : Fin 16) :
    IsUnguarded (.mbxLockForce n a true) (fun b => b.rset .MBX_STATUS_OWNER n 0) := by
  have h := (mbxLockForce_isMbxWrite n a true).core ha
  simpa only [ha, Bool.and_self, if_true] using h

theorem coreAgent_of_host {a : Nat} (h : hostAgent a = true) : coreAgent a = false :=
  Bool.eq_false_iff.2 fun hc => by simp [hostAgent_of_core hc] at h

/-- A host agent's write of MBX_LOCK_FORCE is counted and has no other effect (log entry 20). -/
theorem mbxLockForce_host {a : Nat} (ha : hostAgent a = true) (n : Fin 16) (r : Bool) :
    IsHostWrite (.mbxLockForce n a r) (mbxOffset n 0x1C) (fun b => b) := by
  have h := (mbxLockForce_isMbxWrite n a r).host ha
  simpa only [coreAgent_of_host ha, Bool.false_and, Bool.false_eq_true, if_false] using h

end Sys2Proof.Machine
end

section
/-! SUPPORT. Reads of a mailbox's fields after its operations (R93, R94, R97), and when its interrupt is delivered (R98, R99). -/

namespace Sys2Proof.Machine

/-! ### Fields of one mailbox -/

/-- Fields `f` and `g` lie in the first word of their register's element and share no bit of it. -/
def Fld.besides (f g : Fld) : Bool :=
  f.fits && decide (f.reg.words = 1 ∧ f.lo / 64 = 0 ∧ g.reg.words = 1 ∧ g.lo / 64 = 0 ∧
    (f.reg ≠ g.reg ∨ f.lo % 64 + f.width ≤ g.lo % 64 ∨ g.lo % 64 + g.width ≤ f.lo % 64))

theorem Block.rget_rset_besides (b : Block) (n : Fin 16) {f g : Fld} (h : f.besides g = true) (v : Nat) :
    (b.rset f n v).rget g n = b.rget g n := by
  simp only [Fld.besides, Bool.and_eq_true, decide_eq_true_eq] at h
  obtain ⟨hfits, hf, hf0, hg, hg0, hreg | hbits⟩ := h
  · exact Block.rget_rset_ne b hfits (Fld.apart_of_reg hreg (Fld.word_lt_16 f n hf hf0) (Fld.word_lt_16 g n hg hg0))
  · exact Block.rget_rset_ne b hfits (Fld.apart_of_bits _ hbits)

theorem Block.rget_rset_of_lt (b : Block) {f : Fld} (hf : f.fits = true) (i : Nat) {v : Nat} (hv : v < 2 ^ f.width) :
    (b.rset f i v).rget f i = v := by
  rw [Block.rget_rset_self b hf, Nat.mod_eq_of_lt hv]

theorem Block.rget_lt (b : Block) (f : Fld) (i : Nat) : b.rget f i < 2 ^ f.width := bits_lt _ _ _

theorem Block.rget_of_flag {b : Block} {f : Fld} {i : Nat} (hw : f.width = 1) (h : b.flag f i = true) : b.rget f i = 1 := by
  have hlt := b.rget_lt f i
  rw [hw] at hlt
  have hne : b.rget f i ≠ 0 := of_decide_eq_true h
  omega

/-! ### Messages -/

section
variable (b : Block) (n : Fin 16) {v : Nat}

/-- A message that finds the mailbox empty is stored and rings doorbell bit 31 (R97). -/
theorem Block.mbxPut_empty (hv : v < 2 ^ 32) (h : b.flag .MBX_STATUS_FULL n = false) :
    (b.mbxPut n v).rget .MBX_TAKE_MSG n = v ∧ (b.mbxPut n v).rget .MBX_STATUS_FULL n = 1 ∧
    (b.mbxPut n v).rget .MBX_DB_BITS n = b.rget .MBX_DB_BITS n ||| 2 ^ 31 ∧
    (b.mbxPut n v).rget .MBX_STATUS_OVERRUN n = b.rget .MBX_STATUS_OVERRUN n := by
  unfold Block.mbxPut
  rw [if_neg (by simp [h])]
  refine ⟨?_, ?_, ?_, ?_⟩
  · rw [Block.mbxRing_keep _ n _ (by decide) (by decide) (by decide) (by decide) (by decide),
      Block.rget_rset_besides _ n (by decide), Block.rget_rset_of_lt b (by decide) n hv]
  · rw [Block.mbxRing_keep _ n _ (by decide) (by decide) (by decide) (by decide) (by decide),
      Block.rget_rset_of_lt _ (by decide) n (by decide)]
  · rw [Block.mbxRing_bits _ n _ (by decide), Block.rget_rset_besides _ n (by decide), Block.rget_rset_besides _ n (by decide)]
  · rw [Block.mbxRing_keep _ n _ (by decide) (by decide) (by decide) (by decide) (by decide),
      Block.rget_rset_besides _ n (by decide), Block.rget_rset_besides _ n (by decide)]

/-- A message that finds the mailbox full is dropped and sets OVERRUN (R97). -/
theorem Block.mbxPut_full (h : b.flag .MBX_STATUS_FULL n = true) :
    (b.mbxPut n v).rget .MBX_TAKE_MSG n = b.rget .MBX_TAKE_MSG n ∧ (b.mbxPut n v).rget .MBX_STATUS_FULL n = 1 ∧
    (b.mbxPut n v).rget .MBX_DB_BITS n = b.rget .MBX_DB_BITS n ∧ (b.mbxPut n v).rget .MBX_STATUS_OVERRUN n = 1 := by
  unfold Block.mbxPut
  rw [if_pos h]
  refine ⟨?_, ?_, ?_, ?_⟩
  · exact Block.rget_rset_besides b n (by decide) _
  · exact (Block.rget_rset_besides b n (by decide) _).trans (Block.rget_of_flag (by decide) h)
  · exact Block.rget_rset_besides b n (by decide) _
  · exact Block.rget_rset_of_lt b (by decide) n (by decide)

/-- A read of MBX_TAKE leaves the mailbox empty (R97). -/
theorem Block.mbxTakeOut_full : (b.mbxTakeOut n).2.rget .MBX_STATUS_FULL n = 0 := by
  unfold Block.mbxTakeOut
  exact (Block.rget_rset_besides _ n (by decide) _).trans (Block.rget_rset_of_lt b (by decide) n (by decide))

theorem Block.mbxTakeOut_out : (b.mbxTakeOut n).2.out = b.out := by
  unfold Block.mbxTakeOut
  simp only [Block.rset_out]

end

/-! ### Locks -/

section
variable (b : Block) (n : Fin 16) {a : Nat}

/-- The owner's write of MBX_LOCK releases the lock (R94). -/
theorem Block.mbxRelease_owner (h : b.rget .MBX_STATUS_OWNER n = a) :
    (b.mbxRelease n a).rget .MBX_STATUS_OWNER n = 0 ∧
    (b.mbxRelease n a).rget .MBX_STATUS_LOCK_ERR n = b.rget .MBX_STATUS_LOCK_ERR n := by
  unfold Block.mbxRelease
  rw [if_pos h]
  exact ⟨Block.rget_rset_of_lt b (by decide) n (by decide), Block.rget_rset_besides b n (by decide) _⟩

/-- Another agent's write of MBX_LOCK leaves the lock and sets LOCK_ERR (R94). -/
theorem Block.mbxRelease_other (h : b.rget .MBX_STATUS_OWNER n ≠ a) :
    (b.mbxRelease n a).rget .MBX_STATUS_OWNER n = b.rget .MBX_STATUS_OWNER n ∧
    (b.mbxRelease n a).rget .MBX_STATUS_LOCK_ERR n = 1 := by
  unfold Block.mbxRelease
  rw [if_neg h]
  exact ⟨Block.rget_rset_besides b n (by decide) _, Block.rget_rset_of_lt b (by decide) n (by decide)⟩

theorem Block.mbxLockTry_free (h : b.rget .MBX_STATUS_OWNER n = 0) : b.mbxLockTry n a = (0, b.rset .MBX_STATUS_OWNER n a) := if_pos h
theorem Block.mbxLockTry_owned (h : b.rget .MBX_STATUS_OWNER n ≠ 0) : b.mbxLockTry n a = (b.rget .MBX_STATUS_OWNER n, b) := if_neg h

/-- A lock attempt answers the owner it finds and sends nothing (R93). -/
theorem Block.mbxLockTry_answer : (b.mbxLockTry n a).1 = b.rget .MBX_STATUS_OWNER n ∧ (b.mbxLockTry n a).2.out = b.out := by
  by_cases h : b.rget .MBX_STATUS_OWNER n = 0
  · rw [Block.mbxLockTry_free b n h]
    exact ⟨h.symm, Block.rset_out b _ _ _⟩
  · rw [Block.mbxLockTry_owned b n h]
    exact ⟨rfl, rfl⟩

/-- A lock attempt takes a free lock and leaves an owned one (R93). -/
theorem Block.mbxLockTry_owner (ha : a < 2 ^ Fld.MBX_STATUS_OWNER.width) : (b.mbxLockTry n a).2.rget .MBX_STATUS_OWNER n =
    if b.rget .MBX_STATUS_OWNER n = 0 then a else b.rget .MBX_STATUS_OWNER n := by
  by_cases h : b.rget .MBX_STATUS_OWNER n = 0
  · rw [Block.mbxLockTry_free b n h, if_pos h]
    exact Block.rget_rset_of_lt b (by decide) n ha
  · rw [Block.mbxLockTry_owned b n h, if_neg h]

theorem Block.mbxLockTry_only : b.OnlyRegs [(.MBX_STATUS_OWNER, n.val)] (b.mbxLockTry n a).2 := by
  by_cases h : b.rget .MBX_STATUS_OWNER n = 0
  · rw [Block.mbxLockTry_free b n h]
    exact Block.rset_only (by decide) (by simp) b _
  · rw [Block.mbxLockTry_owned b n h]
    exact Block.OnlyRegs.refl _ b

end

/-! ### Answers -/

theorem Block.answer_reads (b : Block) (bs : List Byte) : (b.answer bs).out.reads = b.out.reads ++ [bs] := by
  unfold Block.answer
  rw [Block.count_out]

/-- An answer leaves a mailbox's fields as they are. -/
theorem Block.answer_keep (b : Block) (n : Fin 16) (bs : List Byte) {g : Fld} (h1 : g.reg.words = 1) (h2 : g.lo / 64 = 0)
    (hs : g.reg ∉ signalRegs) : (b.answer bs).rget g n = b.rget g n :=
  Block.OnlyRegs.keep (Block.answer_only [] b bs) (Fld.word_lt_16 g n h1 h2) hs (by simp)

/-! ### Interrupts -/

section
variable (b : Block) (n : Fin 16)

/-- Whether the interrupt is raised once the doorbell bits are `x` (R98). -/
theorem Block.mbxRaised_rset_bits {x : Nat} (hx : x < 2 ^ 32) : (b.rset .MBX_DB_BITS n x).mbxRaised n =
    decide (x &&& (2 ^ 32 - 1 - b.rget .MBX_DB_MASK_MASK n) ≠ 0) := by
  unfold Block.mbxRaised
  rw [Block.rget_rset_of_lt b (by decide) n hx, Block.rget_rset_besides b n (by decide)]

/-- A change that does not make the interrupt rise delivers nothing (R99). -/
theorem Block.mbxChange_still {f : Block → Block} (h : b.mbxRaised n = true ∨ (f b).mbxRaised n = false) :
    b.mbxChange n f = f b := by
  unfold Block.mbxChange
  rcases h with h | h <;> simp [h]

/-- A change that makes the interrupt rise delivers it (R99). -/
theorem Block.mbxChange_rises {f : Block → Block} (h : b.mbxRaised n = false) (h' : (f b).mbxRaised n = true) :
    b.mbxChange n f = (f b).mbxDeliver n := by
  unfold Block.mbxChange
  simp [h, h']

theorem Block.mbxDeliver_vector (h : b.rget .MBX_ROUTE_CLASS n = 0) :
    b.mbxDeliver n = b.fireVector (b.rget .MBX_ROUTE_INDEX n) := by
  unfold Block.mbxDeliver
  simp only [h]

theorem Block.mbxDeliver_core (h : b.rget .MBX_ROUTE_CLASS n = 1) (hi : b.rget .MBX_ROUTE_INDEX n ≤ 3) :
    b.mbxDeliver n = b.coreInterrupt (b.rget .MBX_ROUTE_INDEX n) := by
  unfold Block.mbxDeliver
  simp only [h, if_pos hi]

theorem Block.mbxDeliver_tile (h : b.rget .MBX_ROUTE_CLASS n = 2) (hi : b.tileWorks (b.rget .MBX_ROUTE_INDEX n) = true) :
    b.mbxDeliver n = b.flagUp (b.rget .MBX_ROUTE_INDEX n) (b.rget .MBX_ROUTE_FLAG n) := by
  unfold Block.mbxDeliver
  simp only [h, hi, if_true]

theorem Block.tileWorks_rset_bits (x t : Nat) : (b.rset .MBX_DB_BITS n x).tileWorks t = b.tileWorks t := by
  have hcaps : (b.rset .MBX_DB_BITS n x).rget .CAPS_TILE_MASK_TILE = b.rget .CAPS_TILE_MASK_TILE :=
    Block.rget_rset_ne b (by decide)
      (Fld.apart_of_reg (by decide) (Fld.word_lt_16 .MBX_DB_BITS n (by decide) (by decide)) (by decide))
  unfold Block.tileWorks
  rw [hcaps]

theorem Block.tileFlag_rset_bits (x m : Nat) :
    (b.rset .MBX_DB_BITS n x).rget .TILE_FLAG_VALUE (flagIdx (b.rget .MBX_ROUTE_INDEX n) m) =
    b.rget .TILE_FLAG_VALUE (flagIdx (b.rget .MBX_ROUTE_INDEX n) m) :=
  Block.rget_rset_ne b (by decide)
    (Fld.apart_of_reg (by decide) (Fld.word_lt_16 .MBX_DB_BITS n (by decide) (by decide)) (flagWord_lt b n m))

/-- Doorbell bits that do not make the interrupt rise are only set (R98). -/
theorem Block.mbxRing_still {v : Nat} (hv : v < 2 ^ 32) (h : b.mbxRaised n = true ∨
    (b.rget .MBX_DB_BITS n ||| v) &&& (2 ^ 32 - 1 - b.rget .MBX_DB_MASK_MASK n) = 0) :
    b.mbxRing n v = b.rset .MBX_DB_BITS n (b.rget .MBX_DB_BITS n ||| v) := by
  refine Block.mbxChange_still b n (h.imp_right fun hz => ?_)
  rw [Block.mbxRaised_rset_bits b n (Nat.or_lt_two_pow (b.rget_lt .MBX_DB_BITS n) hv)]
  exact decide_eq_false (not_not_intro hz)

/-- Doorbell bits that make the interrupt rise are set, and it is delivered (R98, R99). -/
theorem Block.mbxRing_rises {v : Nat} (hv : v < 2 ^ 32) (h : b.mbxRaised n = false)
    (hz : (b.rget .MBX_DB_BITS n ||| v) &&& (2 ^ 32 - 1 - b.rget .MBX_DB_MASK_MASK n) ≠ 0) :
    b.mbxRing n v = (b.rset .MBX_DB_BITS n (b.rget .MBX_DB_BITS n ||| v)).mbxDeliver n := by
  refine Block.mbxChange_rises b n h ?_
  rw [Block.mbxRaised_rset_bits b n (Nat.or_lt_two_pow (b.rget_lt .MBX_DB_BITS n) hv)]
  exact decide_eq_true hz

/-- An acknowledgement of all set bits clears them and ends the interrupt (R98). -/
theorem Block.mbxAck_all {v : Nat} (h : b.rget .MBX_DB_BITS n &&& v = b.rget .MBX_DB_BITS n) :
    b.mbxAck n v = b.rset .MBX_DB_BITS n 0 ∧ (b.rset .MBX_DB_BITS n 0).mbxRaised n = false := by
  have hoff : (b.rset .MBX_DB_BITS n 0).mbxRaised n = false := by
    rw [Block.mbxRaised_rset_bits b n (by decide), Nat.zero_and]
    rfl
  refine ⟨?_, hoff⟩
  unfold Block.mbxAck
  simp only [h, Nat.sub_self]
  exact Block.mbxChange_still b n (.inr hoff)

end

end Sys2Proof.Machine
end

section
/-! The obligations on the mailboxes, settled. -/

namespace Sys2Proof.Machine
open Block.OnlyRegs

/-- Settles O28: each row is a mailbox access, which a host agent makes as a host access and a core makes at once. -/
theorem mailboxResults : Obligations.MailboxResults := by
  refine ⟨fun n a ha => ⟨?_, ?_, ?_, fun r => ?_, fun v => ?_, fun v => ?_, fun v => ?_, fun v => ?_⟩,
    fun n a s ha hl => ⟨?_, ?_, ?_, ?_, fun v => ?_, fun v => ?_, fun v => ?_, fun v => ?_⟩⟩
  · exact ((mbxLockRead_isMbxRead n a).host ha).gets
  · exact ((mbxLockWrite_isMbxWrite n a).host ha).does
  · exact ((mbxTake_isMbxRead n a).host ha).gets
  · exact (mbxLockForce_host ha n r).does
  · exact ((mbxMsg_isMbxWrite n a v).host ha).does
  · exact ((mbxDb_isMbxWrite n a v).host ha).does
  · exact ((mbxDbAck_isMbxWrite n a v).host ha).does
  · exact ((mbxDbMask_isMbxWrite n a v).host ha).does
  · exact ((mbxLockRead_isMbxRead n a).core ha).does hl
  · exact ((mbxLockWrite_isMbxWrite n a).core ha).does hl
  · exact ((mbxTake_isMbxRead n a).core ha).does hl
  · exact (mbxLockForce_core ha n).does hl
  · exact ((mbxMsg_isMbxWrite n a v).core ha).does hl
  · exact ((mbxDb_isMbxWrite n a v).core ha).does hl
  · exact ((mbxDbAck_isMbxWrite n a v).core ha).does hl
  · exact ((mbxDbMask_isMbxWrite n a v).core ha).does hl

/-- Settles O49: a message is put into an empty mailbox or dropped at a full one, and the read empties it; counting a host agent's write
touches no field of a mailbox. -/
theorem mailboxMessage : Obligations.MailboxMessage := by
  constructor
  · intro n a v s hl hr
    obtain ⟨b', hb', he⟩ := (mbxMsg_isMbxWrite n a v).reaches hl hr
    have hmsg : b'.rget .MBX_TAKE_MSG n = s.blk.rget .MBX_TAKE_MSG n := Block.reaches_keep hb' n (by decide) (by decide) (by decide)
    have hfull : b'.rget .MBX_STATUS_FULL n = s.blk.rget .MBX_STATUS_FULL n :=
      Block.reaches_keep hb' n (by decide) (by decide) (by decide)
    have hdb : b'.rget .MBX_DB_BITS n = s.blk.rget .MBX_DB_BITS n := Block.reaches_keep hb' n (by decide) (by decide) (by decide)
    have hover : b'.rget .MBX_STATUS_OVERRUN n = s.blk.rget .MBX_STATUS_OVERRUN n :=
      Block.reaches_keep hb' n (by decide) (by decide) (by decide)
    have hflag : b'.flag .MBX_STATUS_FULL n = s.blk.flag .MBX_STATUS_FULL n := by unfold Block.flag; rw [hfull]
    refine ⟨_, he, ?_⟩
    rw [State.withBlk_blk, ← hflag, ← hmsg, ← hdb, ← hover]
    exact ⟨b'.mbxPut_empty n v.isLt, b'.mbxPut_full n⟩
  · intro n a s hl
    refine ⟨fun ha hr => ⟨_, ((mbxTake_isMbxRead n a).host ha).gets s hl hr, ?_, ?_⟩,
      fun ha => ⟨_, ((mbxTake_isMbxRead n a).core ha).does hl, ?_⟩⟩
    · rw [State.withBlk_blk, Block.answer_keep _ n _ (by decide) (by decide) (by decide), Block.mbxTakeOut_full]
    · rw [State.withBlk_blk, Block.answer_reads, Block.mbxTakeOut_out]
      rfl
    · rw [State.withBlk_blk, Block.mbxTakeOut_full]

theorem agent_fits_owner {a : Nat} (h : hostAgent a = true ∨ coreAgent a = true) : a < 2 ^ Fld.MBX_STATUS_OWNER.width := by
  have hw : 2 ^ Fld.MBX_STATUS_OWNER.width = 256 := by decide
  simp only [hostAgent, coreAgent, decide_eq_true_eq] at h
  omega

/-- Settles O50: release, force and attempt by cases on the owner they find. -/
theorem mailboxLock : Obligations.MailboxLock := by
  refine ⟨fun n a s hl hr => ?_, fun n a s hl ha => ?_, fun n a s hl => ⟨fun ha hr => ?_, fun ha => ?_⟩⟩
  · obtain ⟨b', hb', he⟩ := (mbxLockWrite_isMbxWrite n a).reaches hl hr
    have howner : b'.rget .MBX_STATUS_OWNER n = s.blk.rget .MBX_STATUS_OWNER n :=
      Block.reaches_keep hb' n (by decide) (by decide) (by decide)
    have herr : b'.rget .MBX_STATUS_LOCK_ERR n = s.blk.rget .MBX_STATUS_LOCK_ERR n :=
      Block.reaches_keep hb' n (by decide) (by decide) (by decide)
    refine ⟨_, he, ?_⟩
    rw [State.withBlk_blk, ← howner, ← herr]
    exact ⟨b'.mbxRelease_owner n, b'.mbxRelease_other n⟩
  · refine ⟨_, (mbxLockForce_core ha n).does hl, ?_⟩
    rw [State.withBlk_blk, Block.rget_rset_of_lt _ (by decide) n (by decide)]
  · refine ⟨_, ((mbxLockRead_isMbxRead n a).host ha).gets s hl hr, ?_, ?_⟩
    · rw [State.withBlk_blk, Block.answer_keep _ n _ (by decide) (by decide) (by decide),
        Block.mbxLockTry_owner _ n (agent_fits_owner (.inl ha))]
    · rw [State.withBlk_blk, Block.answer_reads, (s.blk.mbxLockTry_answer n).1, (s.blk.mbxLockTry_answer n).2]
  · refine ⟨_, ((mbxLockRead_isMbxRead n a).core ha).does hl, ?_⟩
    rw [State.withBlk_blk, Block.mbxLockTry_owner _ n (agent_fits_owner (.inr ha))]

/-- Settles O51: doorbell bits that make the interrupt rise deliver it by the route's class, and others are only set. -/
theorem mailboxInterrupt : Obligations.MailboxInterrupt := by
  refine ⟨fun n a v s hl ha => ⟨_, ((mbxDb_isMbxWrite n a v).core ha).does hl, ?_, fun h => ?_, fun hlow hz => ?_⟩,
    fun n a v s hl ha hall => ⟨_, ((mbxDbAck_isMbxWrite n a v).core ha).does hl, ?_⟩⟩
  · rw [State.withBlk_blk, Block.mbxRing_bits _ n _ v.isLt]
  · rw [State.withBlk_blk, Block.mbxRing_still _ n v.isLt h]
  · rw [State.withBlk_blk, Block.mbxRing_rises _ n v.isLt hlow hz]
    generalize s.blk.rget .MBX_DB_BITS n ||| v.toNat = x
    have hclass : (s.blk.rset .MBX_DB_BITS n x).rget .MBX_ROUTE_CLASS n = s.blk.rget .MBX_ROUTE_CLASS n :=
      Block.rget_rset_besides _ n (by decide) _
    have hindex : (s.blk.rset .MBX_DB_BITS n x).rget .MBX_ROUTE_INDEX n = s.blk.rget .MBX_ROUTE_INDEX n :=
      Block.rget_rset_besides _ n (by decide) _
    have hflag : (s.blk.rset .MBX_DB_BITS n x).rget .MBX_ROUTE_FLAG n = s.blk.rget .MBX_ROUTE_FLAG n :=
      Block.rget_rset_besides _ n (by decide) _
    refine ⟨fun h => ?_, fun h hi => ?_, fun h hi => ?_⟩
    · rw [Block.mbxDeliver_vector _ n (hclass.trans h), hindex]
    · rw [Block.mbxDeliver_core _ n (hclass.trans h) (by rwa [hindex]), hindex]
      exact congrArg (fun o : OutSt => o.coreIrq ++ _) (Block.rset_out s.blk _ _ _)
    · rw [Block.mbxDeliver_tile _ n (hclass.trans h) (by rwa [hindex, Block.tileWorks_rset_bits]), hindex, hflag]
      exact (Block.rget_count_self _ (by decide) _ 1).trans (by rw [Block.tileFlag_rset_bits]; rfl)
  · obtain ⟨hclear, hoff⟩ := s.blk.mbxAck_all n hall
    rw [State.withBlk_blk, hclear]
    exact ⟨Block.rget_rset_of_lt _ (by decide) n (by decide), hoff⟩

/-- Settles O52: each row is a mailbox access whose effect writes no field but the ones listed, and the route's tile flag is that of the
block before a counted access. -/
theorem mailboxFrame : Obligations.MailboxFrame := by
  intro n a v r s t
  have hroute : ∀ {b' : Block} {rs : List (Fld × Nat)}, s.blk.OnlyRegs [] b' →
      (Fld.TILE_FLAG_VALUE, flagIdx (s.blk.rget .MBX_ROUTE_INDEX n) (s.blk.rget .MBX_ROUTE_FLAG n)) ∈ rs →
      (Fld.TILE_FLAG_VALUE, flagIdx (b'.rget .MBX_ROUTE_INDEX n) (b'.rget .MBX_ROUTE_FLAG n)) ∈ rs := by
    intro b' rs hb' hk
    obtain ⟨hindex, hflag, -⟩ := Block.route_keep_nil n hb'
    rwa [hindex, hflag]
  refine ⟨(mbxLockRead_isMbxRead n a).frame fun b => ?_, (mbxLockWrite_isMbxWrite n a).frame fun b _ => ?_,
    (mbxLockForce_isMbxWrite n a r).frame fun b _ => ?_, (mbxMsg_isMbxWrite n a v).frame fun b hb => ?_,
    (mbxTake_isMbxRead n a).frame fun b => ?_, (mbxDb_isMbxWrite n a v).frame fun b hb => ?_,
    (mbxDbAck_isMbxWrite n a v).frame fun b hb => ?_, (mbxDbMask_isMbxWrite n a v).frame fun b hb => ?_⟩
  · exact b.mbxLockTry_only n
  · exact ite (fun _ => Block.rset_only (by decide) (by simp) b _) (fun _ => Block.rset_only (by decide) (by simp) b _)
  · exact ite (fun _ => Block.rset_only (by decide) (by simp) b _) (fun _ => refl _ _)
  · exact b.mbxPut_only n _ (by simp) (by simp) (by simp) (by simp) (hroute hb (by simp))
  · exact (Block.rset_only (by decide) (by simp) b _).trans (Block.rset_only (by decide) (by simp) _ _)
  · exact b.mbxRing_only n _ (by simp) (hroute hb (by simp))
  · exact b.mbxAck_only n _ (by simp) (hroute hb (by simp))
  · exact b.mbxMask_only n _ (by simp) (hroute hb (by simp))

end Sys2Proof.Machine
end

section
/-! SUPPORT. The rings' rows: host writes of their registers (R61, R71, R76, R86), the fetch of a packet (R72, R73, R78), dispatch (R79),
completion (R84), coalescing (R90). -/

namespace Sys2Proof.Machine

/-! ### Registers -/

theorem spaogDb_isHostWrite (q : Fin 256) (v : BitVec 32) : IsHostWrite (.spaogDb q v) (0x100000 + 64 * q.val)
    (fun b => (b.count .PERF_DOORBELLS_COUNT 0 1).doorbell q v.toNat) := fun _ => rfl
theorem sqEnableSet_isHostWrite (q : Fin 256) (v : BitVec 32) :
    IsHostWrite (.sqEnableSet q v) (sqOffset q 8) (fun b => b.writeSqCfg q (setBit v.toNat 0)) := fun _ => rfl
theorem sqEnableClear_isHostWrite (q : Fin 256) (v : BitVec 32) :
    IsHostWrite (.sqEnableClear q v) (sqOffset q 8) (fun b => b.writeSqCfg q (clearBit v.toNat 0)) := fun _ => rfl

/-! ### Fetching -/

theorem packetFetch_isGuarded (q : Fin 256) (fail : Fin 3) : IsGuarded (.packetFetch q fail)
    (fun b => decide (b.mayFetch q ∧ !(b.sqAux q).early))
    (fun b => ((b.advanceTo (max (b.sqAux q).nextFetch b.fetchNext)).fetchPaced q).fetchUnit q fail) := .of_prop fun _ => rfl
theorem earlyDoorbellRepoll_isGuarded (q : Fin 256) (fail : Fin 3) : IsGuarded (.earlyDoorbellRepoll q fail)
    (fun b => decide (b.mayFetch q ∧ (b.sqAux q).early ∧ (b.sqAux q).lastPoll + 4096 < (b.sqAux q).tDb + 4 * usec))
    (fun b => (b.advanceTo ((b.sqAux q).lastPoll + 4096)).fetchUnit q fail) := .of_prop fun _ => rfl
theorem earlyDoorbell_isGuarded (q : Fin 256) : IsGuarded (.earlyDoorbell q)
    (fun b => decide (b.mayFetch q ∧ (b.sqAux q).early)) (fun b => b.earlyEnd q) := .of_prop fun _ => rfl

section
variable {b b' : Block} {n : Nat} {u : List Byte}

/-- A unit whose SEQ is not the head's makes the doorbell early (R73). -/
theorem Block.fetchUnit_early (hu : b.readUnit n (b.rget .SPAOG_SQ_HEAD_POS n) = (.ok u, b'))
    (hseq : field u 4 4 ≠ b'.rget .SPAOG_SQ_HEAD_SEQ n) :
    b.fetchUnit n 0 = b'.setSq n { b'.sqAux n with early := true, lastPoll := b'.clk.t } := by
  unfold Block.fetchUnit
  rw [if_neg (by omega), if_neg (by omega)]
  simp only [hu, if_pos hseq]

/-- A unit with the head's SEQ and a LEN of 1 to 4 brings its packet's other units, and the packet is queued (R72). -/
theorem Block.fetchUnit_queues {b'' : Block} {m : List Byte} (hu : b.readUnit n (b.rget .SPAOG_SQ_HEAD_POS n) = (.ok u, b'))
    (hseq : field u 4 4 = b'.rget .SPAOG_SQ_HEAD_SEQ n) (hlo : field u 3 1 ≠ 0) (hhi : field u 3 1 ≤ 4)
    (hm : (b'.setSq n { b'.sqAux n with early := false }).readUnits n (b.rget .SPAOG_SQ_HEAD_POS n + 1) (field u 3 1 - 1) =
      (.ok m, b'')) : b.fetchUnit n 0 = b''.queuePacket n (field u 3 1) (u ++ m) := by
  unfold Block.fetchUnit
  rw [if_neg (by omega), if_neg (by omega)]
  simp only [hu, if_neg (not_not_intro hseq), if_neg (show ¬(field u 3 1 = 0 ∨ 4 < field u 3 1) by omega), hm]

end

/-! ### Dispatch, completion, coalescing -/

theorem dispatch_does {s : State} {q : Fin 256} {c : Cmd} (hl : s.live) (hc : s.blk.dispatchable q = some c)
    (h : (s.blk.packetErr c).isSome = true ∨ s.blk.firstServed q c = true) :
    exec (.dispatch q) s = .next (s.withBlk (s.blk.dispatchCmd q c)) := by
  show execDispatch q s = _
  unfold execDispatch
  rw [State.run_live hl]
  simp only [hc, if_pos (Bool.or_eq_true _ _ ▸ h)]

theorem commandCompletion_does {s : State} {id : Nat} {c : Cmd} {r : Result} (hl : s.live) (hc : s.blk.findCmd id = some c)
    (hdone : c.phase = .done) (hr : c.result = some r) (fail : Fin 3) :
    exec (.commandCompletion id fail) s = .next (s.withBlk (s.blk.complete c r fail)) := by
  show execCommandCompletion id fail s = _
  unfold execCommandCompletion
  rw [State.run_live hl]
  simp only [hc, hdone, hr]

theorem coalTimeExpiry_isGuarded (q : Fin 256) : IsGuarded (.coalTimeExpiry q)
    (fun b => decide (0 < (b.cqAux q).unsignalled ∧ b.rget .SPAOG_CQ_CFG_COAL_TIME q ≠ 0))
    (fun b => (b.advanceTo ((b.cqAux q).firstUnsig + b.rget .SPAOG_CQ_CFG_COAL_TIME q * usec)).signalCq q) := .of_prop fun _ => rfl

/-! ### Consumption reports -/

section
variable {b : Block} {q v : Nat}

/-- A report beyond WRITTEN is an access error (R86). -/
theorem Block.cqConsume_beyond (h : precedes 32 (b.rget .SPAOG_CQ_TAIL_WRITTEN q) v = true) :
    b.cqConsume q v = b.accessError 0x056 none 0 (0x104000 + 64 * q) := if_pos h

/-- A report of at most WRITTEN sets the count consumed (R85). -/
theorem Block.cqConsume_reached (h : precedes 32 (b.rget .SPAOG_CQ_TAIL_WRITTEN q) v = false)
    (h' : reached 32 v (b.rget .SPAOG_CQ_TAIL_WRITTEN q) = true) : b.cqConsume q v = b.rset .SPAOG_CQ_HEAD_CONSUMED q v :=
  (if_neg (by simp [h])).trans (if_pos h')

/-- A report that neither precedes nor follows WRITTEN is stale (R9). -/
theorem Block.cqConsume_stale (h : precedes 32 (b.rget .SPAOG_CQ_TAIL_WRITTEN q) v = false)
    (h' : reached 32 v (b.rget .SPAOG_CQ_TAIL_WRITTEN q) = false) : b.cqConsume q v = b :=
  (if_neg (by simp [h])).trans (if_neg (by simp [h']))

end

/-- Serial equality of two values within their width is equality (R9). -/
theorem reached_iff {n a b : Nat} (ha : a < 2 ^ n) (hb : b < 2 ^ n) : reached n a b = true ↔ a = b ∨ precedes n a b = true := by
  simp only [reached, serialEq, Bool.or_eq_true, decide_eq_true_eq, Nat.mod_eq_of_lt ha, Nat.mod_eq_of_lt hb]
  exact or_comm

theorem not_precedes_of_eq_or_precedes {n a b : Nat} (hn : 1 ≤ n) (ha : a < 2 ^ n) (hb : b < 2 ^ n)
    (h : a = b ∨ precedes n a b = true) : precedes n b a = false := by
  obtain ⟨-, hasymm, hneither⟩ := serialOrder n a b hn ha hb
  exact h.elim (fun heq => (hneither.2 (.inl heq)).2) hasymm

theorem Block.hostWrote_cqWritten (b : Block) (q : Fin 256) :
    b.hostWrote.rget .SPAOG_CQ_TAIL_WRITTEN q = b.rget .SPAOG_CQ_TAIL_WRITTEN q :=
  Block.OnlyRegs.keep (Block.hostWrote_only [] b) (Fld.word_lt_256 _ q (by decide) (by decide)) (by decide) (by simp)

theorem Block.hostWrote_sameLog (b : Block) : SameLog b b.hostWrote := SameLog.count b (by decide) (by decide) 1

/-- An access error is the log's next entry, and WRITTEN counts it (R502, R503). -/
theorem Block.accessError_log (b : Block) (source status addr : Nat) :
    (b.accessError source none status addr).rget .OSTLER_ERRLOG_STATUS_WRITTEN =
      (b.rget .OSTLER_ERRLOG_STATUS_WRITTEN + 1) % 2 ^ 32 ∧
    (let e := Sparse.get (always ErrEntry.blank) (b.accessError source none status addr).errlog
       (b.rget .OSTLER_ERRLOG_STATUS_WRITTEN % 4096)
     e.seq = b.rget .OSTLER_ERRLOG_STATUS_WRITTEN ∧ e.cls = 0x20 ∧ e.source = source ∧ e.addr = addr) := by
  obtain ⟨hlog, hwritten⟩ := b.errLog_log { source := source, cls := 0x20, outcome := 5, status := status, addr := addr }
  unfold Block.accessError
  rw [hlog, hwritten, Sparse.get_set_self]
  exact ⟨rfl, rfl, rfl, rfl, rfl⟩

end Sys2Proof.Machine
end

section
/-! The obligations on the rings, settled. -/

namespace Sys2Proof.Machine

/-- Settles O26: each event acts where its condition holds; a fetch goes by the SEQ and LEN of the unit that it reads. That a timed row
first advances the clock is log entry 11's. -/
theorem ringEventResults : Obligations.RingEventResults := by
  refine ⟨?_, fun s ring hl hfetch hearly => ⟨fun hin => ?_, ?_⟩,
    fun s ring c hl hc h => dispatch_does hl hc h, fun s id fail c r hl hc hdone hr => commandCompletion_does hl hc hdone hr fail,
    fun s ring hl hpend htime => (coalTimeExpiry_isGuarded ring).does hl (decide_eq_true ⟨hpend, htime⟩)⟩
  · intro s ring u b' hl hfetch hearly b hu
    have hrow : exec (.packetFetch ring 0) s = .next (s.withBlk (b.fetchUnit ring 0)) :=
      (packetFetch_isGuarded ring 0).does hl (by simp [hfetch, hearly])
    exact ⟨fun hseq => by rw [hrow, Block.fetchUnit_early hu hseq],
      fun m b'' hseq hlo hhi hm => by rw [hrow, Block.fetchUnit_queues hu hseq hlo hhi hm]⟩
  · exact (earlyDoorbellRepoll_isGuarded ring 0).does hl (decide_eq_true ⟨hfetch, hearly, hin⟩)
  · exact (earlyDoorbell_isGuarded ring).does hl (decide_eq_true ⟨hfetch, hearly⟩)

/-- Settles O27: each row is a host write with the effect named. -/
theorem ringRegisterResults : Obligations.RingRegisterResults :=
  ⟨fun n v => (spaogDb_isHostWrite n v).does, fun n v => (spaogCqDb_isHostWrite n v).does,
   fun n v => (sqEnableSet_isHostWrite n v).does, fun n v => (sqEnableClear_isHostWrite n v).does,
   fun n v => (spaogSqHead_isHostWrite n v).does, fun n v => (cqEnableWrite_isHostWrite n v).does,
   fun g v => (spaogGate_isHostWrite g v).does⟩

/-- Settles O53: the report is beyond WRITTEN, at most WRITTEN, or half a turn away from it, and these exclude each other. -/
theorem consumeDoorbell : Obligations.ConsumeDoorbell := by
  intro n v s hl hw
  have hwritten := s.blk.hostWrote_cqWritten n
  have hlt : s.blk.rget .SPAOG_CQ_TAIL_WRITTEN n < 2 ^ 32 := s.blk.rget_lt .SPAOG_CQ_TAIL_WRITTEN n
  refine ⟨_, (spaogCqDb_isHostWrite n v).does s hl hw, fun h => ?_, fun h => ?_, fun hne hpre hpost => ?_⟩
  · have hpost := not_precedes_of_eq_or_precedes (by decide) v.isLt hlt h
    have hreached := (reached_iff v.isLt hlt).2 h
    rw [← hwritten] at hpost hreached
    rw [State.withBlk_blk, Block.cqConsume_reached hpost hreached]
    exact ⟨rfl, Block.rget_rset_of_lt _ (by decide) n v.isLt⟩
  · rw [← hwritten] at h
    obtain ⟨hlog, hcount⟩ := s.blk.hostWrote_sameLog
    have hentry := s.blk.hostWrote.accessError_log 0x056 0 (0x104000 + 64 * n.val)
    rw [State.withBlk_blk, Block.cqConsume_beyond h, ← hcount]
    exact ⟨(Block.hostWrote_only [] s.blk).trans (Block.accessError_only [] _ _ _ _ _ _), hentry⟩
  · have hreached : reached 32 v.toNat (s.blk.rget .SPAOG_CQ_TAIL_WRITTEN n) = false := by
      rw [Bool.eq_false_iff]
      intro hr
      rcases (reached_iff v.isLt hlt).1 hr with heq | hp
      · exact hne heq
      · simp [hpre] at hp
    rw [← hwritten] at hpost hreached
    rw [State.withBlk_blk, Block.cqConsume_stale hpost hreached]

end Sys2Proof.Machine
end

section
/-! SUPPORT. How a command of an engine ends: MBX_ACCESS with its result (R160), the Ostler's commands with their action's (R89). -/

namespace Sys2Proof.Machine

/-! ### MBX_ACCESS -/

/-- The block in which an MBX_ACCESS of result `r.1` has ended: the result stands at RESULT_ADDR, unless that is 0xFFFFFFFF (R160). -/
def mbxAccessEnd (id : Nat) (p : MbxAccessParams) (c : Cmd) (r : Nat × Block) : Block :=
  ((if p.resultAddr = 0xFFFFFFFF then r.2 else r.2.tsWrite c.tile p.resultAddr (bytesOf 8 r.1)).finish id 0 0 r.1).notePrim c.tile

/-- Command `i` is a row of MBX_ACCESS `id` with parameters `p`: it acts if `ok`, and `go` gives the result for an agent (R160). -/
def IsMbxAccess (i : Instr) (id : Nat) (p : MbxAccessParams) (ok : Bool) (go : Nat → Block → Nat × Block) : Prop :=
  ∀ s : State, exec i s = s.run (fun b => b.mbxAccess id p ok go)

/-- A row of MBX_ACCESS that is its packet's operation ends with the operation's result. -/
theorem IsMbxAccess.does {i : Instr} {s : State} {id : Nat} {p : MbxAccessParams} {c : Cmd} {ok : Bool}
    {go : Nat → Block → Nat × Block} (hi : IsMbxAccess i id p ok go) (hl : s.live)
    (h : s.blk.TileStarts id (.mbxAccess p) c) (hok : ok = true) :
    exec i s = .next (s.withBlk (mbxAccessEnd id p c (go (128 + c.tile) (s.blk.entered id c)))) := by
  rw [hi s, State.run_live hl, Block.mbxAccess, if_pos hok, Block.tileCmd_starts h]
  rfl

theorem mbxAccessLock_isMbxAccess (id : Nat) (p : MbxAccessParams) :
    IsMbxAccess (.mbxAccessLock id p) id p (decide (p.op = 0 ∨ 5 < p.op)) (fun a b => b.mbxLockTry p.mbx a) := fun _ => rfl
theorem mbxAccessRelease_isMbxAccess (id : Nat) (p : MbxAccessParams) : IsMbxAccess (.mbxAccessRelease id p) id p (decide (p.op = 1))
    (fun a b => (b.rget .MBX_STATUS_OWNER p.mbx, b.mbxRelease p.mbx a)) := fun _ => rfl
theorem mbxAccessWrite_isMbxAccess (id : Nat) (p : MbxAccessParams) : IsMbxAccess (.mbxAccessWrite id p) id p (decide (p.op = 2))
    (fun _ b => (b2n (!b.flag .MBX_STATUS_FULL p.mbx), b.mbxPut p.mbx p.value)) := fun _ => rfl
theorem mbxAccessTake_isMbxAccess (id : Nat) (p : MbxAccessParams) :
    IsMbxAccess (.mbxAccessTake id p) id p (decide (p.op = 3)) (fun _ b => b.mbxTakeOut p.mbx) := fun _ => rfl
theorem mbxAccessAck_isMbxAccess (id : Nat) (p : MbxAccessParams) : IsMbxAccess (.mbxAccessAck id p) id p (decide (p.op = 4))
    (fun _ b => (b.rget .MBX_DB_BITS p.mbx, b.mbxAck p.mbx p.value)) := fun _ => rfl
theorem mbxAccessPeek_isMbxAccess (id : Nat) (p : MbxAccessParams) : IsMbxAccess (.mbxAccessPeek id p) id p (decide (p.op = 5))
    (fun _ b => (b.word .MBX_STATUS p.mbx % 2 ^ 32 + b.rget .MBX_DB_BITS p.mbx * 2 ^ 32, b)) := fun _ => rfl

/-! ### The Ostler's commands -/

/-- Command `i` is a row of an engine's command `id` with parameters `p`, whose start condition is `ready` and whose meaning is `go`. -/
def IsEngineRow (i : Instr) (id : Nat) (p : Params) (ready : Cmd → Block → Bool) (go : Cmd → Block → Block) : Prop :=
  ∀ s : State, exec i s = s.run (fun b => b.runCmd id p ready go)

/-- A row that concludes with its action completes. -/
theorem concludes_of_conclude {i : Instr} {id : Nat} {p : Params} {m : Cmd → Act (Nat × Nat × Nat)} (ctx0 : Bool)
    (hi : IsEngineRow i id p always2 (fun c b => b.conclude id (0x0100, 0) (m c))) : Concludes i id p ctx0 m := by
  intro s c r b hl h _ hm
  rw [hi s, State.run_live hl, Block.runCmd_starts h rfl, Block.conclude, hm]

/-- A command of the Ostler's that only context 0 may give completes there. -/
theorem concludes_of_ostlerCmd {i : Instr} {id : Nat} {p : Params} {m : Cmd → Act (Nat × Nat × Nat)}
    (hi : ∀ s : State, exec i s = s.run (fun b => b.ostlerCmd id p m)) : Concludes i id p true m := by
  intro s c r b hl h hctx hm
  rw [hi s, State.run_live hl, Block.ostlerCmd, Block.runCmd_starts h rfl, if_neg (not_not_intro (hctx rfl)), Block.conclude, hm]

section
variable {s : State} {id : Nat} {c : Cmd}

/-- A row of an engine's command that may start has its meaning. -/
theorem IsEngineRow.does {i : Instr} {p : Params} {ready : Cmd → Block → Bool} {go : Cmd → Block → Block}
    (hi : IsEngineRow i id p ready go) (hl : s.live) (h : s.blk.Starts id p c) (hr : ready c s.blk = true) :
    exec i s = .next (s.withBlk (go c (s.blk.launched id))) := by
  rw [hi s, State.run_live hl, Block.runCmd_starts h hr]

theorem nop_isEngineRow (id : Nat) : IsEngineRow (.nop id) id .nop always2 (fun c b => b.finish c.id 0 0 0) := fun _ => rfl
theorem contextDestroy_isEngineRow (id : Nat) (p : CtxDestroyParams) :
    IsEngineRow (.contextDestroy id p) id (.contextDestroy p) (destroyReady p) (fun c b =>
      match b.destroyErr c p.ctx with
      | some st => b.finish id st 0 0
      | none => (b.destroyCtx p.ctx).finish id 0 0 0) := fun _ => rfl
theorem adopt_isEngineRow (id : Nat) (p : RemountParams) :
    IsEngineRow (.adopt id p) id (.remountPrepare p) (fun _ _ => decide (p.role ≠ 1)) (fun c b =>
      if c.ctx ≠ 0 ∨ 1 < p.role then b.finish id 0x0100 0 0
      else if b.remountBusy then b.finish id 0x7004 0 0
      else (b.adoptRank p.rank).finish id 0 0 (halves (if b.flag .HOKUKE_STATUS_RANK_VALID then b.rank else 0xFFFFFFFF) 0)) :=
  fun _ => rfl
theorem forget_isEngineRow (id : Nat) (p : RemountParams) :
    IsEngineRow (.forget id p) id (.remountPrepare p) (fun _ _ => decide (p.role = 1)) (fun c b =>
      if c.ctx ≠ 0 ∨ (b.flag .HOKUKE_STATUS_RANK_VALID ∧ p.rank = b.rank) then b.finish id 0x0100 0 0
      else (b.forgetRank p.rank).1.finish id 0 0 (halves (b.forgetRank p.rank).2.1 (b.forgetRank p.rank).2.2)) := fun _ => rfl

/-- A context that nothing keeps is destroyed (R490). -/
theorem contextDestroy_does {p : CtxDestroyParams} (hl : s.live) (h : s.blk.Starts id (.contextDestroy p) c)
    (hready : destroyReady p c s.blk = true) (herr : (s.blk.launched id).destroyErr c p.ctx = none) :
    exec (.contextDestroy id p) s = .next (s.withBlk (((s.blk.launched id).destroyCtx p.ctx).finish id 0 0 0)) := by
  rw [(contextDestroy_isEngineRow id p).does hl h hready, herr]

/-- A rank is adopted while no group, lend or message is in the way (R506). -/
theorem adopt_does {p : RemountParams} (hl : s.live) (h : s.blk.Starts id (.remountPrepare p) c) (hctx : c.ctx = 0)
    (hrole : p.role = 0) (hbusy : (s.blk.launched id).remountBusy = false) :
    exec (.adopt id p) s = .next (s.withBlk (((s.blk.launched id).adoptRank p.rank).finish id 0 0
      (halves (if (s.blk.launched id).flag .HOKUKE_STATUS_RANK_VALID then (s.blk.launched id).rank else 0xFFFFFFFF) 0))) := by
  rw [(adopt_isEngineRow id p).does hl h (by simp [hrole]), if_neg (by omega), if_neg (by simp [hbusy])]

/-- A rank that is not the module's own is forgotten (R507). -/
theorem forget_does {p : RemountParams} (hl : s.live) (h : s.blk.Starts id (.remountPrepare p) c) (hctx : c.ctx = 0)
    (hrole : p.role = 1)
    (hother : (s.blk.launched id).flag .HOKUKE_STATUS_RANK_VALID = false ∨ p.rank ≠ (s.blk.launched id).rank) :
    exec (.forget id p) s = .next (s.withBlk (((s.blk.launched id).forgetRank p.rank).1.finish id 0 0
      (halves ((s.blk.launched id).forgetRank p.rank).2.1 ((s.blk.launched id).forgetRank p.rank).2.2))) := by
  have hpass : ¬(c.ctx ≠ 0 ∨ ((s.blk.launched id).flag .HOKUKE_STATUS_RANK_VALID ∧ p.rank = (s.blk.launched id).rank)) := by
    rintro (hne | ⟨hvalid, hself⟩)
    · exact hne hctx
    · exact hother.elim (fun hf => by simp [hf] at hvalid) (fun hne => hne hself)
  rw [(forget_isEngineRow id p).does hl h (by simp [hrole]), if_neg hpass]

end

end Sys2Proof.Machine
end

section
/-! The obligations on MBX_ACCESS and the Ostler's commands, settled. -/

namespace Sys2Proof.Machine

/-- Settles O10: each row, where it is its packet's operation, is the one MBX_ACCESS with that operation's result. -/
theorem mbxAccessResults : Obligations.MbxAccessResults := by
  intro s id p c hl h b ends
  refine ⟨fun hop => ?_, fun hop => ?_, fun hop => ?_, fun hop => ?_, fun hop => ?_, fun hop => ?_⟩
  · exact (mbxAccessLock_isMbxAccess id p).does hl h (decide_eq_true (.inl hop))
  · exact (mbxAccessRelease_isMbxAccess id p).does hl h (decide_eq_true hop)
  · exact (mbxAccessWrite_isMbxAccess id p).does hl h (decide_eq_true hop)
  · exact (mbxAccessTake_isMbxAccess id p).does hl h (decide_eq_true hop)
  · exact (mbxAccessAck_isMbxAccess id p).does hl h (decide_eq_true hop)
  · exact (mbxAccessPeek_isMbxAccess id p).does hl h (decide_eq_true hop)

/-- Settles O23: most rows conclude with their action; NOP, CONTEXT_DESTROY, ADOPT and FORGET have their meaning where nothing refuses
them. -/
theorem ostlerCommandResults : Obligations.OstlerCommandResults := by
  refine ⟨fun s id c hl h => (nop_isEngineRow id).does hl h rfl, fun id p => concludes_of_ostlerCmd fun _ => rfl,
    fun id p => concludes_of_ostlerCmd fun _ => rfl, fun id p => concludes_of_conclude false fun _ => rfl,
    fun id p => concludes_of_ostlerCmd fun _ => rfl, fun id p => concludes_of_ostlerCmd fun _ => rfl,
    fun s id p c hl h hready herr => contextDestroy_does hl h hready herr, fun s id p c hl h hctx => ⟨?_, ?_⟩⟩
  · exact fun hrole hbusy => adopt_does hl h hctx hrole hbusy
  · exact fun hrole hother => forget_does hl h hctx hrole hother

end Sys2Proof.Machine
end

section
/-! SUPPORT. What a packet's parser reads fits the bits of its field (R3, R65): a field of n bytes is below 2^(8n), and a part of a byte
or an address below its own width. -/

namespace Sys2Proof.Machine

theorem ofBytes_lt (l : List Byte) : ofBytes l < 2 ^ (8 * l.length) := by
  induction l with
  | nil => exact Nat.one_pos
  | cons x xs ih =>
    have hx : x.toNat < 2 ^ 8 := x.isLt
    rw [ofBytes, List.length_cons, Nat.mul_succ, Nat.add_comm (8 * _), Nat.pow_add]
    omega

theorem sliceBytes_length (l : List Byte) (i n : Nat) : (sliceBytes l i n).length = n := by
  simp only [sliceBytes, List.length_append, List.length_replicate, List.length_take]
  omega

theorem field_lt (l : List Byte) (i n : Nat) : field l i n < 2 ^ (8 * n) := by
  have h := ofBytes_lt (sliceBytes l i n)
  rwa [sliceBytes_length] at h

/-! ### The widths that the encodings use -/

section
variable (l : List Byte) (i : Nat)

@[simp] theorem field_one_lt : field l i 1 < 256 := field_lt l i 1
@[simp] theorem field_two_lt : field l i 2 < 65536 := field_lt l i 2
@[simp] theorem field_four_lt : field l i 4 < 4294967296 := field_lt l i 4
@[simp] theorem field_eight_lt : field l i 8 < 18446744073709551616 := field_lt l i 8
@[simp] theorem field_high_half_lt : field l i 1 / 16 < 16 := Nat.div_lt_of_lt_mul (field_one_lt l i)
@[simp] theorem fva_lt : fva l i < 72057594037927936 := Nat.mod_lt _ (by decide)

end

section
variable (l : List Byte)

/-! ### Parsers of the tiles' commands -/

@[simp] theorem parseCopy_wf : (parseCopy l).wf = true := by simp [parseCopy, CopyParams.wf, fits, Nat.mod_lt]
@[simp] theorem parseMatmul_wf : (parseMatmul l).wf = true := by simp [parseMatmul, MatmulParams.wf, fits, Nat.mod_lt]
/-- VKERN takes at most NARGS arguments, each of eight bytes (R181). -/
@[simp] theorem parseVkern_wf (len : Nat) : (parseVkern l len).wf = true := by
  have hcount : (parseVkern l len).args.length ≤ (parseVkern l len).nargs := by simp [parseVkern]
  have hargs : ∀ a ∈ (parseVkern l len).args, a < 2 ^ 64 := by
    intro a ha
    obtain ⟨i, -, rfl⟩ := List.mem_map.1 ha
    exact field_lt l _ 8
  unfold VkernParams.wf
  simp only [Bool.and_eq_true, List.all_eq_true, decide_eq_true_eq]
  exact ⟨⟨by simp [parseVkern, fits], hcount⟩, hargs⟩
@[simp] theorem parseAccOpen_wf : (parseAccOpen l).wf = true := by simp [parseAccOpen, AccOpenParams.wf, fits, Nat.mod_lt]
@[simp] theorem parseAccClose_wf : (parseAccClose l).wf = true := by simp [parseAccClose, AccCloseParams.wf, fits, Nat.mod_lt]
@[simp] theorem parseSignal_wf : (parseSignal l).wf = true := by simp [parseSignal, SignalParams.wf, fits]
@[simp] theorem parseWait_wf : (parseWait l).wf = true := by simp [parseWait, WaitParams.wf, fits]
@[simp] theorem parseMbx_wf : (parseMbx l).wf = true := by simp [parseMbx, MbxAccessParams.wf, fits]

/-! ### Parsers of the Beater's commands -/

@[simp] theorem parseLookup_wf : (parseLookup l).wf = true := by simp [parseLookup, LookupParams.wf, fits, Nat.mod_lt]
@[simp] theorem parseSort_wf : (parseSort l).wf = true := by simp [parseSort, SortParams.wf, fits]
@[simp] theorem parseExchange_wf : (parseExchange l).wf = true := by simp [parseExchange, ExchangeParams.wf, fits, Nat.mod_lt]
@[simp] theorem parseScatter_wf : (parseScatter l).wf = true := by simp [parseScatter, ScatterParams.wf, fits, Nat.mod_lt]
@[simp] theorem parseTable_wf : (parseTable l).wf = true := by simp [parseTable, TableParams.wf, fits, Nat.mod_lt]
@[simp] theorem parsePromote_wf : (parsePromote l).wf = true := by simp [parsePromote, PromoteParams.wf, fits, Nat.mod_lt]
@[simp] theorem parseRefresh_wf : (parseRefresh l).wf = true := by simp [parseRefresh, RefreshParams.wf, fits, Nat.mod_lt]

/-! ### Parsers of the Farrier's commands -/

@[simp] theorem parseShard_wf : (parseShard l).wf = true := by simp [parseShard, ShardParams.wf, fits, Nat.mod_lt]
@[simp] theorem parseUpdate_wf : (parseUpdate l).wf = true := by simp [parseUpdate, UpdateParams.wf, fits, Nat.mod_lt]
@[simp] theorem parseFetch_wf : (parseFetch l).wf = true := by simp [parseFetch, FetchParams.wf, fits, Nat.mod_lt]

/-! ### Parsers of the Relay's commands -/

@[simp] theorem parseGroup_wf : (parseGroup l).wf = true := by simp [parseGroup, GroupParams.wf, fits, Nat.mod_lt]
@[simp] theorem parseColl_wf : (parseColl l).wf = true := by simp [parseColl, CollParams.wf, fits, Nat.mod_lt]
@[simp] theorem parseA2a_wf : (parseA2a l).wf = true := by simp [parseA2a, A2aParams.wf, fits, Nat.mod_lt]
@[simp] theorem parsePermute_wf : (parsePermute l).wf = true := by simp [parsePermute, PermuteParams.wf, fits, Nat.mod_lt]
@[simp] theorem parseCancel_wf : (parseCancel l).wf = true := by simp [parseCancel, CancelParams.wf, fits, Nat.mod_lt]

/-! ### Parsers of Blinkers' commands -/

@[simp] theorem parseAttend_wf : (parseAttend l).wf = true := by simp [parseAttend, AttendParams.wf, fits, Nat.mod_lt]
@[simp] theorem parsePageEdit_wf : (parsePageEdit l).wf = true := by simp [parsePageEdit, PageEditParams.wf, fits]

/-! ### Parsers of the Drover's commands -/

@[simp] theorem parseMap_wf : (parseMap l).wf = true := by simp [parseMap, MapParams.wf, fits]
@[simp] theorem parseMigrate_wf : (parseMigrate l).wf = true := by simp [parseMigrate, MigrateParams.wf, fits]
@[simp] theorem parseLend_wf : (parseLend l).wf = true := by simp [parseLend, LendParams.wf, fits, Nat.mod_lt]
@[simp] theorem parseSnapshot_wf : (parseSnapshot l).wf = true := by simp [parseSnapshot, SnapshotParams.wf, fits]

/-! ### Parsers of the network's commands -/

@[simp] theorem parseSend_wf : (parseSend l).wf = true := by simp [parseSend, SendParams.wf, fits, Nat.mod_lt]
@[simp] theorem parseRecv_wf : (parseRecv l).wf = true := by simp [parseRecv, RecvParams.wf, fits, Nat.mod_lt]

end

end Sys2Proof.Machine
end

section
/-! The obligation on decoded parameters, settled. -/

namespace Sys2Proof.Machine

/-- Settles O46: by cases on the opcode, each parser reads every parameter from a field of its width (R89 and the chapters' command
encodings), as do the opcodes whose few parameters are read in place. -/
theorem decodedParamsFit : Obligations.DecodedParamsFit := by
  intro op len l
  unfold parseParams
  split <;> simp [Params.wf, FenceParams.wf, RevertParams.wf, ObjParams.wf, RevokeParams.wf, CtxCreateParams.wf, CtxDestroyParams.wf,
    ConfigReadParams.wf, TelemetryParams.wf, ErrlogReadParams.wf, TraceParams.wf, TileRetireParams.wf, RemountParams.wf, RouteParams.wf,
    LinkParams.wf, FilterParams.wf, StatsParams.wf, fits, Nat.mod_lt]

end Sys2Proof.Machine
end

section
/-! SUPPORT. Instructions of the vector engine whose IMM codes are checked (R167): the group reductions, conversions and group scales
(R176, R178 to R180) are one row each, and one with legal codes completes with its meaning. -/

namespace Sys2Proof.Machine

/-- The meaning of an instruction whose IMM codes are legal if `ok`: it does `go`, or ends the kernel as an illegal word (R167). -/
def vxChecked (op : BitVec 8) (f : VxFields) (ok : Bool) (go : Vx → Block → Vx × Block) : VxBody := fun _ _ x b =>
  if ok then .ok (go x b) else .error (vxIllegal op f x)

/-- Command `i` is the row of instruction `op` with fields `f` on tile `tile`, whose IMM codes are legal if `ok`. -/
def IsCheckedVx (i : Instr) (tile : Fin 64) (op : BitVec 8) (f : VxFields) (stall : Nat) (ok : Bool) (go : Vx → Block → Vx × Block) :
    Prop :=
  ∀ s : State, exec i s = s.vx tile op f stall (vxChecked op f ok go)

/-- An instruction with legal codes that is next to issue retires with what its meaning leaves of the engine and of the block. -/
theorem IsCheckedVx.does {i : Instr} {tile : Fin 64} {op : BitVec 8} {f : VxFields} {stall : Nat} {ok : Bool}
    {go : Vx → Block → Vx × Block} (hi : IsCheckedVx i tile op f stall ok go) {s : State} {c : Cmd} {p : VkernParams} (hl : s.live)
    (h : s.blk.VxRuns tile op f stall c p) (hok : ok = true) :
    let r := go (s.blk.vxFetched tile op f stall) s.blk
    exec i s = .next (s.withBlk (s.blk.vxRetired r.2 tile op f stall r.1)) := by
  rw [hi s, State.vx, State.run_live hl, Block.vxRow_runs h (if_pos hok)]

/-- The engine after a group reduction: each group's tree gives one result (R176). -/
def vxReduceGroups (f : VxFields) (op : Nat → Nat → Nat) (x : Vx) : Vx :=
  let l := vxReduceIn f 0 x
  vxReduceOut f ((runsOf f.group (l.length / f.group) l).map (treeOf op)) x

section
variable (tile : Fin 64) (f : VxFields) (stall : Nat)

theorem vrsumg_isCheckedVx : IsCheckedVx (.vrsumg tile f stall) tile 0x63 f stall f.groupOk
    (fun x b => (vxReduceGroups f (vxSum f) x, b)) := fun _ => rfl
theorem vramaxg_isCheckedVx : IsCheckedVx (.vramaxg tile f stall) tile 0x64 f stall f.groupOk
    (fun x b => (vxReduceGroups f vxAmaxOf x, b)) := fun _ => rfl
theorem vcvt_isCheckedVx : IsCheckedVx (.vcvt tile f stall) tile 0x80 f stall (cvtOk f) (fun x b =>
    vxConvert f ((List.range (cvtCount f.src f.fm)).map (fun i =>
      cvtCode f.src f.fm (vxRnd f (b.free.draws + i)) (decide (f.sat = 1)) (x.elem f.ra f.src (cvtFrom f + i)))) x b (cvtTo f)) :=
  fun _ => rfl
theorem vqnt_isCheckedVx : IsCheckedVx (.vqnt tile f stall) tile 0x82 f stall (cvtOk f && inF32 f.src && f.groupOk) (fun x b =>
    let n := cvtCount f.src f.fm
    vxConvert f ((List.range n).map (fun i =>
      vqntElem f (vxRnd f (b.free.draws + i)) (x.elem f.ra f.src (cvtFrom f + i)) (x.word f.rb (scaleWord f n i)))) x b (cvtTo f)) :=
  fun _ => rfl
theorem vdqnt_isCheckedVx : IsCheckedVx (.vdqnt tile f stall) tile 0x83 f stall (cvtOk f && inF32 f.src && f.groupOk) (fun x b =>
    vxConvert f ((List.range 512).map (fun i =>
      vdqntElem f.src (x.elem f.ra f.src (cvtFrom f + i)) (x.word f.rb (scaleWord f 512 i)))) x b 0) := fun _ => rfl

/-- Whether VSEED's source format, group, PART and segment are legal (R178). -/
def vseedOk : Bool :=
  inF32 f.src && f.groupOk && decide ((f.part + 1) * (cvtCount f.src f.fm / f.group) ≤ 512) &&
    (decide (cvtBits f.fm ≤ cvtBits f.src) || decide (f.part < cvtSegs f.src f.fm))

theorem vseedOk_iff : vseedOk f = true ↔ inF32 f.src = true ∧ f.groupOk = true ∧
    (f.part + 1) * (cvtCount f.src f.fm / f.group) ≤ 512 ∧ (cvtBits f.fm ≤ cvtBits f.src ∨ f.part < cvtSegs f.src f.fm) := by
  simp [vseedOk, and_assoc]

theorem vseed_isCheckedVx : IsCheckedVx (.vseed tile f stall) tile 0x81 f stall (vseedOk f) (fun x b =>
    let y := x.setElems f.rd 0 (f.part * (cvtCount f.src f.fm / f.group)) ((vseedGroups f x).map (fun q => q.1))
    ({ y with special := y.special || (vseedGroups f x).any (fun q => q.2) }, b)) := fun _ => rfl

end

end Sys2Proof.Machine
end

section
/-! The obligation on group reductions, conversions and group scales, settled. -/

namespace Sys2Proof.Machine

/-- Settles O5: each instruction is a checked row, and the hypotheses are what its check asks for. -/
theorem vxConvertResults : Obligations.VxConvertResults := by
  intro tile f stall s c p hl draws
  refine ⟨fun h hgroup => ?_, fun h hgroup => ?_, fun h hcvt => ?_, fun h hsrc hgroup hroom hpart => ?_,
    fun h hcvt hsrc hgroup => ?_, fun h hcvt hsrc hgroup => ?_⟩
  · exact (vrsumg_isCheckedVx tile f stall).does hl h hgroup
  · exact (vramaxg_isCheckedVx tile f stall).does hl h hgroup
  · exact (vcvt_isCheckedVx tile f stall).does hl h hcvt
  · exact (vseed_isCheckedVx tile f stall).does hl h ((vseedOk_iff f).2 ⟨hsrc, hgroup, hroom, hpart⟩)
  · exact (vqnt_isCheckedVx tile f stall).does hl h (by simp [hcvt, hsrc, hgroup])
  · exact (vdqnt_isCheckedVx tile f stall).does hl h (by simp [hcvt, hsrc, hgroup])

end Sys2Proof.Machine
end

section
/-! SUPPORT. Commands on accumulator groups (R111, R136 to R141, R153): what each does where the group admits it. -/

namespace Sys2Proof.Machine

section
variable {s : State} {id : Nat} {c : Cmd} {par : Option Nat} {upset : List (Nat × Nat × BitVec 32)}

/-- A row of a tile's command that starts has its meaning, in the block that holds its ranges (R129). -/
theorem State.run_tileCmd {p : Params} (hl : s.live) (h : s.blk.TileStarts id p c) (go : Cmd → Block → Block) :
    s.run (fun b => b.tileCmd id p go) = .next (s.withBlk ((go c (s.blk.entered id c)).notePrim c.tile)) := by
  rw [State.run_live hl, Block.tileCmd_starts h]

/-! ### MATMUL -/

/-- A MATMUL is executed exactly where its group is open and has not failed, has room for one more MATMUL, holds entries of the operands'
type, and has the rows (R135, R136, R139, R155). -/
theorem matmulErr_eq_none_iff (p : MatmulParams) (m : AccMode) (g : Group) : matmulErr p m g = none ↔
    g.isOpen = true ∧ g.failed = none ∧ g.matmuls.length < 256 ∧ g.isInt = (p.isInt && !p.scaled) ∧
      (if m.legacy then 0 else p.rowOff) + ceilDiv p.n 64 * p.m ≤ g.rows := by
  unfold matmulErr
  cases g.isOpen with
  | false => simp
  | true =>
    cases g.failed with
    | some a => simp
    | none => simp [ite_eq_iff, not_le, not_lt]

/-- A MATMUL that nothing refuses and that meets no parity error executes. -/
theorem execMatmul_admitted {p : MatmulParams} (hl : s.live) (h : s.blk.TileStarts id (.matmul p) c) :
    let b := s.blk.entered id c
    let k := p.key (b.accMode c.tile)
    matmulErr p (b.accMode c.tile) (b.group c.tile k) = none → parityHit (b.plan c).spans par = none →
    execMatmul id p par upset s = .next (s.withBlk ((b.runMatmul c p k upset).notePrim c.tile)) := by
  intro b k herr hpar
  rw [execMatmul, State.run_tileCmd hl h]
  simp only [b, k, herr, hpar]

/-! ### ACC_OPEN -/

/-- An ACC_OPEN that meets neither an open group nor a parity error opens its group, filled as INIT says (R137, R138). -/
theorem execAccOpen_free {p : AccOpenParams} (hl : s.live) (h : s.blk.TileStarts id (.accOpen p) c) :
    let b := s.blk.entered id c
    let k := p.key (b.accMode c.tile)
    let g := b.newGroup c.tile p (b.accMode c.tile)
    let r := g.start (b.tile c.tile).store (b.tile c.tile).acc
    b.openClash c.tile k g.base g.rows = false → parityHit (b.plan c).spans par = none →
    execAccOpen id p par s = .next (s.withBlk
      ((((b.setTile c.tile { b.tile c.tile with acc := r.2 }).setGroup c.tile k r.1).finish id 0 0 0).notePrim c.tile)) := by
  intro b k g r hclash hpar
  rw [execAccOpen, State.run_tileCmd hl h]
  simp only [hclash, hpar, Bool.false_eq_true, if_false, b, k, g, r]

/-! ### ACC_CLOSE -/

section
variable {p : AccCloseParams} (hl : s.live) (h : s.blk.TileStarts id (.accClose p) c)
  (hopen : ((s.blk.entered id c).group c.tile (p.key ((s.blk.entered id c).accMode c.tile))).isOpen = true)
  (hfailed : ((s.blk.entered id c).group c.tile (p.key ((s.blk.entered id c).accMode c.tile))).failed = none)
include hl h hopen hfailed

/-- An ACC_CLOSE that discards releases its group (R141). -/
theorem execAccClose_discards (hdiscard : p.discard = true) :
    let b := s.blk.entered id c
    execAccClose id p upset s =
      .next (s.withBlk (((b.releaseGroup c.tile (p.key (b.accMode c.tile))).finish id 0 0 0).notePrim c.tile)) := by
  rw [execAccClose, State.run_tileCmd hl h]
  simp [hopen, hfailed, hdiscard]

/-- An ACC_CLOSE whose destination ends within the tile store drains its group, with the errors that the drain meets (R141). -/
theorem execAccClose_drains (hdiscard : p.discard = false) :
    let b := s.blk.entered id c
    let k := p.key (b.accMode c.tile)
    let g := b.group c.tile k
    tsAddr p.dest + (g.rows - 1) * p.destStride + 64 * g.entry - 1 ≤ tsLast →
    execAccClose id p upset s = .next (s.withBlk
      (((b.onTile c.tile (fun t => { t with acc := g.upset t.acc upset })).drain c p k).notePrim c.tile)) := by
  intro b k g hfits
  rw [execAccClose, State.run_tileCmd hl h]
  simp [hopen, hfailed, hdiscard, hfits.not_gt, b, k, g]

end

/-! ### GROUP_REPLAY -/

/-- An ACC_CLOSE whose group waits for its replay has it, once the array and the bank are free (R153). -/
theorem execGroupReplay_ready {p : AccCloseParams} (hl : s.live) (hfound : s.blk.findCmd id = some c) (hparams : c.params = .accClose p)
    (hruns : c.phase = .running) (hcloses : (s.blk.group c.tile (p.key (s.blk.accMode c.tile))).closing = some id)
    (hready : s.blk.replayReady c = true) : execGroupReplay id par upset s =
      .next (s.withBlk ((s.blk.replay c p (p.key (s.blk.accMode c.tile)) par upset).notePrim c.tile)) := by
  rw [execGroupReplay, State.run_live hl]
  simp only [hfound, hparams, if_pos (And.intro hruns (And.intro hcloses hready))]

end

end Sys2Proof.Machine
end

section
/-! The obligation on accumulator groups, settled. -/

namespace Sys2Proof.Machine

/-- Settles O8: each command's hypotheses are what its row asks of the group, so that it takes the branch named. -/
theorem groupResults : Obligations.GroupResults := by
  refine ⟨fun s id p par upset c hl h => ?_, fun s id p par c hl h => ?_, fun s id p upset c hl h => ?_,
    fun s id p par upset c hl hfound hparams hruns hcloses hready => ?_⟩
  · intro b m g hopen hfailed hroom htype hrows hpar
    exact execMatmul_admitted hl h ((matmulErr_eq_none_iff p m g).2 ⟨hopen, hfailed, hroom, htype, hrows⟩) hpar
  · intro b m g hclash hpar
    exact execAccOpen_free hl h hclash hpar
  · intro b k g hopen hfailed
    exact ⟨fun hdiscard => execAccClose_discards hl h hopen hfailed hdiscard,
      fun hdiscard hfits => execAccClose_drains hl h hopen hfailed hdiscard hfits⟩
  · exact execGroupReplay_ready hl hfound hparams hruns hcloses hready

end Sys2Proof.Machine
end

section
/-! SUPPORT. LOAD and STORE, and the commands that order a tile's others: FENCE, SIGNAL and WAIT (R156 to R159, R161, R162). -/

namespace Sys2Proof.Machine

section
variable {s : State} {id : Nat} {c : Cmd}

/-! ### LOAD and STORE -/

/-- A tile's command whose action succeeds ends with the action's status, detail and engine value (R162). -/
theorem Block.tileConclude_ok {b b' : Block} {m : Act (Nat × Nat × Nat)} {st d e : Nat} (h : m b = (.ok (st, d, e), b')) :
    b.tileConclude id m = b'.finish id st d e := by
  unfold Block.tileConclude
  rw [h]

/-- A LOAD whose pieces all arrive completes with the bytes that it copied (R161, R162). -/
theorem execLoad_copies {p : CopyParams} {b : Block} (hl : s.live) (h : s.blk.TileStarts id (.load p) c)
    (hparts : loadParts (c.port p.hint p.useCount) c.tile p.parts (s.blk.entered id c) = (.ok (), b)) :
    execLoad id p s = .next (s.withBlk ((b.finish id 0 0 (p.rows * p.rowBytes % 2 ^ 32)).notePrim c.tile)) := by
  rw [execLoad, State.run_tileCmd hl h, Block.tileConclude_ok ((Act.bind_ok hparts).trans (Act.pure_run _ b))]

/-- A STORE whose pieces are all written, with no failing word among them, completes with the bytes that it copied (R161, R162). -/
theorem execStore_copies {p : CopyParams} {par : Option Nat} {b : Block} (hl : s.live) (h : s.blk.TileStarts id (.store p) c)
    (hparts : storeParts (c.port p.hint p.useCount) c.tile (parityHit ((s.blk.entered id c).plan c).spans par) p.parts
      (s.blk.entered id c) = (.ok none, b)) :
    execStore id p par s = .next (s.withBlk ((b.finish id 0 0 (p.rows * p.rowBytes % 2 ^ 32)).notePrim c.tile)) := by
  rw [execStore, State.run_tileCmd hl h]
  simp only [hparts]

/-! ### FENCE and SIGNAL -/

/-- A command that starts does not run yet: a row that also ends a running command takes its start's branch. -/
theorem Block.TileStarts.not_running {b : Block} {p : Params} (h : b.TileStarts id p c) {q : Prop} : ¬ (c.phase = .running ∧ q) := by
  rintro ⟨hruns, -⟩
  rw [h.starts.waits] at hruns
  cases hruns

/-- A FENCE that finds nothing outstanding completes (R156). -/
theorem execFence_clear {p : FenceParams} (hl : s.live) (h : s.blk.TileStarts id (.fence p) c)
    (hclear : (s.blk.entered id c).fenceClear c p.mask = true) :
    execFence id p s = .next (s.withBlk (((s.blk.entered id c).finish id 0 0 0).notePrim c.tile)) := by
  rw [execFence, State.run_live hl]
  simp only [h.starts.found, if_neg h.not_running, Block.tileCmd_starts h, if_pos hclear]

/-- A SIGNAL to a flag of a working tile of its own context raises it by its completion event (R157). -/
theorem execSignal_flag {p : SignalParams} (hl : s.live) (h : s.blk.TileStarts id (.signal p) c) (hkind : p.kind = 0)
    (hworks : (s.blk.entered id c).tileWorks p.index = true) (hctx : (s.blk.entered id c).rget .TILE_CFG_CTX p.index = c.ctx) :
    execSignal id p s = .next (s.withBlk
      ((((s.blk.entered id c).addEffect id (.flag p.index p.flag)).finish id 0 0 0).notePrim c.tile)) := by
  rw [execSignal, State.run_tileCmd hl h, if_pos hkind, if_pos (by simp [hworks, hctx])]

/-- A SIGNAL to a mailbox sets its doorbell bit by its completion event (R157). -/
theorem execSignal_doorbell {p : SignalParams} (hl : s.live) (h : s.blk.TileStarts id (.signal p) c) (hkind : p.kind ≠ 0) :
    execSignal id p s = .next (s.withBlk
      ((((s.blk.entered id c).addEffect id (.doorbell p.index p.flag)).finish id 0 0 0).notePrim c.tile)) := by
  rw [execSignal, State.run_tileCmd hl h, if_neg hkind]

/-! ### WAIT -/

section
variable {p : WaitParams}

/-- A WAIT whose flag has reached VALUE ends with the flag's value (R158, R162). -/
theorem Block.waitEnd_reached {b : Block} (h : reached 32 p.value (b.flagVal c.tile p.flag) = true) :
    b.waitEnd c p = (b.updCmd c.id (fun x => { x with startT := b.clk.t })).finish c.id 0 0 (b.flagVal c.tile p.flag) := if_pos h

/-- A WAIT that is satisfied at its start completes (R158). -/
theorem execWait_reached (hl : s.live) (h : s.blk.TileStarts id (.wait p) c) :
    let b := s.blk.entered id c
    reached 32 p.value (b.flagVal c.tile p.flag) = true →
    execWait id p s = .next (s.withBlk
      (((b.updCmd id (fun x => { x with startT := b.clk.t })).finish id 0 0 (b.flagVal c.tile p.flag)).notePrim c.tile)) := by
  intro b hreached
  have hid : c.id = id := Block.findCmd_id h.starts.found
  rw [execWait, State.run_live hl]
  simp only [h.starts.found, if_neg h.not_running, Block.tileCmd_starts h, Block.waitEnd_reached hreached, hid, b]

/-- A running WAIT that is not satisfied ends at its time-out, counted from its start, and its tile is HELD (R159); that the row first
advances the clock to that time is log entry 11's. -/
theorem execWaitTimeout_unsatisfied (hl : s.live) (hfound : s.blk.findCmd id = some c) (hparams : c.params = .wait p)
    (hruns : c.phase = .running) (hlimit : p.timeoutUs ≠ 0) (hunreached : reached 32 p.value (s.blk.flagVal c.tile p.flag) = false) :
    let b := s.blk.advanceTo (c.startT + p.timeoutUs * usec)
    execWaitTimeout id s = .next (s.withBlk ((b.finish id 0x1002 0 (b.flagVal c.tile p.flag)).rset .TILE_STATUS_STATE c.tile 2)) := by
  intro b
  have hends : c.phase = .running ∧ p.timeoutUs ≠ 0 ∧ (!reached 32 p.value (s.blk.flagVal c.tile p.flag)) = true :=
    ⟨hruns, hlimit, by rw [hunreached, Bool.not_false]⟩
  rw [execWaitTimeout, State.run_live hl]
  simp only [hfound, hparams, if_pos hends, b]

end

end

end Sys2Proof.Machine
end

section
/-! SUPPORT. Writes of TILE_CFG (R144, R148): what one that is accepted, and one that is ignored, leave of the tile's configuration. -/

namespace Sys2Proof.Machine

/-! ### Writes beside a field and beside a word -/

theorem Fld.word_lt_of_besides {f g : Fld} (h : f.besides g = true) (n : Fin 64) : f.word n < 2 ^ 24 ∧ g.word n < 2 ^ 24 := by
  simp only [Fld.besides, Bool.and_eq_true, decide_eq_true_eq] at h
  obtain ⟨-, hf, hf0, hg, hg0, -⟩ := h
  exact ⟨Fld.word_lt_64 f n hf hf0, Fld.word_lt_64 g n hg hg0⟩

/-- A field of a tile keeps its value when a field beside it is written. -/
theorem Block.tileField_rset_besides (b : Block) (n : Fin 64) {f g : Fld} (h : f.besides g = true) (v : Nat) :
    (b.rset f n v).rget g n = b.rget g n := by
  obtain ⟨hf, hg⟩ := Fld.word_lt_of_besides h n
  simp only [Fld.besides, Bool.and_eq_true, decide_eq_true_eq] at h
  obtain ⟨hfits, -, -, -, -, hreg | hbits⟩ := h
  · exact Block.rget_rset_ne b hfits (Fld.apart_of_reg hreg hf hg)
  · exact Block.rget_rset_ne b hfits (Fld.apart_of_bits n hbits)

/-- A register's word keeps its value when a field of another register is written. -/
theorem Block.word_rset_ne (b : Block) {f : Fld} {r : RegId} {i w : Nat} (h : f.reg ≠ r) (hf : f.word i < 2 ^ 24) (hw : w < 2 ^ 24)
    (v : Nat) : (b.rset f i v).word r w = b.word r w := by
  unfold Block.rset
  exact Block.word_setWord_ne b (RegId.key_ne_of_ne h.symm hw hf)

theorem Block.word_count_ne (b : Block) {f : Fld} {r : RegId} {i w : Nat} (h : f.reg ≠ r) (hf : f.word i < 2 ^ 24) (hw : w < 2 ^ 24)
    (k : Nat) : (b.count f i k).word r w = b.word r w := by
  unfold Block.count
  split
  · rfl
  · exact Block.word_rset_ne b h hf hw _

/-! ### What counting a host write leaves of a tile -/

theorem Block.hostWrote_tileField (b : Block) (n : Fin 64) {g : Fld} (h1 : g.reg.words = 1) (h2 : g.lo / 64 = 0)
    (hs : g.reg ∉ signalRegs) : b.hostWrote.rget g n = b.rget g n :=
  Block.OnlyRegs.keep (Block.hostWrote_only [] b) (Fld.word_lt_64 g n h1 h2) hs (by simp)

theorem Block.hostWrote_tile (b : Block) (n : Nat) : b.hostWrote.tile n = b.tile n := by
  unfold Block.tile Block.hostWrote
  rw [Block.count_tiles]

/-! ### TILE_CFG -/

/-- A write of TILE_CFG with this LEGACY_ROWS is accepted: the tile is IDLE, nothing is open, and LEGACY_ROWS is a multiple of 8 from 8 to
2,048 (R144, R148). -/
def Block.AcceptsTileCfg (b : Block) (n rows : Nat) : Prop :=
  b.rget .TILE_STATUS_STATE n = 0 ∧ (∀ g ∈ (b.tile n).groups, g.2.isOpen = false) ∧ 8 ≤ rows ∧ rows ≤ 2048 ∧ rows % 8 = 0

theorem Block.hostWrote_acceptsTileCfg (b : Block) (n : Fin 64) (rows : Nat) :
    b.hostWrote.AcceptsTileCfg n rows ↔ b.AcceptsTileCfg n rows := by
  unfold Block.AcceptsTileCfg
  rw [Block.hostWrote_tileField b n (by decide) (by decide) (by decide), Block.hostWrote_tile]

/-- The condition as the write itself tests it. -/
theorem Block.acceptsTileCfg_iff (b : Block) (n rows : Nat) : b.AcceptsTileCfg n rows ↔
    b.rget .TILE_STATUS_STATE n = 0 ∧ (!(b.tile n).groups.any (fun g => g.2.isOpen)) = true ∧ 8 ≤ rows ∧ rows ≤ 2048 ∧ rows % 8 = 0 := by
  rw [Block.AcceptsTileCfg, Bool.not_eq_true', List.any_eq_false]
  simp only [Bool.not_eq_true]

theorem Block.writeTileCfg_accepted {b : Block} {n v : Nat} (h : b.AcceptsTileCfg n (bits v 2 12)) : b.writeTileCfg n v =
    (((b.rset .TILE_CFG_ACC_MODE n (bits v 0 1)).rset .TILE_CFG_LEGACY_BF16 n (bits v 1 1)).rset .TILE_CFG_LEGACY_ROWS n
      (bits v 2 12)).rset .TILE_STATUS_ACC_MODE n (bits v 0 1) :=
  if_pos ((b.acceptsTileCfg_iff n _).1 h)

theorem Block.writeTileCfg_ignored {b : Block} {n v : Nat} (h : ¬ b.AcceptsTileCfg n (bits v 2 12)) :
    b.writeTileCfg n v = b.rset .TILE_STATUS_CFG_REJECT n 1 :=
  if_neg (fun hc => h ((b.acceptsTileCfg_iff n _).2 hc))

section
variable (b : Block) (n : Fin 64) (v : Nat)

/-- An accepted write gives TILE_CFG its fields and leaves CFG_REJECT (R148). -/
theorem Block.writeTileCfg_accepted_fields (h : b.AcceptsTileCfg n (bits v 2 12)) :
    (b.writeTileCfg n v).rget .TILE_CFG_ACC_MODE n = bits v 0 1 ∧ (b.writeTileCfg n v).rget .TILE_CFG_LEGACY_BF16 n = bits v 1 1 ∧
    (b.writeTileCfg n v).rget .TILE_CFG_LEGACY_ROWS n = bits v 2 12 ∧
    (b.writeTileCfg n v).rget .TILE_STATUS_CFG_REJECT n = b.rget .TILE_STATUS_CFG_REJECT n := by
  rw [Block.writeTileCfg_accepted h]
  refine ⟨?_, ?_, ?_, ?_⟩
  · rw [Block.tileField_rset_besides _ n (by decide), Block.tileField_rset_besides _ n (by decide),
      Block.tileField_rset_besides _ n (by decide), Block.rget_rset_of_lt b (by decide) n (bits_lt v 0 1)]
  · rw [Block.tileField_rset_besides _ n (by decide), Block.tileField_rset_besides _ n (by decide),
      Block.rget_rset_of_lt _ (by decide) n (bits_lt v 1 1)]
  · rw [Block.tileField_rset_besides _ n (by decide), Block.rget_rset_of_lt _ (by decide) n (bits_lt v 2 12)]
  · rw [Block.tileField_rset_besides _ n (by decide), Block.tileField_rset_besides _ n (by decide),
      Block.tileField_rset_besides _ n (by decide), Block.tileField_rset_besides _ n (by decide)]

/-- An ignored write sets CFG_REJECT and leaves TILE_CFG's word (R148). -/
theorem Block.writeTileCfg_ignored_fields (h : ¬ b.AcceptsTileCfg n (bits v 2 12)) :
    (b.writeTileCfg n v).rget .TILE_STATUS_CFG_REJECT n = 1 ∧ (b.writeTileCfg n v).word .TILE_CFG n = b.word .TILE_CFG n := by
  rw [Block.writeTileCfg_ignored h]
  exact ⟨Block.rget_rset_of_lt b (by decide) n (by decide),
    Block.word_rset_ne b (by decide) (Fld.word_lt_64 _ n (by decide) (by decide)) (by omega) 1⟩

end

theorem Block.hostWrote_tileCfg (b : Block) (n : Fin 64) : b.hostWrote.word .TILE_CFG n = b.word .TILE_CFG n :=
  Block.word_count_ne b (by decide) (by decide) (by omega) 1

end Sys2Proof.Machine
end

section
/-! The obligations on a tile's copies, its ordering commands and TILE_CFG, settled. -/

namespace Sys2Proof.Machine

/-- Settles O7: where every piece is read and written, the copy's action succeeds, and the command ends with its result. -/
theorem copyResults : Obligations.CopyResults :=
  ⟨fun _ _ _ _ _ hl h hparts => execLoad_copies hl h hparts, fun _ _ _ _ _ _ hl h hparts => execStore_copies hl h hparts⟩

/-- Settles O9: a command that starts takes its start's branch, and there the end named. -/
theorem orderResults : Obligations.OrderResults := by
  refine ⟨fun s id p c hl h hclear => ?_, fun s id p c hl h => ⟨fun hkind hworks hctx => ?_, fun hkind => ?_⟩,
    fun s id p c hl h => ?_, fun s id p c hl hfound hparams hruns hlimit hunreached => ?_⟩
  · exact execFence_clear hl h hclear
  · exact execSignal_flag hl h hkind hworks hctx
  · exact execSignal_doorbell hl h (by omega)
  · exact execWait_reached hl h
  · exact execWaitTimeout_unsatisfied hl hfound hparams hruns hlimit hunreached

/-- Settles O54: counting the host write changes neither the tile nor its registers, so the write is accepted or ignored as the state before
it says. -/
theorem tileConfigWrite : Obligations.TileConfigWrite := by
  intro n v s hl hw rows ok
  have haccepts : s.blk.hostWrote.AcceptsTileCfg n rows ↔ ok := s.blk.hostWrote_acceptsTileCfg n rows
  refine ⟨_, (tileCfgWrite_isHostWrite n v).does s hl hw, fun h => ?_, fun h => ?_⟩
  · have hfields := Block.writeTileCfg_accepted_fields _ n v.toNat (haccepts.2 h)
    rwa [Block.hostWrote_tileField s.blk n (g := .TILE_STATUS_CFG_REJECT) (by decide) (by decide) (by decide)] at hfields
  · have hfields := Block.writeTileCfg_ignored_fields _ n v.toNat (fun hc => h (haccepts.1 hc))
    rwa [Block.hostWrote_tileCfg] at hfields

end Sys2Proof.Machine
end

section
/-! SUPPORT. The VX instruction word: the opcode and the fields of a word lie side by side and fill it (chapter 06, "Instruction word"). -/

namespace Sys2Proof.Machine
open BitVec

/-- A cut of a word that was put together is a cut of its fields side by side. -/
theorem extractLsb'_vxEncode (op : BitVec 8) (f : VxFields) (start len : Nat) : (vxEncode op f).extractLsb' start len =
    (f.imm ++ (f.bs ++ (f.sat ++ (f.rnd ++ (f.fmt ++ (f.c ++ (f.b ++ (f.a ++ (f.d ++ op))))))))).extractLsb' start len := rfl

/-- The opcode of a word that was put together is the one it was put together from. -/
@[simp] theorem vxOpcode_vxEncode (op : BitVec 8) (f : VxFields) : vxOpcode (vxEncode op f) = op := by
  rw [vxOpcode, extractLsb'_vxEncode]
  simp (disch := decide) only [extractLsb'_append_eq_of_add_le, extractLsb'_eq_self]

/-- The fields likewise: the fields above one fall away, and those below it end where it begins. -/
@[simp] theorem vxDecode_vxEncode (op : BitVec 8) (f : VxFields) : vxDecode (vxEncode op f) = f := by
  simp only [vxDecode, extractLsb'_vxEncode]
  simp (disch := decide) only [extractLsb'_append_eq_of_add_le, extractLsb'_append_eq_of_le]
  simp only [Nat.reduceAdd, Nat.reduceSub, extractLsb'_eq_self]

/-- A word is its opcode and its fields: each begins where the one below it ends, so that they join to the whole word. -/
theorem vxEncode_vxDecode (w : BitVec 64) : vxEncode (vxOpcode w) (vxDecode w) = w :=
  have join {start len start' len' : Nat} (h : start' = start + len) :
      w.extractLsb' start' len' ++ w.extractLsb' start len = w.extractLsb' start (len' + len) :=
    extractLsb'_append_extractLsb'_eq_extractLsb' h
  calc vxEncode (vxOpcode w) (vxDecode w)
    _ = w.extractLsb' 40 24 ++ (w.extractLsb' 39 1 ++ (w.extractLsb' 38 1 ++ (w.extractLsb' 36 2 ++ (w.extractLsb' 32 4 ++
        (w.extractLsb' 26 6 ++ (w.extractLsb' 20 6 ++ (w.extractLsb' 14 6 ++ (w.extractLsb' 8 6 ++ w.extractLsb' 0 8)))))))) := rfl
    _ = w.extractLsb' 0 64 := by simp (disch := decide) only [join]
    _ = w := extractLsb'_eq_self

end Sys2Proof.Machine
end

section
/-! SUPPORT. Elements of a lane instruction (R166, R169): those below VL fill exactly the words below VL of the destination. -/

namespace Sys2Proof.Machine

theorem fmtBits_pos {fmt : Nat} (h : fmt ≤ 8) : 0 < fmtBits fmt := by
  rcases fmtBits_cases h with h | h | h | h | h <;> omega

/-- The elements below VL of a pair are one for each word (R166). -/
theorem Vx.count_pair (x : Vx) {fmt : Nat} (h : fmtBits fmt = 64) : x.count fmt = x.vl := if_pos h

/-- The elements below VL of a narrower format fill the words below VL. -/
theorem Vx.count_mul_fmtBits (x : Vx) {fmt : Nat} (hf : fmt ≤ 8) (h : fmtBits fmt ≠ 64) : x.count fmt * fmtBits fmt = x.vl * 32 := by
  rw [Vx.count, if_neg h]
  rcases fmtBits_cases hf with h' | h' | h' | h' | h' <;> rw [h'] <;> omega

section
variable (x : Vx) (f : VxFields) (g : Vx → Nat → Nat)

/-- What a lane instruction gives for the elements below VL, in order. -/
def vxLaneValues : List Nat := (List.range (x.count f.fm)).map (g x)

theorem length_vxLaneValues : (vxLaneValues x f g).length = x.count f.fm := by simp [vxLaneValues]

theorem vxLanes_eq : vxLanes f g x = x.setElems f.rd f.fm 0 (vxLaneValues x f g) := rfl

variable {x f} (hf : f.fm ≤ 8) (hvl : x.vl ≤ 512)
include hf hvl

/-- Each element below VL is what the instruction computes for it, in the width of the format (R169). -/
theorem Vx.elem_vxLanes {i : Nat} (hi : i < x.count f.fm) : (vxLanes f g x).elem f.rd f.fm i = g x i % 2 ^ fmtBits f.fm := by
  have hpair : fmtBits f.fm = 64 → i < 512 := fun h => by rw [x.count_pair h] at hi; omega
  have hword : fmtBits f.fm ≠ 64 → i * fmtBits f.fm / 32 < 512 := fun h => by
    have hlt := Nat.mul_lt_mul_of_pos_right hi (fmtBits_pos hf)
    rw [x.count_mul_fmtBits hf h] at hlt
    omega
  rw [vxLanes_eq, Vx.elem_setElems _ _ hf (fun h => ?_) hpair (fun h => ?_) hword, length_vxLaneValues, if_pos (by omega)]
  · simp [vxLaneValues, List.getD, hi]
  · rw [length_vxLaneValues, x.count_pair h]; omega
  · rw [length_vxLaneValues, Nat.zero_add, x.count_mul_fmtBits hf h]; omega

/-- A word of another register, or at VL or above, reads as before (R166, R169). -/
theorem Vx.word_vxLanes {q w : Nat} (hw : w < 512) (h : (q ≠ f.rd ∧ (f.fm = 8 → q ≠ f.rd + 1)) ∨ x.vl ≤ w) :
    (vxLanes f g x).word q w = x.word q w := by
  rw [vxLanes_eq]
  refine Vx.word_setElems _ _ hf (fun hp => ?_) (fun hp => ?_) hw (h.imp_right fun hle => ⟨fun hp => ?_, fun hp => ?_⟩)
  all_goals rw [length_vxLaneValues, Nat.zero_add]
  · rw [x.count_pair hp]; exact hvl
  · rw [x.count_mul_fmtBits hf hp]; omega
  · rw [x.count_pair hp]; exact hle
  · rw [x.count_mul_fmtBits hf hp]; omega

end

end Sys2Proof.Machine
end

section
/-! The obligations on the VX word and on the elements that a lane instruction writes, settled. -/

namespace Sys2Proof.Machine

/-- Settles O47: putting a word together and taking it apart undo each other. -/
theorem vxWordRoundTrip : Obligations.VxWordRoundTrip := by
  refine ⟨fun op f => ⟨vxOpcode_vxEncode op f, vxDecode_vxEncode op f⟩, vxEncode_vxDecode, fun op op' f f' h => ⟨?_, ?_⟩⟩
  · simpa using congrArg vxOpcode h
  · simpa using congrArg vxDecode h

/-- Settles O59: the elements below VL are written one by one, and they fill the words below VL. -/
theorem lanesBelowVl : Obligations.LanesBelowVl := fun _ _ g hf hvl =>
  ⟨fun _ hi => Vx.elem_vxLanes g hf hvl hi,
    fun _ hle hw => Vx.word_vxLanes g hf hvl hw (.inr hle),
    fun _ _ hr hpair hw => Vx.word_vxLanes g hf hvl hw (.inl ⟨hr, hpair⟩),
    fun _ _ hle hw => Vx.word_vxLanes g hf hvl hw (.inr hle)⟩

end Sys2Proof.Machine
end

section
/-! SUPPORT. Instructions of the vector engine as rows (R170, R171): branches, loads and stores complete with their meaning, and what a
store leaves in the tile store (R172). -/

namespace Sys2Proof.Machine

/-! ### Branches -/

theorem vxBranch_decide (f : VxFields) (p : BitVec 64 → BitVec 64 → Prop) [∀ a b, Decidable (p a b)] (x : Vx) :
    vxBranch f (fun a b => decide (p a b)) x = if p (x.sreg f.rd) (x.sreg f.rb) then x.jump (vxTarget f.imm64) else x := by
  simp only [vxBranch, decide_eq_true_eq]

/-- BEQ and BNE jump on opposite conditions (R170). -/
theorem vxBranch_eq (f : VxFields) : vxBranch f (fun a b => decide (a = b)) =
    fun y => if y.sreg f.rd = y.sreg f.rb then y.jump (vxTarget f.imm64) else y :=
  funext fun y => vxBranch_decide f (· = ·) y

theorem vxBranch_ne (f : VxFields) : vxBranch f (fun a b => decide (a ≠ b)) =
    fun y => if y.sreg f.rd = y.sreg f.rb then y else y.jump (vxTarget f.imm64) :=
  funext fun y => (vxBranch_decide f (· ≠ ·) y).trans (ite_not _ _ _)

/-! ### Where an access may go -/

/-- An access that ends no kernel is aligned and lies in a window (R171). -/
theorem vxBad_eq_none {p : VkernParams} {pc a n : Nat} {write : Bool} :
    vxBad p pc a n write = none ↔ a % n = 0 ∧ vxMay p a n write = true := by
  unfold vxBad
  by_cases ha : a % n = 0 <;> by_cases hm : vxMay p a n write = true <;> simp [ha, hm]

/-! ### Loads and stores -/

section
variable {i : Instr} {tile : Fin 64} {op : BitVec 8} {f : VxFields}

/-- Command `i` is the row of instruction `op` with fields `f` on tile `tile`, and its meaning is `body`. -/
def IsVx (i : Instr) (tile : Fin 64) (op : BitVec 8) (f : VxFields) (stall : Nat) (body : VxBody) : Prop :=
  ∀ s : State, exec i s = s.vx tile op f stall body

/-- An instruction that is next to issue and that its meaning lets complete retires with what its meaning leaves. -/
theorem IsVx.does {stall : Nat} {body : VxBody} (hi : IsVx i tile op f stall body) {s : State} {c : Cmd} {p : VkernParams} (hl : s.live)
    (h : s.blk.VxRuns tile op f stall c p) {z : Vx} {b' : Block} (hb : body c p (s.blk.vxFetched tile op f stall) s.blk = .ok (z, b')) :
    exec i s = .next (s.withBlk (s.blk.vxRetired b' tile op f stall z)) := by
  rw [hi s, State.vx, State.run_live hl, Block.vxRow_runs h hb]

variable {cycles : List Nat → Nat} {as : Vx → List Nat} {par : Option Nat}

theorem vxLoad_ok {c : Cmd} {p : VkernParams} {x : Vx} {b : Block} (hbad : vxFirstBad p (x.pc - 1) 4 false (as x) = none)
    (hpar : vxParity (as x) 4 par = none) : vxLoad f par cycles as c p x b = .ok
      ((x.setElems f.rd 7 0 ((as x).map (fun a => (b.tile c.tile).store.readNat a 4))).takePort (cycles (as x)) (some f.rd), b) := by
  simp only [vxLoad, hbad, hpar]

theorem vxStore_ok {c : Cmd} {p : VkernParams} {x : Vx} {b : Block} (hbad : vxFirstBad p (x.pc - 1) 4 true (as x) = none) :
    vxStore f cycles as c p x b = .ok (x.takePort (cycles (as x)) none,
      b.onTile c.tile (fun t => { t with store := vxStoreWords x f.rd 0 (as x) t.store })) := by
  simp only [vxStore, hbad]

/-- A row that is a vector load completes inside the windows, the words from its own tile's store (R155, R171). -/
theorem IsVx.loads (hi : IsVx i tile op f 0 (vxLoad f par cycles as)) : VxLoads i tile op f par cycles as := by
  intro s c p hl hr y hbad hpar
  rw [hi.does hl hr (vxLoad_ok hbad hpar), Block.kernel_tile hr.kernel]

/-- A row that is a vector store completes inside the write window, the words to its own tile's store (R171, R172). -/
theorem IsVx.stores (hi : IsVx i tile op f 0 (vxStore f cycles as)) : VxStores i tile op f cycles as := by
  intro s c p hl hr y hbad
  rw [hi.does hl hr (vxStore_ok hbad), Block.kernel_tile hr.kernel]

end

/-- The meaning of SLD (R155, R171). -/
def vxLoadScalar (f : VxFields) (par : Option Nat) : VxBody := fun c p x b =>
  match vxBad p (x.pc - 1) (x.addr f).toNat 8 false, vxParity [(x.addr f).toNat] 8 par with
  | some e, _ => .error e
  | none, some e => .error e
  | none, none => .ok (x.setS f.rd (BitVec.ofNat 64 ((b.tile c.tile).store.readNat (x.addr f).toNat 8)), b)

/-- The meaning of SST (R171). -/
def vxStoreScalar (f : VxFields) : VxBody := fun c p x b =>
  match vxBad p (x.pc - 1) (x.addr f).toNat 8 true with
  | some e => .error e
  | none => .ok (x, b.onTile c.tile (fun t => { t with store := t.store.writeNat (x.addr f).toNat 8 (x.sreg f.rd).toNat }))

section
variable {f : VxFields} {par : Option Nat} {c : Cmd} {p : VkernParams} {x : Vx} {b : Block}

theorem vxLoadScalar_ok (hbad : vxBad p (x.pc - 1) (x.addr f).toNat 8 false = none)
    (hpar : vxParity [(x.addr f).toNat] 8 par = none) : vxLoadScalar f par c p x b =
      .ok (x.setS f.rd (BitVec.ofNat 64 ((b.tile c.tile).store.readNat (x.addr f).toNat 8)), b) := by
  simp only [vxLoadScalar, hbad, hpar]

theorem vxStoreScalar_ok (hbad : vxBad p (x.pc - 1) (x.addr f).toNat 8 true = none) : vxStoreScalar f c p x b =
    .ok (x, b.onTile c.tile (fun t => { t with store := t.store.writeNat (x.addr f).toNat 8 (x.sreg f.rd).toNat })) := by
  simp only [vxStoreScalar, hbad]

end

/-! ### The rows -/

section
variable (tile : Fin 64) (f : VxFields) (par : Option Nat)

theorem vld_isVx : IsVx (.vld tile f par) tile 0x30 f 0 (vxLoad f par portTwo (fun x => x.seqAddrs f)) := fun _ => rfl
theorem vlds_isVx : IsVx (.vlds tile f par) tile 0x32 f 0 (vxLoad f par bankCycles (fun x => x.strideAddrs f)) := fun _ => rfl
theorem vldx_isVx : IsVx (.vldx tile f par) tile 0x34 f 0 (vxLoad f par bankCycles (fun x => x.indexAddrs f)) := fun _ => rfl
theorem sld_isVx : IsVx (.sld tile f par) tile 0x36 f 0 (vxLoadScalar f par) := fun _ => rfl
theorem vst_isVx : IsVx (.vst tile f) tile 0x31 f 0 (vxStore f portTwo (fun x => x.seqAddrs f)) := fun _ => rfl
theorem vsts_isVx : IsVx (.vsts tile f) tile 0x33 f 0 (vxStore f bankCycles (fun x => x.strideAddrs f)) := fun _ => rfl
theorem vstx_isVx : IsVx (.vstx tile f) tile 0x35 f 0 (vxStore f bankCycles (fun x => x.indexAddrs f)) := fun _ => rfl
theorem sst_isVx : IsVx (.sst tile f) tile 0x37 f 0 (vxStoreScalar f) := fun _ => rfl

end

/-! ### What SLD and SST do inside their windows -/

section
variable {tile : Fin 64} {f : VxFields} {s : State} {c : Cmd} {p : VkernParams}

/-- SLD reads its own tile's store (R155, R171). -/
theorem execSld_reads {par : Option Nat} (hl : s.live) (hr : s.blk.VxRuns tile 0x36 f 0 c p)
    (hbad : vxBad p ((s.blk.vxFetched tile 0x36 f 0).pc - 1) ((s.blk.vxFetched tile 0x36 f 0).addr f).toNat 8 false = none)
    (hpar : vxParity [((s.blk.vxFetched tile 0x36 f 0).addr f).toNat] 8 par = none) :
    let y := s.blk.vxFetched tile 0x36 f 0
    exec (.sld tile f par) s = .next (s.withBlk (s.blk.vxRetired s.blk tile 0x36 f 0
      (y.setS f.rd (BitVec.ofNat 64 ((s.blk.tile tile).store.readNat (y.addr f).toNat 8))))) := by
  rw [(sld_isVx tile f par).does hl hr (vxLoadScalar_ok hbad hpar), Block.kernel_tile hr.kernel]

/-- SST writes its own tile's store (R171). -/
theorem execSst_writes (hl : s.live) (hr : s.blk.VxRuns tile 0x37 f 0 c p)
    (hbad : vxBad p ((s.blk.vxFetched tile 0x37 f 0).pc - 1) ((s.blk.vxFetched tile 0x37 f 0).addr f).toNat 8 true = none) :
    let y := s.blk.vxFetched tile 0x37 f 0
    exec (.sst tile f) s = .next (s.withBlk (s.blk.vxRetired
      (s.blk.onTile tile (fun t => { t with store := t.store.writeNat (y.addr f).toNat 8 (y.sreg f.rd).toNat })) tile 0x37 f 0 y)) := by
  rw [(sst_isVx tile f).does hl hr (vxStoreScalar_ok hbad), Block.kernel_tile hr.kernel]

end

/-! ### The tile store after a store -/

/-- Retiring leaves the tile store as the instruction's meaning left it. -/
theorem Block.vxRetired_store (b b' : Block) (n : Nat) (op : BitVec 8) (f : VxFields) (stall : Nat) (z : Vx) :
    ((b.vxRetired b' n op f stall z).tile n).store = (b'.tile n).store := by
  unfold Block.vxRetired
  rw [Block.vxSettle_store, Block.setVx_tile]

/-- A number reads as before where every byte of it does. -/
theorem Memory.readNat_congr {m m' : Memory} {a n : Nat} (h : ∀ k, a ≤ k → k < a + n → m'.read k = m.read k) :
    m'.readNat a n = m.readNat a n := congrArg ofBytes (Memory.readBytes_congr h)

/-- A byte outside every word that is stored reads as before. -/
theorem read_vxStoreWords (x : Vx) (d : Nat) {a : Nat} (l : List Nat) (w : Nat) (m : Memory) (h : ∀ v ∈ l, a < v ∨ v + 4 ≤ a) :
    (vxStoreWords x d w l m).read a = m.read a := by
  induction l generalizing w m with
  | nil => rfl
  | cons v l ih =>
    rw [vxStoreWords, ih _ _ (fun u hu => h u (List.mem_cons_of_mem _ hu)), Memory.read_writeNat_ne m (h v List.mem_cons_self)]

/-- A stored word that no later one overlaps reads back: each later store leaves its bytes (R172). -/
theorem readNat_vxStoreWords (x : Vx) (d : Nat) (l : List Nat) (w : Nat) (m : Memory) {k : Nat} (hk : k < l.length)
    (h : ∀ j, k < j → j < l.length → l[j]! + 4 ≤ l[k]! ∨ l[k]! + 4 ≤ l[j]!) :
    (vxStoreWords x d w l m).readNat l[k]! 4 = x.word d (w + k) := by
  induction l generalizing w m k with
  | nil => exact absurd hk (Nat.not_lt_zero k)
  | cons v l ih =>
    cases k with
    | zero =>
      have hapart : ∀ u ∈ l, u + 4 ≤ v ∨ v + 4 ≤ u := by
        intro u hu
        obtain ⟨j, hj, rfl⟩ := List.getElem_of_mem hu
        simpa [hj] using h (j + 1) (Nat.succ_pos j) (Nat.succ_lt_succ hj)
      have hlater : (vxStoreWords x d (w + 1) l (m.writeNat v 4 (x.word d w))).readNat v 4 = (m.writeNat v 4 (x.word d w)).readNat v 4 :=
        Memory.readNat_congr fun a hlo hhi => read_vxStoreWords x d l _ _ fun u hu => by have := hapart u hu; omega
      have hword : x.word d w % 256 ^ 4 = x.word d w := Nat.mod_eq_of_lt (x.word_lt d w)
      calc (vxStoreWords x d w (v :: l) m).readNat v 4
        _ = (m.writeNat v 4 (x.word d w)).readNat v 4 := hlater
        _ = x.word d (w + 0) := by rw [Memory.readNat_writeNat, hword, Nat.add_zero]
    | succ k =>
      have htail := ih (w + 1) (m.writeNat v 4 (x.word d w)) (Nat.lt_of_succ_lt_succ hk)
        (fun j hkj hj => by simpa using h (j + 1) (Nat.succ_lt_succ hkj) (Nat.succ_lt_succ hj))
      rw [Nat.add_assoc, Nat.add_comm 1 k] at htail
      simpa [vxStoreWords] using htail

@[simp] theorem Vx.length_addrs (x : Vx) (at_ : Nat → BitVec 64) : (x.addrs at_).length = x.vl := by simp [Vx.addrs]

/-- What a vector store leaves in its tile store, where its accesses lie in the window: the words below VL at their addresses, and every other
byte as before (R169, R172). -/
theorem VxStores.bytes {i : Instr} {tile : Fin 64} {op : BitVec 8} {f : VxFields} {cycles : List Nat → Nat} {at_ : Vx → Nat → BitVec 64}
    (hi : VxStores i tile op f cycles (fun x => x.addrs (at_ x))) {s t : State} {c : Cmd} {p : VkernParams} (hl : s.live)
    (hr : s.blk.VxRuns tile op f 0 c p) (e : exec i s = .next t) :
    let x := s.blk.vxFetched tile op f 0
    let as := x.addrs (at_ x)
    vxFirstBad p (x.pc - 1) 4 true as = none →
    (∀ a, (∀ w ∈ as, a < w ∨ w + 4 ≤ a) → (t.blk.tile tile).store.read a = (s.blk.tile tile).store.read a) ∧
    (∀ k, k < x.vl → (∀ j, k < j → j < x.vl → as[j]! + 4 ≤ as[k]! ∨ as[k]! + 4 ≤ as[j]!) →
      (t.blk.tile tile).store.readNat as[k]! 4 = x.word f.rd k) := by
  intro x as hbad
  have hstore : (t.blk.tile tile).store = vxStoreWords x f.rd 0 as (s.blk.tile tile).store := by
    have hnext := e.symm.trans (hi s c p hl hr hbad)
    cases hnext
    rw [State.withBlk_blk, Block.vxRetired_store, Block.onTile_tile]
  have hlen : as.length = x.vl := x.length_addrs _
  rw [hstore]
  refine ⟨fun a ha => read_vxStoreWords x f.rd as 0 _ ha, fun k hk hapart => ?_⟩
  rw [readNat_vxStoreWords x f.rd as 0 _ (hlen ▸ hk) (fun j hkj hj => hapart j hkj (hlen ▸ hj)), Nat.zero_add]

end Sys2Proof.Machine
end

section
/-! The obligations on the scalar, lane, whole-register and memory instructions of the vector engine, settled. -/

namespace Sys2Proof.Machine

/-- Settles O1: each instruction is a row that changes the engine alone; BEQ and BNE branch on opposite conditions. -/
theorem vxScalarResults : Obligations.VxScalarResults := by
  intro tile f
  refine ⟨?_, ?_, ?beq, ?bne, ?_, ?_, ?_, ?_, ?_, ?_, ?_, ?_, ?_, ?_, ?_, ?_, ?_, ?_, ?_⟩
  case beq => exact vxBranch_eq f ▸ vxDoes_pure (fun _ => rfl)
  case bne => exact vxBranch_ne f ▸ vxDoes_pure (fun _ => rfl)
  all_goals exact vxDoes_pure (fun _ => rfl)

/-- Settles O2: each instruction is a row that changes the engine alone, and the statement's function is its meaning. -/
theorem vxLaneResults : Obligations.VxLaneResults := by
  intro tile f stall
  and_intros
  all_goals exact vxDoes_pure (fun _ => rfl)

/-- Settles O3: as O2. -/
theorem vxWholeResults : Obligations.VxWholeResults := by
  intro tile f stall
  and_intros
  all_goals exact vxDoes_pure (fun _ => rfl)

/-- Settles O4: each is the row of a load or of a store, which completes inside the windows. -/
theorem vxMemoryResults : Obligations.VxMemoryResults := by
  intro tile f par
  refine ⟨(vld_isVx tile f par).loads, (vst_isVx tile f).stores, (vlds_isVx tile f par).loads, (vsts_isVx tile f).stores,
    (vldx_isVx tile f par).loads, (vstx_isVx tile f).stores, ?sld, ?sst⟩
  case sld =>
    intro s c p hl hr y a halign hmay hpar
    exact execSld_reads hl hr (vxBad_eq_none.2 ⟨halign, hmay⟩) hpar
  case sst =>
    intro s c p hl hr y a halign hmay
    exact execSst_writes hl hr (vxBad_eq_none.2 ⟨halign, hmay⟩)

/-- Settles O58: a store leaves its own words at their addresses in turn, and a read sees the last that was written there. -/
theorem vxStoreBytes : Obligations.VxStoreBytes := by
  refine ⟨?vector, ?scalar⟩
  case vector =>
    intro tile f s t c p hl stores
    exact ⟨(vst_isVx tile f).stores.bytes hl, (vsts_isVx tile f).stores.bytes hl, (vstx_isVx tile f).stores.bytes hl⟩
  case scalar =>
    intro tile f s t c p hl hr e x a hbad
    have hnext := e.symm.trans (execSst_writes hl hr hbad)
    cases hnext
    rw [State.withBlk_blk, Block.vxRetired_store, Block.onTile_tile]
    exact ⟨fun k hk => Memory.read_writeNat_ne _ hk, (Memory.readNat_writeNat _ _ _ _).trans (Nat.mod_eq_of_lt (BitVec.isLt _))⟩

end Sys2Proof.Machine
end

section
/-! SUPPORT. The start and the ends of a kernel, a detection in it, a service burst (R181 to R187, R191 to R195), each as its row. -/

namespace Sys2Proof.Machine

section
variable {s : State} {tile : Fin 64} {f : VxFields} {c : Cmd} {p : VkernParams}

/-! ### The start -/

/-- VKERN starts its kernel where the sequencer lets its command start (R181 to R183). -/
theorem execVkern_starts {id : Nat} (hl : s.live) (h : s.blk.TileStarts id (.vkern p) c) : exec (.vkern id p) s = .next (s.withBlk
    (((if p.resetBusy then (s.blk.entered id c).rset .TILE_VEC_BUSY_COUNT c.tile 0 else s.blk.entered id c).vxBegin c p none).notePrim
      c.tile)) := by
  show execVkern id p s = _
  unfold execVkern
  rw [State.run_live hl, Block.tileCmd_starts h]

/-! ### HALT -/

/-- The meaning of HALT: the end of its kernel, with the engine bytes of its record (R184, R195). -/
def vxHalt (f : VxFields) : VxBody := fun _ _ x _ =>
  .error (.status 0 0 (f.immU % 2 ^ 16 + (b2n x.special + 2 * b2n x.replayed) * 2 ^ 16 + min 0xFFFFFFFF x.haltEnd * 2 ^ 32))

/-- HALT is a row, unless it would end past MAX_CYCLES. -/
theorem halt_run (tile : Fin 64) (f : VxFields) (s : State) : exec (.halt tile f) s =
    s.run (fun b => if b.haltLate tile then b else b.vxRow tile 0x01 f 0 (vxHalt f)) := rfl

theorem execHalt_ends (hl : s.live) (hr : s.blk.VxRuns tile 0x01 f 0 c p) (hlate : s.blk.haltLate tile = false) :
    let r := s.blk.vxIssue tile 0x01 f 0
    let y := s.blk.vxFetched tile 0x01 f 0
    exec (.halt tile f) s = .next (s.withBlk ((s.blk.setVx tile { r.2 with cyc := r.1 }).vxEnd c 0 0
      (f.immU % 2 ^ 16 + (b2n y.special + 2 * b2n y.replayed) * 2 ^ 16 + min 0xFFFFFFFF y.haltEnd * 2 ^ 32))) := by
  rw [halt_run, State.run_live hl, hlate, if_neg Bool.false_ne_true, Block.vxRow_stops hr (body := vxHalt f) rfl]
  rfl

/-! ### MAX_CYCLES -/

/-- A kernel whose next word is legal and would issue at MAX_CYCLES or later ends with VX_TIMEOUT (R184, R194), when MAX_CYCLES have
passed since its start (log entry 11). -/
theorem execVxTimeout_past {stall : Nat} (hl : s.live) (hk : s.blk.kernel tile = some (c, p)) :
    let x := (s.blk.tile tile).vx
    let w := Sparse.get (always 0) x.imem x.pc
    (vxForm (vxOpcode w) (vxDecode w)).legal (vxDecode w) = true →
    pastMax p (s.blk.vxIssue tile (vxOpcode w) (vxDecode w) stall).1 = true →
    exec (.vxTimeout tile stall) s = .next (s.withBlk
      ((s.blk.advanceTo (c.startT + ceilDiv (p.maxCycles * 32) 5)).vxEnd c 0x1008 x.pc (p.maxCycles % 2 ^ 32 * 2 ^ 32))) := by
  intro x w hlegal hpast
  show execVxTimeout tile stall s = _
  unfold execVxTimeout
  rw [State.run_live hl, hk]
  have hnext : x.next.1.legal x.next.2 = true := hlegal
  dsimp only
  rw [if_pos hnext, if_pos (.inl hpast)]

/-! ### Detections and service bursts -/

/-- A first detection of a replayable kernel counts and starts the kernel again (R191, R192); one in instruction memory loads the code
again. -/
theorem execVxDetection_first {imem : Bool} (hl : s.live) (hk : s.blk.kernel tile = some (c, p)) (hreplay : replayable p = true)
    (hcode : imem = true → p.codeWords ≠ 0) (hfirst : (s.blk.tile tile).vx.replayed = false) :
    let b := s.blk.count .TILE_VX_DETECT_COUNT tile 1
    exec (.vxDetection tile imem) s = .next (s.withBlk ((b.count .TILE_VX_REPLAYS_COUNT tile 1).vxBegin c
      (if imem then p else { p with codeWords := 0 }) (some (b.count .TILE_VX_REPLAYS_COUNT tile 1).now))) := by
  intro b
  have htile : (b.tile tile).vx.replayed = false := by rw [Block.tile_of_tiles (Block.count_tiles _ _ _ _), hfirst]
  have hlost : ¬ (imem && decide (p.codeWords = 0)) = true := by simpa using hcode
  show execVxDetection tile imem s = _
  unfold execVxDetection
  rw [State.run_live hl, hk]
  dsimp only
  rw [if_neg hlost, hreplay, if_neg (by decide), htile, if_neg Bool.false_ne_true]

/-- A service burst on a tile whose kernel runs leaves its data in the service buffer and its cycles waiting (R185 to R187). -/
theorem execServiceBurst_shares {cycles : Nat} {data : List (BitVec 8)} (hl : s.live) (hfault : s.blk.faulted = false)
    (hworks : s.blk.tileWorks tile = true) (hsvc : s.blk.flag .TILE_VX_CFG_SVC_EN tile = true) (hlen : data.length ≤ 16384)
    (hruns : (s.blk.tile tile).vx.cmd.isSome = true) :
    let x := (s.blk.tile tile).vx
    exec (.serviceBurst tile cycles data false) s = .next (s.withBlk
      (s.blk.setVx tile { x with svc := x.svc.writeBytes 0 data, svcWait := x.svcWait + cycles })) := by
  intro x
  have hserved : ¬ (s.blk.faulted || !s.blk.tileWorks tile || !s.blk.flag .TILE_VX_CFG_SVC_EN tile || decide (16384 < data.length)) = true := by
    simp [hfault, hworks, hsvc, hlen]
  show execServiceBurst tile cycles data false s = _
  unfold execServiceBurst
  rw [State.run_live hl, if_neg hserved]
  dsimp only
  rw [if_pos hruns]
  rfl

end

end Sys2Proof.Machine
end

section
/-! The obligation on the start and the ends of a kernel, settled. -/

namespace Sys2Proof.Machine

/-- Settles O6: each row, where its condition holds, takes the branch that the statement names. -/
theorem vxKernelResults : Obligations.VxKernelResults :=
  ⟨fun _ _ _ _ hl h => execVkern_starts hl h, fun _ _ _ _ _ hl hr hlate => execHalt_ends hl hr hlate,
    fun _ _ _ _ _ hl hk => execVxTimeout_past hl hk,
    fun _ _ _ _ _ hl hk hreplay hcode hfirst => execVxDetection_first hl hk hreplay hcode hfirst,
    fun _ _ _ _ hl hfault hworks hsvc hlen hruns => execServiceBurst_shares hl hfault hworks hsvc hlen hruns⟩

end Sys2Proof.Machine
end

section
/-! SUPPORT. What an instruction of the vector engine leaves alone while its kernel goes on (R165, R182, R185): of the engine the instruction
memory, the service buffer and the launch, of the block everything but its tile, the draws of free values and what signals. -/

namespace Sys2Proof.Machine

/-! ### The engine -/

/-- Engine `y` has the instruction memory, the service buffer and the launch of `x` (R182, R183, R185). -/
structure Vx.SameRun (x y : Vx) : Prop where
  imem : y.imem = x.imem
  svc : y.svc = x.svc
  base : y.base = x.base
  replayed : y.replayed = x.replayed

namespace Vx.SameRun

theorem refl (x : Vx) : x.SameRun x := ⟨rfl, rfl, rfl, rfl⟩

theorem trans {x y z : Vx} (h : x.SameRun y) (h' : y.SameRun z) : x.SameRun z :=
  ⟨h'.imem.trans h.imem, h'.svc.trans h.svc, h'.base.trans h.base, h'.replayed.trans h.replayed⟩

theorem setS (x : Vx) (r : Nat) (v : BitVec 64) : x.SameRun (x.setS r v) := by
  unfold Vx.setS
  split
  · exact refl x
  · exact ⟨rfl, rfl, rfl, rfl⟩

theorem setElem (x : Vx) (r fmt i v : Nat) : x.SameRun (x.setElem r fmt i v) := by
  unfold Vx.setElem
  dsimp only
  split <;> exact ⟨rfl, rfl, rfl, rfl⟩

theorem setElems (vs : List Nat) (x : Vx) (r fmt i : Nat) : x.SameRun (x.setElems r fmt i vs) := by
  induction vs generalizing x i with
  | nil => exact refl x
  | cons v vs ih => exact (setElem x r fmt i v).trans (ih _ _)

theorem lanes (f : VxFields) (g : Vx → Nat → Nat) (x : Vx) : x.SameRun (vxLanes f g x) := setElems _ x _ _ _

theorem jump (x : Vx) (t : Nat) : x.SameRun (x.jump t) := ⟨rfl, rfl, rfl, rfl⟩

theorem branch (f : VxFields) (cond : BitVec 64 → BitVec 64 → Bool) (x : Vx) : x.SameRun (vxBranch f cond x) := by
  unfold vxBranch
  split
  · exact jump x _
  · exact refl x

theorem takePort (x : Vx) (n : Nat) (dest : Option Nat) : x.SameRun (x.takePort n dest) := ⟨rfl, rfl, rfl, rfl⟩

theorem convert (f : VxFields) (l : List Cvt) (x : Vx) (b : Block) (k : Nat) : x.SameRun (vxConvert f l x b k).1 := by
  obtain ⟨himem, hsvc, hbase, hreplayed⟩ := setElems (l.map (·.code)) x f.rd f.fm k
  exact ⟨himem, hsvc, hbase, hreplayed⟩

theorem issueAt (x : Vx) (m : VxForm) (f : VxFields) (share stall : Nat) : x.SameRun (x.issueAt m f share stall).2 := by
  unfold Vx.issueAt
  cases m.issue <;> exact ⟨rfl, rfl, rfl, rfl⟩

theorem fetched (b : Block) (n : Nat) (op : BitVec 8) (f : VxFields) (stall : Nat) : (b.tile n).vx.SameRun (b.vxFetched n op f stall) := by
  obtain ⟨himem, hsvc, hbase, hreplayed⟩ := issueAt (b.tile n).vx (vxForm op f) f (b.rget .TILE_VX_CFG_SHARE n)
    (if b.flag .CURB_STATUS_VGAP && !(b.tile n).vx.replayed then stall else 0)
  exact ⟨himem, hsvc, hbase, hreplayed⟩

/-! Fields beside them: the PC of a taken LOOP, SETVL's VL, VSEED's special bit. -/

theorem setPc {x y : Vx} (h : x.SameRun y) (k : Nat) : x.SameRun { y with pc := k } := ⟨h.imem, h.svc, h.base, h.replayed⟩
theorem setVl {x y : Vx} (h : x.SameRun y) (k : Nat) : x.SameRun { y with vl := k } := ⟨h.imem, h.svc, h.base, h.replayed⟩
theorem setSpecial {x y : Vx} (h : x.SameRun y) (k : Bool) : x.SameRun { y with special := k } :=
  ⟨h.imem, h.svc, h.base, h.replayed⟩

end Vx.SameRun

/-! ### The block under an instruction's meaning -/

/-- Block `b'` differs from `b` at most in the draws of free values and, if `store`, in the tile store of tile `n`. -/
structure Block.OnlyStore (store : Bool) (n : Nat) (b b' : Block) : Prop where
  rest : b' = { b with tiles := b'.tiles, free := b'.free }
  others : ∀ m, m ≠ n → b'.tile m = b.tile m
  own : ∃ m : Memory, b'.tile n = { b.tile n with store := m }
  kept : store = false → (b'.tile n).store = (b.tile n).store

theorem Block.OnlyStore.refl (store : Bool) (n : Nat) (b : Block) : b.OnlyStore store n b := ⟨rfl, fun _ _ => rfl, ⟨_, rfl⟩, fun _ => rfl⟩

theorem Block.OnlyStore.of_free (store : Bool) (n : Nat) (b : Block) (x : FreeSt) : b.OnlyStore store n { b with free := x } :=
  ⟨rfl, fun _ _ => rfl, ⟨_, rfl⟩, fun _ => rfl⟩

theorem Block.OnlyStore.of_store (n : Nat) (b : Block) (g : Tile → Memory) :
    b.OnlyStore true n (b.onTile n (fun t => { t with store := g t })) :=
  ⟨rfl, fun _ h => Block.onTile_tile_ne b h _, ⟨_, Block.onTile_tile b n _⟩, nofun⟩

theorem Block.OnlyStore.convert (store : Bool) (n : Nat) (f : VxFields) (l : List Cvt) (x : Vx) (b : Block) (k : Nat) :
    b.OnlyStore store n (vxConvert f l x b k).2 := by
  unfold vxConvert
  dsimp only
  split
  · exact .of_free store n b _
  · exact .refl store n b

/-- A meaning completes and leaves the rest of the engine and of the block alone, or ends the kernel with a status; it meets no parity
error. -/
def VxFrames (store : Bool) (body : VxBody) : Prop := ∀ (c : Cmd) (p : VkernParams) (x : Vx) (b : Block),
  (∃ (z : Vx) (b' : Block), body c p x b = .ok (z, b') ∧ x.SameRun z ∧ b.OnlyStore store c.tile b') ∨
  (∃ s d e, body c p x b = .error (.status s d e))

theorem VxFrames.pure {g : Vx → Vx} (hg : ∀ x : Vx, x.SameRun (g x)) : VxFrames false (vxPure g) :=
  fun _ _ x b => .inl ⟨g x, b, rfl, hg x, .refl _ _ b⟩

theorem VxFrames.checked {op : BitVec 8} {f : VxFields} {ok : Bool} {go : Vx → Block → Vx × Block}
    (hrun : ∀ (x : Vx) (b : Block), x.SameRun (go x b).1) (hblock : ∀ n x (b : Block), b.OnlyStore false n (go x b).2) :
    VxFrames false (vxChecked op f ok go) := by
  intro c p x b
  cases ok
  · exact .inr ⟨_, _, _, rfl⟩
  · exact .inl ⟨_, _, rfl, hrun x b, hblock c.tile x b⟩

/-- An access that ends the kernel ends it with a status, VX_BOUNDS (R171). -/
theorem vxBad_status {p : VkernParams} {pc a n : Nat} {write : Bool} {e : VxStop} (h : vxBad p pc a n write = some e) :
    ∃ s d v, e = .status s d v := by
  unfold vxBad at h
  split at h
  · cases h; exact ⟨_, _, _, rfl⟩
  · split at h
    · cases h
    · cases h; exact ⟨_, _, _, rfl⟩

theorem vxFirstBad_status {p : VkernParams} {pc n : Nat} {write : Bool} {l : List Nat} {e : VxStop}
    (h : vxFirstBad p pc n write l = some e) : ∃ s d v, e = .status s d v := by
  obtain ⟨a, -, ha⟩ := List.exists_of_findSome?_eq_some h
  exact vxBad_status ha

section
variable (f : VxFields) (cycles : List Nat → Nat) (as : Vx → List Nat)

theorem VxFrames.load : VxFrames false (vxLoad f none cycles as) := by
  intro c p x b
  cases hbad : vxFirstBad p (x.pc - 1) 4 false (as x) with
  | none => exact .inl ⟨_, _, vxLoad_ok hbad rfl, (Vx.SameRun.setElems _ x _ _ _).trans (.takePort _ _ _), .refl _ _ b⟩
  | some e =>
    obtain ⟨s, d, v, rfl⟩ := vxFirstBad_status hbad
    exact .inr ⟨s, d, v, by simp only [vxLoad, hbad]⟩

theorem VxFrames.store : VxFrames true (vxStore f cycles as) := by
  intro c p x b
  cases hbad : vxFirstBad p (x.pc - 1) 4 true (as x) with
  | none => exact .inl ⟨_, _, vxStore_ok hbad, .takePort x _ _, .of_store _ b _⟩
  | some e =>
    obtain ⟨s, d, v, rfl⟩ := vxFirstBad_status hbad
    exact .inr ⟨s, d, v, by simp only [vxStore, hbad]⟩

theorem VxFrames.loadScalar : VxFrames false (vxLoadScalar f none) := by
  intro c p x b
  cases hbad : vxBad p (x.pc - 1) (x.addr f).toNat 8 false with
  | none => exact .inl ⟨_, _, vxLoadScalar_ok hbad rfl, .setS x _ _, .refl _ _ b⟩
  | some e =>
    obtain ⟨s, d, v, rfl⟩ := vxBad_status hbad
    exact .inr ⟨s, d, v, by simp only [vxLoadScalar, hbad]⟩

theorem VxFrames.storeScalar : VxFrames true (vxStoreScalar f) := by
  intro c p x b
  cases hbad : vxBad p (x.pc - 1) (x.addr f).toNat 8 true with
  | none => exact .inl ⟨_, _, vxStoreScalar_ok hbad, .refl x, .of_store _ b _⟩
  | some e =>
    obtain ⟨s, d, v, rfl⟩ := vxBad_status hbad
    exact .inr ⟨s, d, v, by simp only [vxStoreScalar, hbad]⟩

end

/-! ### The block under a row -/

/-- The status fields and the service count of tile `n`'s engine. -/
def vxStatusFields (n : Nat) : List (Fld × Nat) :=
  [(.TILE_VX_STATUS_PC, n), (.TILE_VX_STATUS_VL, n), (.TILE_VX_STATUS_RUNNING, n), (.TILE_VX_STATUS_SVC_ACTIVE, n),
    (.TILE_VX_SVC_CYCLES_COUNT, n)]

/-- Block `b'` differs from `b` at most as an instruction of tile `n` that goes on may make it, one that stores if `store`. -/
structure Block.OnlyVx (store : Bool) (n : Nat) (b b' : Block) : Prop where
  rest : ({ b with tiles := b'.tiles, free := b'.free } : Block).OnlyRegs (vxStatusFields n) b'
  others : ∀ m, m ≠ n → b'.tile m = b.tile m
  own : ∃ (x : Vx) (m : Memory), b'.tile n = { b.tile n with vx := x, store := m }
  kept : store = false → (b'.tile n).store = (b.tile n).store
  run : (b.tile n).vx.SameRun (b'.tile n).vx

theorem Block.OnlyVx.refl (store : Bool) (n : Nat) (b : Block) : b.OnlyVx store n b :=
  ⟨.refl _ b, fun _ _ => rfl, ⟨_, _, rfl⟩, fun _ => rfl, .refl _⟩

/-- Storing the engine that an instruction leaves, after its meaning. -/
theorem Block.OnlyStore.setVx {store : Bool} {n : Nat} {b b' : Block} (h : b.OnlyStore store n b') {z : Vx} (hz : (b.tile n).vx.SameRun z) :
    b.OnlyVx store n (b'.setVx n z) := by
  have honly := b'.setVx_only n z
  have hfrom : ({ b with tiles := (b'.setVx n z).tiles, free := (b'.setVx n z).free } : Block) =
      b'.onTile n (fun t => { t with vx := z }) := by
    rw [honly.tiles, honly.free, h.rest]
    rfl
  obtain ⟨m, hm⟩ := h.own
  refine ⟨hfrom ▸ honly, fun k hk => ?_, ⟨z, m, ?_⟩, fun hs => ?_, ?_⟩
  · rw [Block.setVx_tile_ne _ hk, h.others k hk]
  · rw [Block.setVx_tile, hm]
  · rw [Block.setVx_tile]
    exact h.kept hs
  · rw [Block.setVx_tile]
    exact hz

/-- An instruction that ends its kernel with a status leaves its tile without one (R184). -/
theorem Block.vxStop_status_cmd (b : Block) (c : Cmd) (s d e : Nat) : ((b.vxStop c (.status s d e)).tile c.tile).vx.cmd = none :=
  b.vxEnd_cmd c s d e

section
variable {store : Bool} {n : Nat} {op : BitVec 8} {f : VxFields} {stall : Nat} {b : Block}

/-- Retiring goes on as the meaning left it, or ends the kernel at the next word (R167, R170). -/
theorem Block.vxRetired_onlyVx {b' : Block} (h : b.OnlyStore store n b') {z : Vx} (hz : (b.tile n).vx.SameRun z) :
    b.OnlyVx store n (b.vxRetired b' n op f stall z) ∨ ((b.vxRetired b' n op f stall z).tile n).vx.cmd = none := by
  unfold Block.vxRetired
  rcases Block.vxSettle_cmd (b'.setVx n _) n with heq | hcmd
  · exact .inl (heq ▸ h.setVx ⟨hz.imem, hz.svc, hz.base, hz.replayed⟩)
  · exact .inr hcmd

/-- A row does nothing, goes on as its meaning does, or ends its kernel. -/
theorem Block.vxRow_onlyVx_or {body : VxBody} (hf : VxFrames store body) : b.OnlyVx store n (b.vxRow n op f stall body) ∨
    (b.kernel n).isSome = true ∧ ((b.vxRow n op f stall body).tile n).vx.cmd = none := by
  cases hk : b.kernel n with
  | none =>
    left
    unfold Block.vxRow
    rw [hk]
    exact .refl store n b
  | some cp =>
    obtain ⟨c, p⟩ := cp
    obtain rfl := Block.kernel_tile hk
    rw [Block.vxRow_eq hk]
    split
    · exact .inl (.refl store _ b)
    · split
      · split
        · exact .inl (.refl store _ b)
        · exact .inr ⟨rfl, b.vxEnd_cmd c _ _ _⟩
      · split
        · exact .inl (.refl store _ b)
        · rcases hf c p (b.vxFetched c.tile op f stall) b with ⟨z, b', hok, hrun, hblock⟩ | ⟨s, d, v, herr⟩
          · rw [hok]
            exact (Block.vxRetired_onlyVx hblock ((Vx.SameRun.fetched b _ op f stall).trans hrun)).imp_right (⟨rfl, ·⟩)
          · rw [herr]
            exact .inr ⟨rfl, Block.vxStop_status_cmd _ c s d v⟩

/-- A row whose kernel goes on leaves the rest alone. -/
theorem Block.vxRow_onlyVx {body : VxBody} (hf : VxFrames store body)
    (hcmd : ((b.vxRow n op f stall body).tile n).vx.cmd = (b.tile n).vx.cmd) : b.OnlyVx store n (b.vxRow n op f stall body) := by
  rcases Block.vxRow_onlyVx_or hf with h | ⟨hk, hnone⟩
  · exact h
  · obtain ⟨⟨c, p⟩, hk⟩ := Option.isSome_iff_exists.1 hk
    exact absurd (hcmd.symm.trans hnone) (Block.kernel_cmd hk)

end

/-! ### The rows -/

/-- While its kernel goes on, command `i` changes the block at most as an instruction of tile `n` may. -/
def FramesVx (i : Instr) (n : Fin 64) : Prop :=
  ∀ s t : State, exec i s = .next t → (t.blk.tile n).vx.cmd = (s.blk.tile n).vx.cmd → s.blk.OnlyVx (vxStoreRow i) n t.blk

section
variable {i : Instr} {n : Fin 64} {op : BitVec 8} {f : VxFields} {stall : Nat}

/-- A change of the block that frames, as the module makes it while it acts. -/
theorem framesVx_of_run {g : Block → Block} (hi : ∀ s, exec i s = s.run g)
    (hg : ∀ b, ((g b).tile n).vx.cmd = (b.tile n).vx.cmd → b.OnlyVx (vxStoreRow i) n (g b)) : FramesVx i n := by
  intro s t e hcmd
  by_cases hl : s.live
  · have hnext := e.symm.trans ((hi s).trans (State.run_live hl g))
    cases hnext
    exact hg s.blk hcmd
  · have hnext := e.symm.trans ((hi s).trans (State.run_stopped (Bool.eq_true_of_not_eq_false hl) g))
    cases hnext
    exact .refl _ n s.blk

theorem IsVx.frames {body : VxBody} (hi : IsVx i n op f stall body) (hf : VxFrames (vxStoreRow i) body) : FramesVx i n :=
  framesVx_of_run hi fun _ => Block.vxRow_onlyVx hf

/-- A row that only changes the engine, and of it neither instruction memory nor service buffer nor launch. -/
theorem IsVx.frames_pure {g : Vx → Vx} (hi : IsVx i n op f stall (vxPure g)) (hs : vxStoreRow i = false) (hg : ∀ x : Vx, x.SameRun (g x)) :
    FramesVx i n := hi.frames (hs ▸ .pure hg)

theorem IsVx.frames_lanes {g : Vx → Nat → Nat} (hi : IsVx i n op f stall (vxPure (vxLanes f g))) (hs : vxStoreRow i = false) :
    FramesVx i n := hi.frames_pure hs (.lanes f g)

theorem IsCheckedVx.frames {ok : Bool} {go : Vx → Block → Vx × Block} (hi : IsCheckedVx i n op f stall ok go) (hs : vxStoreRow i = false)
    (hrun : ∀ (x : Vx) (b : Block), x.SameRun (go x b).1) (hblock : ∀ m x (b : Block), b.OnlyStore false m (go x b).2) : FramesVx i n :=
  IsVx.frames hi (hs ▸ .checked hrun hblock)

end

/-- HALT ends its kernel, or is late and does nothing (R184). -/
theorem halt_framesVx (n : Fin 64) (f : VxFields) : FramesVx (.halt n f) n := by
  refine framesVx_of_run (halt_run n f) fun b hcmd => ?_
  split
  · exact .refl _ n b
  next hlate =>
    rw [if_neg hlate] at hcmd
    exact Block.vxRow_onlyVx (fun _ _ _ _ => .inr ⟨_, _, _, rfl⟩) hcmd

/-- Every instruction of the vector engine that meets no parity error frames what its row frames. -/
theorem framesVx_of_tile {i : Instr} {n : Fin 64} (h : vxTileOf i = some n) (hpar : vxPar i = none) : FramesVx i n := by
  cases i
  -- The rows of other units name no tile of the vector engine.
  all_goals cases h
  case halt => exact halt_framesVx _ _
  case vld => cases hpar; exact (vld_isVx _ _ _).frames (.load _ _ _)
  case vlds => cases hpar; exact (vlds_isVx _ _ _).frames (.load _ _ _)
  case vldx => cases hpar; exact (vldx_isVx _ _ _).frames (.load _ _ _)
  case sld => cases hpar; exact (sld_isVx _ _ _).frames (.loadScalar _)
  case vst => exact (vst_isVx _ _).frames (.store _ _ _)
  case vsts => exact (vsts_isVx _ _).frames (.store _ _ _)
  case vstx => exact (vstx_isVx _ _).frames (.store _ _ _)
  case sst => exact (sst_isVx _ _).frames (.storeScalar _)
  case vrsumg => exact (vrsumg_isCheckedVx _ _ _).frames rfl (fun x _ => .setElems _ x _ _ _) (fun m _ b => .refl _ m b)
  case vramaxg => exact (vramaxg_isCheckedVx _ _ _).frames rfl (fun x _ => .setElems _ x _ _ _) (fun m _ b => .refl _ m b)
  case vcvt => exact (vcvt_isCheckedVx _ _ _).frames rfl (fun x b => .convert _ _ x b _) (fun m x b => .convert _ m _ _ x b _)
  case vqnt => exact (vqnt_isCheckedVx _ _ _).frames rfl (fun x b => .convert _ _ x b _) (fun m x b => .convert _ m _ _ x b _)
  case vdqnt => exact (vdqnt_isCheckedVx _ _ _).frames rfl (fun x b => .convert _ _ x b _) (fun m x b => .convert _ m _ _ x b _)
  case vseed =>
    exact (vseed_isCheckedVx _ _ _).frames rfl (fun x _ => (Vx.SameRun.setElems _ x _ _ _).setSpecial _) (fun m _ b => .refl _ m b)
  case vxNop => exact IsVx.frames_pure (g := id) (fun _ => rfl) rfl .refl
  case jmp => exact IsVx.frames_pure (fun _ => rfl) rfl (fun x => .jump x _)
  case beq | bne | blt | bltu => exact IsVx.frames_pure (fun _ => rfl) rfl (.branch _ _)
  case loop =>
    refine IsVx.frames_pure (fun _ => rfl) rfl (fun x => ?_)
    dsimp only
    split
    · exact (Vx.SameRun.setS x _ _).setPc _
    · exact .setS x _ _
  case setvl => exact IsVx.frames_pure (fun _ => rfl) rfl (fun x => (Vx.SameRun.setS x _ _).setVl _)
  case sadd | ssub | smul | sand | sshl | sshr | ssra | saddi | sli | slui | smovv =>
    exact IsVx.frames_pure (fun _ => rfl) rfl (fun x => .setS x _ _)
  case vrsum | vrmax | vramax | vperm | vslide | vziplo | vziphi | vunzipe | vunzipo | vbcast =>
    exact IsVx.frames_pure (fun _ => rfl) rfl (fun x => .setElems _ x _ _ _)
  -- The lane instructions and the transcendental functions.
  all_goals exact IsVx.frames_lanes (fun _ => rfl) rfl

end Sys2Proof.Machine
end

section
/-! The obligation on what an instruction of the vector engine leaves unchanged, settled. -/

namespace Sys2Proof.Machine

/-- Settles O57: a kernel that goes on was not ended by its instruction, so its row did nothing or retired with what its meaning left. -/
theorem vxFrame : Obligations.VxFrame := by
  intro i n s t hn hpar e hcmd
  obtain ⟨hrest, hothers, hown, hkept, himem, hsvc, hbase, hreplayed⟩ := framesVx_of_tile hn hpar s t e hcmd
  exact ⟨⟨_, rfl, hrest⟩, hothers, hown, hkept, himem, hsvc, hbase, hreplayed⟩

end Sys2Proof.Machine
end

section
/-! SUPPORT. The Vat's rows: an access, an atomic and a delta at a slice, a slice's retirement (R210, R228, R236, R239, R241). -/

namespace Sys2Proof.Machine

theorem vatAccess_isUnguarded (a : VatOp) : IsUnguarded (.vatAccess a) (fun b => b.doVatAccess a) := fun _ => rfl
theorem vatAtomic_isUnguarded (a : AtomicOp) : IsUnguarded (.vatAtomic a) (fun b => b.doVatAtomic a) := fun _ => rfl
theorem sliceRetirement_isGuarded (slice : Fin 128) :
    IsGuarded (.sliceRetirement slice) (fun b => b.sliceDue slice) (fun b => b.retireSlice slice) := fun _ => rfl

section
variable {b b' : Block} {bs : List Byte}

/-- An access to a data line without a detection leaves what its access within the line leaves (R228). -/
theorem Block.doVatAccess_ok {a : VatOp} {pl : Place} (hpl : b.place a.mpa = some pl) (hdata : a.parity = false)
    (hgood : a.fault = .none)
    (hacc : localAccess (b.reqOf (vatOpReq a)) a.mpa (min a.size (128 - a.mpa % 128))
      (a.data.map (fun bs => fun _ => sliceBytes bs 0 (min a.size (128 - a.mpa % 128)))) false b = (.ok bs, b')) :
    b.doVatAccess a = b' := by
  unfold Block.doVatAccess
  simp [hpl, hdata, hgood, hacc]

/-- An aligned atomic that the table lists leaves what its access leaves (R236 to R239). -/
theorem Block.doVatAtomic_ok {a : AtomicOp} {n : Nat} (hsize : atomicSize a.op a.fmt = some n) (halign : a.mpa % n = 0)
    (hacc : localAccess (b.reqOf ⟨⟨a.src, a.ctx, none, a.cmd⟩, a.hint, a.uses, 10⟩) a.mpa n
      (some (atomicBytes a.op a.fmt a.value a.cmp)) true b = (.ok bs, b')) : b.doVatAtomic a = b' := by
  unfold Block.doVatAtomic
  simp [hsize, halign, hacc]

end

/-- A delta reaches the parity line of a guarded stripe, which is rebuilt first where it is absent and its fill fails (R210, R554). -/
theorem execParityDelta_guarded {s : State} {mpa : Nat} {pl : Place} {ps : Slot} (hl : s.live) (hpl : s.blk.place mpa = some pl)
    (hps : pl.parity = some ps) (fillFails : Bool) : exec (.parityDelta mpa fillFails) s = .next (s.withBlk
      ((if fillFails && !(s.blk.vline ps.key).valid then s.blk.rebuildParity pl else s.blk).delta pl)) := by
  show execParityDelta mpa fillFails s = _
  unfold execParityDelta
  rw [State.run_live hl]
  simp only [hpl, hps]

end Sys2Proof.Machine
end

section
/-! The obligation on accesses at a home slice, settled. -/

namespace Sys2Proof.Machine

/-- Settles O34: each row takes the branch that its hypotheses leave, and an access that succeeds leaves its own block. -/
theorem vatRowResults : Obligations.VatRowResults := by
  refine ⟨fun s a pl bs b hl hpl hdata hgood hacc => ?_, fun s a n bs b hl hsize halign hacc => ?_,
    fun _ _ fillFails _ _ hl hpl hps => execParityDelta_guarded hl hpl hps fillFails,
    fun _ slice hl hdue => (sliceRetirement_isGuarded slice).does hl hdue⟩
  · rw [(vatAccess_isUnguarded a).does hl, Block.doVatAccess_ok hpl hdata hgood hacc]
  · rw [(vatAtomic_isUnguarded a).does hl, Block.doVatAtomic_ok hsize halign hacc]

end Sys2Proof.Machine
end

section
/-! SUPPORT. The rows of the stacks and the Ream: a fill and its reads, a reconstruction, a rebuild of parity, a row's repair or
retirement, a map-out, a scrub (R203, R213, R214, R216 to R225, R554). -/

namespace Sys2Proof.Machine

theorem stackFill_isUnguarded (mpa fails : Nat) (chkBad : Option (List Nat)) (cmd : Option Nat) :
    IsUnguarded (.stackFill mpa fails chkBad cmd) (fun b => b.doStackFill mpa fails chkBad cmd) := fun _ => rfl
theorem reconstruction_isUnguarded (mpa : Nat) (ok : Bool) (cmd : Option Nat) :
    IsUnguarded (.reconstruction mpa ok cmd) (fun b => b.doRecon mpa ok cmd) := fun _ => rfl
theorem rowRepair_isUnguarded (mpa : Nat) (spare : Bool) : IsUnguarded (.rowRepair mpa spare) (fun b => b.doRowRepair mpa spare) :=
  fun _ => rfl
theorem mapout_isUnguarded (stack : Fin 8) (pcs : List (Fin 32)) (cause : Fin 4) (hit : List Nat) : IsUnguarded
    (.mapout stack pcs cause hit) (fun b => b.doMapout stack (pcs.map (fun u => u.val)) cause hit) := fun _ => rfl
theorem scrubRead_isUnguarded (stack : Fin 8) (mismatch : Bool) :
    IsUnguarded (.scrubRead stack mismatch) (fun b => b.doScrub stack mismatch) := fun _ => rfl

section
variable {b : Block} {mpa : Nat} {cmd : Option Nat} {pl : Place} {ps : Slot}

/-! ### A fill -/

/-- The block after the reads of a slot of which the first `fails` fail their check: the reads past the first are re-reads, at most
`STACK_CFG.REREADS` (R203, R213). -/
def Block.fillReads (b : Block) (q : Slot) (fails : Nat) : Block :=
  ((b.stackRead q).count .STACK_RD_LINES_COUNT q.s (min fails (b.rget .STACK_CFG_REREADS q.s))).count .STACK_CRC_MISMATCH_COUNT q.s
    (min fails (b.rget .STACK_CFG_REREADS q.s + 1))

/-- A fill whose first read passes ends with that read. -/
theorem Block.doStackFill_passes (hpl : b.place mpa = some pl) (chkBad : Option (List Nat)) :
    b.doStackFill mpa 0 chkBad cmd = b.fillReads pl.slot 0 := by
  unfold Block.doStackFill Block.fillReads
  rw [hpl]
  dsimp only
  rw [if_pos rfl]

/-- A fill that passes at a re-read counts it, and its error is absorbed. -/
theorem Block.doStackFill_rereads {fails : Nat} (hpl : b.place mpa = some pl) (chkBad : Option (List Nat)) (hfails : fails ≠ 0)
    (hre : fails ≤ b.rget .STACK_CFG_REREADS pl.slot.s) : b.doStackFill mpa fails chkBad cmd =
      ((b.fillReads pl.slot fails).count .STACK_REREAD_OK_COUNT pl.slot.s 1).absorbed (Machine.lineErr pl mpa (b2n pl.parity.isSome)) := by
  unfold Block.doStackFill Block.fillReads
  rw [hpl]
  dsimp only
  rw [if_neg hfails, if_pos hre]
  rfl

/-- Where every read of a guarded line fails and its check line passes, the stripe is held for reconstruction (R214). -/
theorem Block.doStackFill_holds {fails : Nat} (hpl : b.place mpa = some pl) (hps : pl.parity = some ps)
    (hre : b.rget .STACK_CFG_REREADS pl.slot.s < fails) :
    b.doStackFill mpa fails none cmd = (b.fillReads pl.slot fails).holdStripe ps pl.slot := by
  unfold Block.doStackFill Block.fillReads
  rw [hpl]
  dsimp only
  rw [if_neg (by omega), if_neg (by omega), hps]

/-- Where every read of a scratch line fails, the line is lost (R216). -/
theorem Block.doStackFill_loses {fails : Nat} (hpl : b.place mpa = some pl) (hps : pl.parity = none)
    (hre : b.rget .STACK_CFG_REREADS pl.slot.s < fails) :
    b.doStackFill mpa fails none cmd = (b.fillReads pl.slot fails).loseRead pl (mpa / 128) cmd := by
  unfold Block.doStackFill Block.fillReads
  rw [hpl]
  dsimp only
  rw [if_neg (by omega), if_neg (by omega), hps]

/-! ### A reconstruction -/

/-- The reconstruction succeeds in `b`, whose stripe has just been released: the peers passed, they are there, and the line is not lost. -/
def Block.reconstructs (b : Block) (pl : Place) (l : Nat) (ok : Bool) : Bool := ok && b.rebuildable pl l && !b.lineLost l

/-- A reconstruction that succeeds rebuilds the line and writes it to its slot, if that is usable (R214). -/
theorem Block.doRecon_rebuilds {ok : Bool} (hpl : b.place mpa = some pl) (hps : pl.parity = some ps)
    (hheld : b.mem.holding.contains ps.key = true) (hok : (b.releaseStripe ps pl.slot).reconstructs pl (mpa / 128) ok = true) :
    let b1 := (b.releaseStripe ps pl.slot).rebuildLine pl (mpa / 128)
    b.doRecon mpa ok cmd = (if b1.slotUsable pl.slot then b1.stackWrite pl.slot else b1).absorbed (Machine.lineErr pl mpa 1) := by
  unfold Block.doRecon
  simp only [hpl, hps]
  rw [if_pos hheld]
  exact if_pos hok

/-- A reconstruction that fails counts a double loss, and the line is lost (R215, R216). -/
theorem Block.doRecon_loses {ok : Bool} (hpl : b.place mpa = some pl) (hps : pl.parity = some ps)
    (hheld : b.mem.holding.contains ps.key = true) (hok : (b.releaseStripe ps pl.slot).reconstructs pl (mpa / 128) ok = false) :
    b.doRecon mpa ok cmd =
      ((b.releaseStripe ps pl.slot).count .REAM_DOUBLE_COUNT ps.s 1).loseRead pl (mpa / 128) cmd := by
  unfold Block.doRecon
  simp only [hpl, hps]
  rw [if_pos hheld]
  exact if_neg (Bool.eq_false_iff.1 hok)

/-! ### A rebuild of parity, a row's repair -/

theorem execParityRebuild_place {s : State} (hl : s.live) (hpl : s.blk.place mpa = some pl) :
    exec (.parityRebuild mpa) s = .next (s.withBlk (s.blk.rebuildParity pl)) := by
  show execParityRebuild mpa s = _
  unfold execParityRebuild
  rw [State.run_live hl, hpl]

/-- A row with a spare in a bank that may still be repaired is repaired, and another is retired (R222, R223). -/
theorem Block.doRowRepair_place (hpl : b.place mpa = some pl) (spare : Bool) :
    let b1 := b.noteRow pl.slot
    b.doRowRepair mpa spare =
      if spare && decide (Sparse.get (always 0) b1.mem.repairs pl.slot.bank < b1.rget .STACK_CFG_PPR_MAX pl.slot.s)
        then b1.repairRow pl.slot else b1.retireRow pl.slot := by
  unfold Block.doRowRepair
  rw [hpl]

/-! ### A scrub -/

/-- A stack is scrubbed: its scrub is enabled, the stack is not lost, and the slot whose turn it is can be read (R225). -/
structure Block.Scrubs (b : Block) (n : Nat) : Prop where
  enabled : b.flag .STACK_CFG_SCRUB_EN n = true
  there : b.rget .STACK_STATUS_STATE n ≠ 2
  usable : (b.scrubNext n).slotUsable (b.scrubSlot n) = true

/-- The scrub meets a lost line, whose read fails again (R216). -/
theorem Block.Scrubs.lost {n l : Nat} (h : b.Scrubs n) (hlost : (b.scrubNext n).lostAt (b.scrubSlot n) = some (pl, l)) (mismatch : Bool) :
    b.doScrub n mismatch = ((b.scrubNext n).fill ⟨0x40 + n, 0xFF, none, none⟩ pl l).1 := by
  unfold Block.doScrub
  simp [h.enabled, h.there, h.usable, hlost]

/-- The scrub reads its slot, and a mismatch rewrites the stripe's parity (R225). -/
theorem Block.Scrubs.reads {n : Nat} (h : b.Scrubs n) (hkept : (b.scrubNext n).lostAt (b.scrubSlot n) = none) (mismatch : Bool) :
    b.doScrub n mismatch = if mismatch then ((b.scrubNext n).stackRead (b.scrubSlot n)).scrubMismatch (b.scrubSlot n)
      else (b.scrubNext n).stackRead (b.scrubSlot n) := by
  unfold Block.doScrub
  simp [h.enabled, h.there, h.usable, hkept]

end

end Sys2Proof.Machine
end

section
/-! The obligation on the stacks and the Ream, settled. -/

namespace Sys2Proof.Machine

/-- Settles O35: a fill goes by how many of its reads fail, a reconstruction by whether the stripe gives the line, a scrub by whether
its slot's line is lost; a rebuild of parity and a row's repair act at the line's place, and a map-out always acts. -/
theorem stackResults : Obligations.StackResults := by
  refine ⟨fun s mpa fails chkBad cmd pl hl hpl => ⟨?_, fun hfails hre => ?_, ?_⟩,
    fun s mpa ok cmd pl ps hl hpl hps hheld => ⟨fun hok => ?_, fun hok => ?_⟩,
    fun s mpa pl hl hpl => ⟨execParityRebuild_place hl hpl, fun spare => ?_⟩,
    fun s stack pcs cause hit hl => (mapout_isUnguarded stack pcs cause hit).does hl,
    fun s stack mismatch hl hen hthere husable => ?_⟩
  · rintro rfl
    rw [(stackFill_isUnguarded _ _ _ _).does hl, Block.doStackFill_passes hpl, Block.fillReads]
  · rw [(stackFill_isUnguarded _ _ _ _).does hl, Block.doStackFill_rereads hpl chkBad hfails hre, Block.fillReads]
  · rintro hre rfl
    rw [(stackFill_isUnguarded _ _ _ _).does hl]
    exact ⟨fun ps hps => by rw [Block.doStackFill_holds hpl hps hre, Block.fillReads],
      fun hps => by rw [Block.doStackFill_loses hpl hps hre, Block.fillReads]⟩
  · dsimp only
    rw [(reconstruction_isUnguarded _ _ _).does hl, Block.doRecon_rebuilds hpl hps hheld hok]
  · rw [(reconstruction_isUnguarded _ _ _).does hl, Block.doRecon_loses hpl hps hheld hok]
  · rw [(rowRepair_isUnguarded _ _).does hl, Block.doRowRepair_place hpl]
  · have hscrubs : s.blk.Scrubs stack := ⟨hen, hthere, husable⟩
    rw [(scrubRead_isUnguarded _ _).does hl]
    exact ⟨fun pl l hlost => by rw [hscrubs.lost hlost], fun hkept => by rw [hscrubs.reads hkept]⟩

end Sys2Proof.Machine
end

section
/-! SUPPORT. The Drover's commands (R243 to R245, R248, R252, R253, R255, R258, R266, R268): each is the row of its engine, and its meaning
goes, where nothing refuses the command, the way that the object, the quota and the pages leave it. -/

namespace Sys2Proof.Machine

/-! ### The rows -/

theorem map_isEngineRow (id : Nat) (p : MapParams) : IsEngineRow (.map id p) id (.map p) always2 (fun c b => b.doMap c p) := fun _ => rfl
theorem unmap_isEngineRow (id : Nat) (p : ObjParams) : IsEngineRow (.unmap id p) id (.unmap p) always2 (fun c b => b.doUnmap c p) :=
  fun _ => rfl
theorem pin_isEngineRow (id : Nat) (p : ObjParams) :
    IsEngineRow (.pin id p) id (.pin p) (Block.notMigrating p) (fun c b => b.doPin c p) := fun _ => rfl
theorem unpin_isEngineRow (id : Nat) (p : ObjParams) :
    IsEngineRow (.unpin id p) id (.unpin p) (Block.notMigrating p) (fun c b => b.doUnpin c p) := fun _ => rfl
theorem migrate_isEngineRow (id : Nat) (p : MigrateParams) :
    IsEngineRow (.migrate id p) id (.migrate p) always2 (fun c b => b.doMigrate c p) := fun _ => rfl
theorem lend_isEngineRow (id : Nat) (p : LendParams) : IsEngineRow (.lend id p) id (.lend p) always2 (fun c b => b.doLend c p) :=
  fun _ => rfl
theorem revoke_isEngineRow (id : Nat) (p : RevokeParams) :
    IsEngineRow (.revoke id p) id (.revoke p) always2 (fun c b => b.doRevoke c p) := fun _ => rfl
theorem snapshot_concludes (id : Nat) (p : SnapshotParams) :
    Concludes (.snapshot id p) id (.snapshot p) false (fun c => snapshotCmd c p) := concludes_of_conclude false fun _ => rfl

section
variable {b : Block} {c : Cmd} {o : Obj}

/-! ### MAP and UNMAP -/

/-- A pinned object is refused only where its quota has no room (R255). -/
theorem not_quotaRefuses {cache room : Bool} (h : cache = true ∨ room = true) : ¬ (!cache && !room) = true := by
  rcases h with h | h <;> simp [h]

/-- A MAP in range, with room in the table, the quota and the tier and a path to the lender, makes its object (R243 to R245, R255). -/
theorem Block.doMap_makes {p : MapParams} {r : List Nat × Block} (hok : b.mapOk c.ctx p = true) (htable : b.drover.objs.length < 65536)
    (hquota : p.cache = true ∨ b.quotaRoom c.ctx p.tier (objUnits p.size) = true)
    (halloc : b.alloc c.ctx p.guarded p.small p.size p.tier p.lend = some r) (hpath : p.tier = 1 → b.lenderUp p.lend = true) :
    b.doMap c p = (r.2.mapInto p c.id (mapObj c.ctx p b.clk.t) r.1).finish c.id 0 0 (p.size / objPage p.small) := by
  have hreach : ¬ (p.tier = 1 ∧ b.lenderUp p.lend = false) := fun ⟨hnb, hdown⟩ => by simp [hpath hnb] at hdown
  unfold Block.doMap
  dsimp only
  rw [if_neg (by simp [hok]), if_neg (by omega), if_neg (not_quotaRefuses hquota), halloc]
  exact if_neg hreach

theorem Block.doUnmap_obj {p : ObjParams} (hobj : b.obj c.ctx p.obj = some o) : b.doUnmap c p = (b.removeObj o).finish c.id 0 0 0 := by
  unfold Block.doUnmap
  rw [hobj]

/-! ### PIN and UNPIN -/

/-- PIN of an object that is pinned already changes nothing but its command. -/
theorem Block.doPin_pinned {p : ObjParams} (hobj : b.obj c.ctx p.obj = some o) (hcache : o.cache = false) :
    b.doPin c p = b.finish c.id 0 0 0 := by
  unfold Block.doPin
  simp [hobj, hcache]

/-- PIN of an object of the cache class takes its pages from the quota (R255). -/
theorem Block.doPin_cached {p : ObjParams} (hobj : b.obj c.ctx p.obj = some o) (hcache : o.cache = true)
    (hroom : b.quotaRoom c.ctx o.tier (objUnits o.size) = true) : b.doPin c p =
      ((b.quotaAdd { o with cache := false } o.tier true).updObj c.ctx p.obj (fun x => { x with cache := false })).finish c.id 0 0 0 := by
  unfold Block.doPin
  simp [hobj, hcache, hroom]

theorem Block.doUnpin_obj {p : ObjParams} (hobj : b.obj c.ctx p.obj = some o) : b.doUnpin c p =
    ((b.quotaAdd o o.tier false).updObj c.ctx p.obj (fun x => { x with cache := true, lastUse := b.clk.t })).finish c.id 0 0 0 := by
  unfold Block.doUnpin
  rw [hobj]

/-! ### MIGRATE -/

/-- Nothing refuses a MIGRATE of object `o` before its target tier is looked at: the object is there and does not migrate, and the tier
and the slot exist (R258, R268). -/
structure Block.Migrates (b : Block) (c : Cmd) (p : MigrateParams) (o : Obj) : Prop where
  obj : b.obj c.ctx p.obj = some o
  tier : p.tier ≤ 2
  slot : p.tier = 1 → p.lend < 16
  still : o.mig = none

theorem Block.Migrates.inRange {p : MigrateParams} (h : b.Migrates c p o) : ¬ (2 < p.tier ∨ (p.tier = 1 ∧ 16 ≤ p.lend)) :=
  not_or.2 ⟨Nat.not_lt.2 h.tier, fun ⟨hnb, hlend⟩ => Nat.not_lt.2 hlend (h.slot hnb)⟩

/-- A MIGRATE to where the object is completes at once. -/
theorem Block.Migrates.stays {p : MigrateParams} (h : b.Migrates c p o) (hsame : p.tier = o.tier)
    (hslot : p.tier ≠ 1 ∨ p.lend = o.lend) : b.doMigrate c p = b.finish c.id 0 0 0 := by
  unfold Block.doMigrate
  rw [h.obj]
  dsimp only
  rw [if_neg h.inRange, if_neg (not_not_intro h.still), if_pos ⟨hsame, hslot⟩]

/-- A MIGRATE elsewhere takes the target's pages, sets MIG and runs (R255, R258). -/
theorem Block.Migrates.starts {p : MigrateParams} {r : List Nat × Block} (h : b.Migrates c p o)
    (hother : p.tier ≠ o.tier ∨ p.tier = 1 ∧ p.lend ≠ o.lend)
    (hquota : o.cache = true ∨ p.tier = o.tier ∨ b.quotaRoom c.ctx p.tier (objUnits o.size) = true)
    (halloc : (b.updObj c.ctx p.obj (fun x => { x with users := x.users + 1 })).alloc c.ctx o.guarded o.small o.size p.tier p.lend =
      some r) :
    b.doMigrate c p = (((r.2.updObj c.ctx p.obj (fun x =>
      { x with users := x.users - 1, mig := some ⟨some c.id, p.tier, p.lend, r.1, [], 0⟩ })).setMig o true).count
      .DROVER_STATUS_MIGRATING 0 1).setRunning c.id := by
  have hmoves : ¬ (p.tier = o.tier ∧ (p.tier ≠ 1 ∨ p.lend = o.lend)) := by tauto
  have hroom : ¬ (!o.cache && decide (p.tier ≠ o.tier) && !b.quotaRoom c.ctx p.tier (objUnits o.size)) = true := by
    rcases hquota with hq | hq | hq <;> simp [hq]
  unfold Block.doMigrate
  rw [h.obj]
  dsimp only
  rw [if_neg h.inRange, if_neg (not_not_intro h.still), if_neg hmoves, if_neg hroom, halloc]

/-! ### LEND and REVOKE -/

/-- The parameters of a LEND obey R268: context 0 gives a new number to pages for a rank. -/
structure Block.LendOk (b : Block) (c : Cmd) (p : LendParams) : Prop where
  ctx : c.ctx = 0
  number : p.lendId ≤ 255
  rank : p.rank < 16384
  cls : p.guarded ≤ 1
  pages : p.pages ≠ 0
  fresh : b.drover.lends.any (fun l => decide (l.id = p.lendId)) = false

/-- A LEND takes local pages and offers them to a rank with a path (R252). -/
theorem Block.LendOk.lends {p : LendParams} {r : List Nat × Block} (h : b.LendOk c p) (hpath : b.reachable p.rank = true)
    (halloc : b.alloc 0 (decide (p.guarded = 1)) false (p.pages * pageBytes) 0 0 = some r) :
    b.doLend c p = ((({ r.2 with drover := { r.2.drover with lends := r.2.drover.lends ++
      [Lend.mk p.lendId p.rank (decide (p.guarded = 1)) (r.1.map (fun a => a / pageBytes)) none []] } } : Block).count
      .DROVER_STATUS_LENT_PAGES 0 p.pages).tell p.rank 2 0 (.lendOffer p.lendId (decide (p.guarded = 1)) p.pages)).finish c.id 0 0 0 := by
  have haccept : ¬ (c.ctx ≠ 0 ∨ 255 < p.lendId ∨ 16384 ≤ p.rank ∨ 1 < p.guarded ∨ p.pages = 0 ∨
      b.drover.lends.any (fun l => decide (l.id = p.lendId)) = true) := by
    simp [h.ctx, h.number, h.rank, h.cls, h.pages, h.fresh]
  unfold Block.doLend
  rw [if_neg haccept, if_neg (by simp [hpath]), halloc]

/-- A REVOKE of a lend that is there starts its grace and runs (R253). -/
theorem Block.doRevoke_lent {p : RevokeParams} (hctx : c.ctx = 0)
    (hlent : b.drover.lends.any (fun l => decide (l.id = p.lendId)) = true) :
    b.doRevoke c p = (b.startRevoke p.lendId (some c.id)).setRunning c.id := by
  unfold Block.doRevoke
  rw [hlent, if_neg (by simp [hctx])]

end

end Sys2Proof.Machine
end

section
/-! SUPPORT. The Drover's own events (R242, R251, R253, R254, R259, R260, R262, R264, R265): the end of a migration's pass, a flip that is
abandoned, the end of a lend, a one-page move, an access to a lower tier without an answer. -/

namespace Sys2Proof.Machine

/-! ### The rows -/

theorem migrationPassEnd_isUnguarded (ctx : Fin 16) (obj : Nat) (kept : List Nat) (flipNs : Nat) :
    IsUnguarded (.migrationPassEnd ctx obj kept flipNs) (fun b => b.doPassEnd ctx obj kept flipNs) := fun _ => rfl
theorem flipAbandon_isUnguarded (ctx : Fin 16) (obj : Nat) : IsUnguarded (.flipAbandon ctx obj) (fun b => b.doAbandon ctx obj) :=
  fun _ => rfl
theorem graceExpiry_isUnguarded (lender : Bool) (n revoked : Nat) :
    IsUnguarded (.graceExpiry lender n revoked) (fun b => b.doGrace lender n revoked) := fun _ => rfl
theorem lenderPathLoss_isUnguarded (slot : Fin 16) : IsUnguarded (.lenderPathLoss slot) (fun b => b.doPathLoss slot) := fun _ => rfl
theorem revocationNotice_isUnguarded (src lend : Nat) : IsUnguarded (.revocationNotice src lend) (fun b => b.doNotice src lend) :=
  fun _ => rfl
theorem tlbWalk_isUnguarded (cache : Fin 11) (ctx : Fin 16) (va : Nat) (write : Bool) : IsUnguarded (.tlbWalk cache ctx va write)
    (fun b => b.runAct (translate { who := ⟨cacheSource cache, ctx, none, none⟩, cache := cache } va write)) := fun _ => rfl
theorem frameRebuild_isUnguarded (page flipNs : Nat) : IsUnguarded (.frameRebuild page flipNs) (fun b => b.doRebuild page flipNs) :=
  fun _ => rfl
theorem pageRemap_isUnguarded (page flipNs : Nat) : IsUnguarded (.pageRemap page flipNs) (fun b => b.doRemap page flipNs) := fun _ => rfl
theorem tierTimeout_isGuarded (id : Nat) (late : Bool) :
    IsGuarded (.tierTimeout id late) (fun b => (b.findCmd id).isSome) (fun b => b.migTierEnd id late) := fun _ => rfl

section
variable {b b' : Block} {o : Obj} {m : Mig}

/-! ### A migration's pass -/

section
variable {ctx obj : Nat}

/-- The pass of an object that migrates ends with the dirty blocks that are kept (R258). -/
theorem Block.doPassEnd_mig (hobj : b.obj ctx obj = some o) (hmig : o.mig = some m) (kept : List Nat) (flipNs : Nat) :
    b.doPassEnd ctx obj kept flipNs = b.passEnd o m (m.dirty.filter (fun d => kept.contains d)) flipNs := by
  unfold Block.doPassEnd
  simp only [hobj, hmig]

/-- An abandoned flip of an object that migrates counts as a pass: its migration ends with the last, or goes on (R260). -/
theorem Block.doAbandon_mig (hobj : b.obj ctx obj = some o) (hmig : o.mig = some m) :
    let b1 := b.count .DROVER_FLIP_ABANDON_COUNT 0 1
    b.doAbandon ctx obj = if b1.rget .DROVER_CFG_MAX_PASSES ≤ m.passes + 1 then (b1.endMigCmd o 0x6001 2).endMig o
      else b1.updObj ctx obj (fun x => { x with mig := some { m with passes := m.passes + 1 } }) := by
  unfold Block.doAbandon
  simp only [hobj, hmig]

end

/-- The block in which a migration has flipped (R260, R261), before its command, if any, ends. -/
def Block.flipped (b : Block) (o : Obj) (m : Mig) (flipNs : Nat) : Block :=
  let b1 := (b.commitMove o m.tier m.lend m.targets).flipTime flipNs
  b1.rset .DROVER_STATUS_MIGRATING 0 (b1.rget .DROVER_STATUS_MIGRATING - 1)

section
variable {d : List Nat} {flipNs : Nat}

/-- A pass whose dirty blocks are few enough ends in the flip, and the migration's command ends with it (R259, R260). -/
theorem Block.passEnd_flips (hgoes : b.migFails o m = none) (hfew : d.length ≤ b.flipBlocks m.tier) :
    b.passEnd o m d flipNs = match m.cmd with
      | some id => (b.flipped o m flipNs).finish id 0 0 (halves (m.passes + 1) (min 20000 flipNs))
      | none => b.flipped o m flipNs := by
  unfold Block.passEnd
  rw [hgoes]
  exact if_pos hfew

/-- The last pass that MAX_PASSES allows ends without convergence while too many blocks are dirty (R259). -/
theorem Block.passEnd_last (hgoes : b.migFails o m = none) (hmany : b.flipBlocks m.tier < d.length)
    (hlast : b.rget .DROVER_CFG_MAX_PASSES ≤ m.passes + 1) : b.passEnd o m d flipNs = (b.endMigCmd o 0x6001 2).endMig o := by
  unfold Block.passEnd
  rw [hgoes]
  exact (if_neg (Nat.not_le.2 hmany)).trans (if_pos hlast)

/-- An earlier pass is followed by another over the dirty blocks (R259). -/
theorem Block.passEnd_again (hgoes : b.migFails o m = none) (hmany : b.flipBlocks m.tier < d.length)
    (hmore : m.passes + 1 < b.rget .DROVER_CFG_MAX_PASSES) : b.passEnd o m d flipNs =
      b.updObj o.ctx o.obj (fun x => { x with mig := some { m with passes := m.passes + 1, dirty := d } }) := by
  unfold Block.passEnd
  rw [hgoes]
  exact (if_neg (Nat.not_le.2 hmany)).trans (if_neg (Nat.not_le.2 hmore))

end

/-! ### The end of a lend -/

section
variable {n revoked t : Nat}

theorem Block.doGrace_lender {l : Lend} (hlend : b.drover.lends.find? (fun l => decide (l.id = n)) = some l) (hgrace : l.graceT = some t) :
    b.doGrace true n revoked = (b.advanceTo (t + b.grace)).endLend l revoked := by
  unfold Block.doGrace
  simp only [hlend, hgrace, if_true]

theorem Block.doGrace_borrower (hgrace : (b.borrow n).graceT = some t) :
    b.doGrace false n revoked = (b.advanceTo (t + b.grace)).endBorrow n := by
  unfold Block.doGrace
  rw [if_neg Bool.false_ne_true, hgrace]

/-- The path to a slot's lender is lost: the slot has a lend, and no path leads to its rank (R254). -/
structure Block.PathLost (b : Block) (slot : Nat) : Prop where
  valid : b.flag .DROVER_BORROW_VALID slot = true
  down : b.reachable (b.rget .DROVER_BORROW_RANK slot) = false

/-- A loss that is found is noted. -/
theorem Block.PathLost.noted {slot : Nat} (h : b.PathLost slot) (hfirst : (b.borrow slot).pathLostT = none) :
    b.doPathLoss slot = { b with drover := { b.drover with
      borrows := Sparse.set (always Borrow.init) b.drover.borrows slot { b.borrow slot with pathLostT := some b.clk.t } } } := by
  unfold Block.doPathLoss
  simp only [h.valid, h.down, hfirst]
  rfl

/-- A loss that was noted before ends the lend when the grace has passed. -/
theorem Block.PathLost.ends {slot : Nat} (h : b.PathLost slot) (hnoted : (b.borrow slot).pathLostT = some t) :
    b.doPathLoss slot = (b.advanceTo (t + b.grace)).endBorrow slot := by
  unfold Block.doPathLoss
  simp only [h.valid, h.down, hnoted]
  rfl

end

theorem Block.doNotice_slot {src lend slot : Nat} (hslot : b.slotOfLend src lend = some slot) :
    b.doNotice src lend = b.noticed slot := by
  unfold Block.doNotice
  rw [hslot]

/-! ### One-page moves -/

section
variable {page flipNs : Nat}

/-- A page of a narrowed frame moves, an unguarded one when no guarded one waits (R264). -/
theorem Block.doRebuild_moves (hmove : b.movePage page flipNs = some b') (hwaits : b.rebuildPages.contains page = true)
    (hturn : (b.frame (page / 8)).guarded = true ∨ ∀ p ∈ b.rebuildPages, (b.frame (p / 8)).guarded = false) :
    b.doRebuild page flipNs = b'.setRebuilding := by
  have hfirst : (b.rebuildPages.contains page && ((b.frame (page / 8)).guarded ||
      !b.rebuildPages.any (fun p => (b.frame (p / 8)).guarded))) = true := by
    rw [hwaits, Bool.true_and, Bool.or_eq_true]
    exact hturn.imp_right fun hnone => by simpa using hnone
  unfold Block.doRebuild
  dsimp only
  rw [if_pos hfirst, hmove]

/-- A retired page that is still mapped moves, and no access reaches it from then on (R265). -/
theorem Block.doRemap_moves (hmove : b.movePage page flipNs = some b') (hretired : b.mem.retired.contains page = true)
    (hused : b.drover.usedPages.contains page = true) :
    b.doRemap page flipNs = { b' with mem := { b'.mem with gone := b'.mem.gone ++ [page] } } := by
  unfold Block.doRemap
  rw [hretired, hused, if_pos (by rfl), hmove]

end

/-! ### An access to a lower tier -/

section
variable {id : Nat}

/-- A running MIGRATE to or from a lower tier ends with its object at the source, after DROVER_TIMEOUT if the access is late (R251, R262). -/
theorem Block.migTierEnd_mig (hobj : b.drover.objs.find? (fun o => o.mig.any (fun m => decide (m.cmd = some id))) = some o)
    (hmig : o.mig = some m) (hlower : m.tier ≠ 0 ∨ o.tier ≠ 0) (late : Bool) :
    let b1 := if late then b.advanceTo (b.clk.t + b.tierWait (if m.tier = 0 then o.tier else m.tier)) else b
    b.migTierEnd id late = ((b1.count .DROVER_TIER_FAIL_COUNT 0 1).endMigCmd o 0x0200 (if late then 2 else 1)).endMig o := by
  unfold Block.migTierEnd
  simp only [hobj, hmig]
  exact if_neg fun ⟨htarget, hsource⟩ => hlower.elim (· htarget) (· hsource)

/-- A command that migrates nothing meets the failure at its next access (log entry 31). -/
theorem Block.migTierEnd_other (hnone : b.drover.objs.find? (fun o => o.mig.any (fun m => decide (m.cmd = some id))) = none)
    (late : Bool) : b.migTierEnd id late = { b with drover := { b.drover with
      late := b.drover.late.filter (fun x => decide (x.1 ≠ id)) ++ [(id, late)] } } := by
  unfold Block.migTierEnd
  rw [hnone]

end

end

end Sys2Proof.Machine
end

section
/-! The obligations on the Drover's commands and events, settled. -/

namespace Sys2Proof.Machine

/-- Settles O21: each command is its engine's row, and takes the branch that its hypotheses leave. -/
theorem droverCommandResults : Obligations.DroverCommandResults := by
  refine ⟨?map, ?unmap, ?pin, ?unpin, ?migrate, ?lend, ?revoke, ?snapshot⟩
  case map =>
    intro s id p c r hl h b hok htable hquota halloc hpath
    rw [(map_isEngineRow id p).does hl h rfl, Block.doMap_makes hok htable hquota halloc hpath]
  case unmap =>
    intro s id p c o hl h hobj
    rw [(unmap_isEngineRow id p).does hl h rfl, Block.doUnmap_obj hobj]
  case pin =>
    intro s id p c o hl h hstill hobj b
    rw [(pin_isEngineRow id p).does hl h hstill]
    exact ⟨fun hcache => by rw [Block.doPin_pinned hobj hcache], fun hcache hroom => by rw [Block.doPin_cached hobj hcache hroom]⟩
  case unpin =>
    intro s id p c o hl h hstill hobj b
    rw [(unpin_isEngineRow id p).does hl h hstill, Block.doUnpin_obj hobj]
  case migrate =>
    intro s id p c o hl h b hobj htier hslot hstill
    have hmigrates : b.Migrates c p o := ⟨hobj, htier, hslot, hstill⟩
    rw [(migrate_isEngineRow id p).does hl h rfl]
    exact ⟨fun hsame hlend => by rw [hmigrates.stays hsame hlend],
      fun r hother hquota halloc => by rw [hmigrates.starts hother hquota halloc]⟩
  case lend =>
    intro s id p c r hl h b hctx hnumber hrank hcls hpages hfresh hpath halloc
    have hlend : b.LendOk c p := ⟨hctx, hnumber, hrank, hcls, hpages, hfresh⟩
    rw [(lend_isEngineRow id p).does hl h rfl, hlend.lends hpath halloc]
  case revoke =>
    intro s id p c hl h hctx hlent
    rw [(revoke_isEngineRow id p).does hl h rfl, Block.doRevoke_lent hctx hlent]
  case snapshot =>
    intro s id p c e b hl h hsnap
    exact snapshot_concludes id p s c (0, 0, e) b hl h nofun hsnap

/-- Settles O22: each event changes the block wherever the module acts, and takes the branch that its hypotheses leave. -/
theorem droverEventResults : Obligations.DroverEventResults := by
  refine ⟨?passEnd, ?abandon, ?grace, ?pathLoss, ?notice, fun s cache ctx va write hl => (tlbWalk_isUnguarded cache ctx va write).does hl,
    ?move, ?tierTimeout⟩
  case passEnd =>
    intro s ctx obj kept flipNs o m hl hobj hmig hgoes d
    rw [(migrationPassEnd_isUnguarded ctx obj kept flipNs).does hl, Block.doPassEnd_mig hobj hmig]
    refine ⟨fun hfew => ?_, fun hmany hlast => by rw [Block.passEnd_last hgoes hmany hlast],
      fun hmany hmore => by rw [Block.passEnd_again hgoes hmany hmore]⟩
    rw [Block.passEnd_flips hgoes hfew]
    exact ⟨fun hcmd => by rw [hcmd]; rfl, fun id hcmd => by rw [hcmd]; rfl⟩
  case abandon =>
    intro s ctx obj o m hl hobj hmig b
    rw [(flipAbandon_isUnguarded ctx obj).does hl, Block.doAbandon_mig hobj hmig]
    exact ⟨fun hlast => by rw [if_pos hlast], fun hmore => by rw [if_neg (Nat.not_le.2 hmore)]⟩
  case grace =>
    intro s n revoked t hl
    rw [(graceExpiry_isUnguarded true n revoked).does hl, (graceExpiry_isUnguarded false n revoked).does hl]
    exact ⟨fun l hlend hgrace => by rw [Block.doGrace_lender hlend hgrace], fun hgrace => by rw [Block.doGrace_borrower hgrace]⟩
  case pathLoss =>
    intro s slot hl hvalid hdown
    have hlost : s.blk.PathLost slot := ⟨hvalid, hdown⟩
    rw [(lenderPathLoss_isUnguarded slot).does hl]
    exact ⟨fun hfirst => by rw [hlost.noted hfirst], fun t hnoted => by rw [hlost.ends hnoted]⟩
  case notice =>
    intro s src lend slot hl hslot
    rw [(revocationNotice_isUnguarded src lend).does hl, Block.doNotice_slot hslot]
  case move =>
    intro s page flipNs b hl hmove
    rw [(frameRebuild_isUnguarded page flipNs).does hl, (pageRemap_isUnguarded page flipNs).does hl]
    exact ⟨fun hwaits hturn => by rw [Block.doRebuild_moves hmove hwaits hturn],
      fun hretired hused => by rw [Block.doRemap_moves hmove hretired hused]⟩
  case tierTimeout =>
    intro s id late hl hcmd
    rw [(tierTimeout_isGuarded id late).does hl hcmd]
    exact ⟨fun o m hobj hmig hlower => by rw [Block.migTierEnd_mig hobj hmig hlower], fun hnone => by rw [Block.migTierEnd_other hnone]⟩

end Sys2Proof.Machine
end

section
/-! SUPPORT. The Beater's commands on this module (R274, R277, R283, R288): each is the row of its engine, and its meaning goes, where nothing
refuses the command, the way that the tables, the lists and the workspace leave it. -/

namespace Sys2Proof.Machine

/-! ### The rows -/

theorem tableDefine_isEngineRow (id : Nat) (p : TableParams) : IsEngineRow (.tableDefine id p) id (.tableDefine p) Block.beaterTurn
    (fun c b => (b.doTableDefine c p).beaterRegs) := fun _ => rfl
theorem lookupPool_isEngineRow (id : Nat) (p : LookupParams) (det : Fin 3) (bad : List Nat) :
    IsEngineRow (.lookupPool id p det bad) id (.lookupPool p) (fun c b => !b.isHeld c.id && Block.beaterTurn c b)
      (fun c b => (b.startLookup c p det bad).beaterRegs) := fun _ => rfl
theorem sortDedup_isEngineRow (id : Nat) (p : SortParams) (det : Fin 3) : IsEngineRow (.sortDedup id p det) id (.sortDedup p)
    Block.beaterTurn (fun c b => (b.startSort c p det).beaterRegs) := fun _ => rfl
theorem scatterUpdate_isEngineRow (id : Nat) (p : ScatterParams) (det : Fin 3) (bad : List Nat) :
    IsEngineRow (.scatterUpdate id p det bad) id (.scatterUpdate p) Block.beaterTurn
      (fun c b => (b.startScatter c p det bad).beaterRegs) := fun _ => rfl

/-- The start condition of LOOKUP_POOL: the Relay does not hold it, and the Beater may start it (R293). -/
theorem lookupReady_of {b : Block} {c : Cmd} (hheld : b.isHeld c.id = false) (hturn : Block.beaterTurn c b = true) :
    (!b.isHeld c.id && Block.beaterTurn c b) = true := by
  rw [hheld, hturn]
  rfl

/-- A command whose action succeeds goes on with the action's answer. -/
theorem Block.withAct_ok {α : Type} {b b' : Block} {m : Act α} {x : α} (h : m b = (.ok x, b')) (id unm : Nat)
    (go : α → Block → Block) : b.withAct id unm m go = go x b' := by
  unfold Block.withAct
  rw [h]

section
variable {b b' : Block} {c : Cmd}

/-! ### TABLE_DEFINE -/

/-- Whether an entry of the Stud Book is one of a context's table. -/
def SbEntry.ofTable (ctx table : Nat) (e : SbEntry) : Bool := e.valid && decide (e.ctx = ctx) && decide (e.table = table)

section
variable {p : TableParams} (hfree : b.sbWhere (fun e => e.ofTable c.ctx p.table && e.inGroup) = [])
include hfree

/-- A table that is defined and has no group entries is removed, and its other entries are freed. -/
theorem Block.doTableDefine_removes (hundefine : p.undefine = true) (hdefined : (b.table? c.ctx p.table).isSome = true) :
    b.doTableDefine c p =
      ((b.setTable c.ctx p.table none).sbFreeWhere (SbEntry.ofTable c.ctx p.table)).finish c.id 0 0 0 := by
  obtain ⟨d, hd⟩ := Option.isSome_iff_exists.1 hdefined
  unfold Block.doTableDefine
  refine (if_neg (not_not_intro hfree)).trans ?_
  rw [if_pos hundefine, hd]
  rfl

/-- A table whose rows fit the local rows, whose owner is a member and whose records are mapped is defined (R274). -/
theorem Block.doTableDefine_defines {n self : Nat} (hundefine : p.undefine = false) (hbad : p.bad = false)
    (hgroup : b.tableGroup p = some (n, self)) (hrows : p.ownRows n self ≤ p.localRows) (howner : p.shard = 3 → p.owner < n)
    (hmapped : b.mappedFor c.ctx p.baseVa (p.localRows * p.recBytes) = true) :
    b.doTableDefine c p = ((b.setTable c.ctx p.table (some p)).sbFreeWhere (SbEntry.ofTable c.ctx p.table)).finish
      c.id 0 0 (halves p.recBytes p.look) := by
  have hfits : (decide (p.ownRows n self ≤ p.localRows) && (decide (p.shard ≠ 3) || decide (p.owner < n))) = true := by
    rw [decide_eq_true hrows, Bool.true_and, ← Bool.decide_or, decide_eq_true_eq]
    exact (em (p.shard = 3)).symm.imp_right howner
  unfold Block.doTableDefine
  refine (if_neg (not_not_intro hfree)).trans ?_
  rw [hundefine, hgroup, hbad, hmapped]
  simp only [hfits]
  rfl

end

/-! ### LOOKUP_POOL -/

/-- The sharded tables that a lookup's list names, once for each entry that names one. -/
def Block.shardedTables (b : Block) (ctx : Nat) (l : List LookEntry) : List TableParams :=
  l.filterMap (fun e => (b.table? ctx e.table).bind (fun d => if d.shard = 0 then none else some d))

/-- The parameters of a LOOKUP_POOL are in range (R277). -/
structure LookupInRange (p : LookupParams) : Prop where
  nonempty : p.count ≠ 0
  short : p.count ≤ 4096
  hint : p.hint ≠ 3
  aligned : p.workVa % 64 = 0

section
variable {p : LookupParams} {l : List LookEntry} {det : Nat} {bad : List Nat} (hrange : LookupInRange p)
  (hlist : readList c p.listVa p.count b = (.ok l, b'))
include hrange hlist

/-- A LOOKUP_POOL of tables that are all local goes through the sorter by itself (R277). -/
theorem Block.startLookup_local (hlocal : b'.shardedTables c.ctx l = []) : b.startLookup c p det bad =
    (b'.sbFails bad).afterSort c l p.badSkip det (fun ds b => b.lookSorted c p l none ds) := by
  obtain ⟨hsome, hfew, hhint, haligned⟩ := hrange
  unfold Block.startLookup
  rw [if_neg (by omega), Block.withAct_ok hlist]
  exact if_pos hlocal

/-- A LOOKUP_POOL of sharded tables of its group, in the group's order, goes through the sorter with its group (R278). -/
theorem Block.startLookup_sharded {gs : GroupSt} (hsharded : b'.shardedTables c.ctx l ≠ [])
    (hgroup : ∀ d ∈ b'.shardedTables c.ctx l, d.group = p.group) (hturn : b'.collTurn c = true)
    (henters : b'.CollEnters c p.group p.epoch p.bucket gs) : b.startLookup c p det bad =
      ((b'.unhold c.id).sbFails bad).afterSort c l p.badSkip det (fun ds b => b.lookSorted c p l (some gs) ds) := by
  obtain ⟨hsome, hfew, hhint, haligned⟩ := hrange
  have hforeign : ¬ (b'.shardedTables c.ctx l).any (fun d => decide (d.group ≠ p.group)) = true := by simpa using hgroup
  unfold Block.startLookup
  rw [if_neg (by omega), Block.withAct_ok hlist]
  refine (if_neg hsharded).trans ((if_neg hforeign).trans ?_)
  rw [if_neg (by simp [hturn]), Block.collStart_enters henters]

end

/-! ### SORT_DEDUP -/

/-- A SORT_DEDUP in range goes through the sorter once its list is read (R283). -/
theorem Block.startSort_reads {p : SortParams} {l : List LookEntry} {det : Nat} (hsome : p.count ≠ 0) (hfew : p.count ≤ 4096)
    (hmode : p.mode ≤ 1) (hlist : readList c p.listVa p.count b = (.ok l, b')) : b.startSort c p det =
      b'.afterSort c l p.badSkip det (fun ds b => b.sortSorted c p l ds) := by
  unfold Block.startSort
  rw [if_neg (by omega), Block.withAct_ok hlist]

/-! ### SCATTER_UPDATE -/

/-- The block in which a SCATTER_UPDATE's list is sorted and counted, with what its first record cycle detects. -/
def Block.scatterSorted (b : Block) (c : Cmd) (det : Nat) (bad : List Nat) (keys distinct : Nat) : Block :=
  (((b.sbFails bad).count .BEATER_KEYS_COUNT 0 keys).count .BEATER_DISTINCT_COUNT 0 distinct).cycleDet c det

/-- A SCATTER_UPDATE of trained tables with room in its workspace ends, once every record cycle is done, with the status that the
cycles come to (R288, R291). -/
theorem Block.startScatter_ends {p : ScatterParams} {l : List GradEntry} {det : Nat} {bad : List Nat} {b'' : Block} {r : Scattered}
    (hhint : p.hint ≠ 3) (hdet : det ≠ 2) (hlist : readGradList c p.inVa b = (.ok l, b'))
    (htrained : ∀ e ∈ l, ∀ d, b'.table? c.ctx (keyTable e.key) = some d → d.rule ≠ 0)
    (hroom : 16 * l.length + 65536 ≤ p.workBytes)
    (hcycles : let ds := l.foldl (fun a e => sumGrad e a) []
      scatterAct c p l.length ds (b'.scatterSorted c det bad l.length ds.length) = (.ok r, b'')) :
    let st := r.status (b''.okOr c.id 0)
    b.startScatter c p det bad = (b''.cvtEffects c.id r.sat r.ufl).finish c.id st.1 st.2.1 st.2.2 := by
  have hreadonly : ¬ l.any (fun e => match b'.table? c.ctx (keyTable e.key) with
      | some d => decide (d.rule = 0)
      | none => false) = true := by
    rw [List.any_eq_true]
    rintro ⟨e, he, hrule⟩
    cases ht : b'.table? c.ctx (keyTable e.key) with
    | none => simp [ht] at hrule
    | some d => exact htrained e he d ht (by simpa [ht] using hrule)
  unfold Block.startScatter
  rw [if_neg hhint, Block.withAct_ok hlist]
  refine (if_neg hreadonly).trans ((if_neg (Nat.not_lt.2 hroom)).trans ((if_neg hdet).trans ?_))
  exact Block.withAct_ok hcycles _ _ _

end

end Sys2Proof.Machine
end

section
/-! SUPPORT. The Beater's collectives (R286, R314, R317, R318): each is the row of its engine, and one that enters flight goes on with its
group. -/

namespace Sys2Proof.Machine

/-! ### The rows -/

theorem exchange_isEngineRow (id : Nat) (p : ExchangeParams) (bad : List Nat) : IsEngineRow (.exchange id p bad) id (.exchange p)
    beaterCollReady (fun c b => (b.startExchange c p bad).beaterRegs) := fun _ => rfl
theorem promote_isEngineRow (id : Nat) (p : PromoteParams) (demote : Bool) (bad : List Nat) :
    IsEngineRow (if demote then .demote id p bad else .promote id p bad) id (if demote then .demote p else .promote p)
      beaterCollReady (fun c b => (b.startPromote c p demote bad).beaterRegs) := by
  cases demote
  · exact fun _ => rfl
  · exact fun _ => rfl
theorem refresh_isEngineRow (id : Nat) (p : RefreshParams) (bad : List Nat) : IsEngineRow (.refresh id p bad) id (.refresh p)
    beaterCollReady (fun c b => (b.startRefresh c p bad).beaterRegs) := fun _ => rfl

section
variable {b : Block} {c : Cmd} {gs : GroupSt} {bad : List Nat}

/-! ### Entering flight -/

/-- An EXCHANGE whose list is read sends its segments' sizes to its group (R286, R287). -/
theorem Block.startExchange_enters {p : ExchangeParams} {l : List GradEntry} {b' : Block}
    (hlist : readGradList c p.inVa b = (.ok l, b')) (henters : b'.CollEnters c p.group p.epoch p.bucket gs) :
    b.startExchange c p bad =
      (((b'.unhold c.id).sbFails bad).exGo c p l gs).exAdvance (tagOf p.group p.epoch p.bucket) c p := by
  unfold Block.startExchange
  rw [Block.withAct_ok hlist, Block.collStart_enters henters]

/-- A PROMOTE or DEMOTE in range, for which a PROMOTE finds the replica pool mapped, offers its keys to its group (R314, R317). -/
theorem Block.startPromote_enters {p : PromoteParams} {demote : Bool} (hbad : p.bad demote = false)
    (hpool : demote = false → b.poolOk c.ctx = true) (henters : b.CollEnters c p.group p.epoch p.bucket gs) :
    b.startPromote c p demote bad =
      (Block.sbBegin c p.group p.epoch p.bucket bad (if p.stats then [(p.statsVa, 32)] else [])
        (fun b => (fun l => sbOffer p l) <$> b.sbKeys c p demote) gs (b.unhold c.id)).sbAdvance
        (tagOf p.group p.epoch p.bucket) c p demote := by
  have haccepts : ¬ (p.bad demote || (!demote && !b.poolOk c.ctx)) = true := by
    rw [hbad]
    cases demote with
    | false => simp [hpool rfl]
    | true => simp
  unfold Block.startPromote
  rw [if_neg haccepts, Block.collStart_enters henters]

/-- A REFRESH tells its group the entries that this module can read (R318). -/
theorem Block.startRefresh_enters {p : RefreshParams} (henters : b.CollEnters c p.group p.epoch p.bucket gs) :
    b.startRefresh c p bad =
      (Block.sbBegin c p.group p.epoch p.bucket bad (if p.stats then [(p.statsVa, 32)] else [])
        (fun b => return b.refreshOffer p.group) gs (b.unhold c.id)).refreshAdvance (tagOf p.group p.epoch p.bucket) c p := by
  unfold Block.startRefresh
  rw [Block.collStart_enters henters]

end

end Sys2Proof.Machine
end

section
/-! SUPPORT. The Relay's own events (R295, R364, R366, R385, R391): a running collective with a silent member ends at its time-out, and a
collective that the Relay holds starts when it is ready. That a timed row first advances the clock is log entry 11's. -/

namespace Sys2Proof.Machine

section
variable {s : State} (hl : s.live)
include hl

/-- A collective of the Relay, in its last pass, ends PEER_TIMEOUT with its lowest silent member (R391). -/
theorem execPeerTimeout_silent {tag i : Nat} {x : Coll} (hcoll : s.blk.coll tag = some x) (hruns : s.blk.collRuns x = true)
    (hrelay : x.op / 256 ≠ 2) (hlast : x.passes ≤ x.passDone + 1) (hsilent : s.blk.silentMember x = some i) :
    execPeerTimeout tag s = .next (s.withBlk
      ((s.blk.advanceTo (x.startT + s.blk.rget .RELAY_CFG_PEER_TIMEOUT_MS * msec)).endColl tag 0x4003 i 0)) := by
  have hends : ¬ (!s.blk.collRuns x || decide (x.op / 256 = 2) || decide (x.passDone + 1 < x.passes)) = true := by
    simp [hruns, hrelay, hlast]
  rw [execPeerTimeout, State.run_live hl]
  simp only [hcoll, if_neg hends, hsilent]

/-- A collective of the Beater ends without its silent members (R295). -/
theorem execBeaterPeerTimeout_silent {tag i : Nat} {x : Coll} {c : Cmd} (hcoll : s.blk.coll tag = some x)
    (hruns : s.blk.collRuns x = true) (hbeater : x.op / 256 = 2) (hcmd : x.cmd.bind s.blk.findCmd = some c)
    (hsilent : s.blk.silentMember x = some i) :
    execBeaterPeerTimeout tag s = .next (s.withBlk
      ((s.blk.advanceTo (x.startT + s.blk.rget .BEATER_CFG_PEER_TIMEOUT_MS * msec)).beaterTimeout x c).beaterRegs) := by
  rw [execBeaterPeerTimeout, State.run_live hl]
  simp only [hcoll, hcmd, hsilent, if_pos (And.intro hruns hbeater)]

/-- A held collective that is ready starts as its row would, one held for its epoch a tick after the commit (R364, R366, R385). -/
theorem execHeldCollectiveStart_ready {id : Nat} {h : HeldColl} {c : Cmd}
    (hheld : s.blk.relay.held.find? (fun h => decide (h.cmd = id)) = some h) (hfound : s.blk.findCmd id = some c)
    (hwaits : c.phase = .waiting) (hfree : s.blk.mayStart = true) (hready : s.blk.heldReady h c = true) :
    execHeldCollectiveStart id s =
      .next (s.withBlk (Block.startHeld c (if h.epoch then s.blk.advanceTo (s.blk.clk.t + 64) else s.blk)).beaterRegs) := by
  rw [execHeldCollectiveStart, State.run_live hl]
  simp only [hheld, hfound, if_pos (And.intro hwaits (And.intro hfree hready))]

end

end Sys2Proof.Machine
end

section
/-! The obligations on the Beater's commands and the Relay's events, settled. -/

namespace Sys2Proof.Machine

/-- Settles O11: each command is its engine's row, and takes the branch that its hypotheses leave. -/
theorem beaterLocalResults : Obligations.BeaterLocalResults := by
  refine ⟨?table, ?lookup, ?sort, ?scatter⟩
  case table =>
    intro s id p c hl h hturn b ofTable hfree
    rw [(tableDefine_isEngineRow id p).does hl h hturn]
    exact ⟨fun hundefine hdefined => by rw [Block.doTableDefine_removes hfree hundefine hdefined]; rfl,
      fun n self hundefine hbad hgroup hrows howner hmapped => by
        rw [Block.doTableDefine_defines hfree hundefine hbad hgroup hrows howner hmapped]; rfl⟩
  case lookup =>
    intro s id p det bad c l b hl h hheld hturn hsome hfew hhint haligned hlist hlocal
    rw [(lookupPool_isEngineRow id p det bad).does hl h (lookupReady_of hheld hturn),
      Block.startLookup_local ⟨hsome, hfew, hhint, haligned⟩ hlist hlocal]
  case sort =>
    intro s id p det c l b hl h hturn hsome hfew hmode hlist
    rw [(sortDedup_isEngineRow id p det).does hl h hturn, Block.startSort_reads hsome hfew hmode hlist]
  case scatter =>
    intro s id p det bad c l b b' r hl h hturn hhint hdet hlist htrained hroom ds hcycles st
    rw [(scatterUpdate_isEngineRow id p det bad).does hl h hturn,
      Block.startScatter_ends hhint hdet hlist htrained hroom hcycles]

/-- Settles O12: each collective is its engine's row, and nothing keeps it from entering flight. -/
theorem beaterCollectiveResults : Obligations.BeaterCollectiveResults := by
  refine ⟨?lookup, ?exchange, ?promote, ?refresh⟩
  case lookup =>
    intro s id p det bad c l b gs hl h hheld hturn hsome hfew hhint haligned hlist sharded hsharded hgroup hcoll henters
    rw [(lookupPool_isEngineRow id p det bad).does hl h (lookupReady_of hheld hturn),
      Block.startLookup_sharded ⟨hsome, hfew, hhint, haligned⟩ hlist hsharded hgroup hcoll henters]
  case exchange =>
    intro s id p bad c l b gs hl h hready hlist henters
    rw [(exchange_isEngineRow id p bad).does hl h hready, Block.startExchange_enters hlist henters]
  case promote =>
    intro s id p demote bad c gs hl h hready hbad b hpool henters
    rw [(promote_isEngineRow id p demote bad).does hl h hready, Block.startPromote_enters hbad hpool henters]
  case refresh =>
    intro s id p bad c gs hl h hready b henters
    rw [(refresh_isEngineRow id p bad).does hl h hready, Block.startRefresh_enters henters]

/-- Settles O19: each event acts where its condition holds. That the time-outs and the start after an epoch's commit first advance the clock
is log entry 11's. -/
theorem relayEventResults : Obligations.RelayEventResults :=
  ⟨fun _ _ _ _ hl hcoll hruns hrelay hlast hsilent => execPeerTimeout_silent hl hcoll hruns hrelay hlast hsilent,
    fun _ _ _ _ _ hl hcoll hruns hbeater hcmd hsilent => execBeaterPeerTimeout_silent hl hcoll hruns hbeater hcmd hsilent,
    fun _ _ _ _ hl hheld hfound hwaits hfree hready => execHeldCollectiveStart_ready hl hheld hfound hwaits hfree hready⟩

end Sys2Proof.Machine
end

section
/-! SUPPORT. The Stud Book's rows: fills (R316), which do nothing once the engines have fallen silent (R501), and a write of
BEATER_SB_PEEK_IDX (R301). Each fill goes, where its entry, its table and its access admit it, the way that R316 gives it. -/

namespace Sys2Proof.Machine

/-! ### The rows -/

/-- A row that leaves the module as it is where condition `p` holds is guarded by the opposite condition. -/
theorem IsGuarded.of_unless {i : Instr} {p : Block → Bool} {f : Block → Block}
    (h : ∀ s : State, exec i s = s.run (fun b => if p b then b else f b)) : IsGuarded i (fun b => !p b) f := by
  intro s
  simp only [h s, Bool.not_eq_true', ← Bool.not_eq_true, ite_not]

theorem fillRequest_none_isGuarded (ctx group slot key : Nat) : IsGuarded (.fillRequest none ctx group slot key)
    (fun b => !b.net.silent) (fun b => b.fillAsk ctx group slot key) := .of_unless fun _ => rfl
theorem fillRequest_some_isGuarded (src ctx group slot key : Nat) : IsGuarded (.fillRequest (some src) ctx group slot key)
    (fun b => !b.net.silent) (fun b => b.fillServe src ctx group slot key) := .of_unless fun _ => rfl
theorem fillReply_isGuarded (ctx group slot key version : Nat) (record : List Byte) :
    IsGuarded (.fillReply ctx group slot key version record) (fun b => !b.net.silent)
      (fun b => b.fillLand ctx group slot key version record) := .of_unless fun _ => rfl
theorem beaterSbPeekIdx_isHostWrite (value : BitVec 32) :
    IsHostWrite (.beaterSbPeekIdx value) 0xD81000 (fun b => b.sbPeek (value.toNat % 2 ^ 17)) := fun _ => rfl

/-! ### Fills -/

section
variable {b b' : Block} {ctx g slot key i o j : Nat} {d : TableParams} {bs : List Byte} (hfind : b.sbFind ctx key = some i)
include hfind

/-- The owner, whose record the read reaches, answers with its entry's VERSION and the record. -/
theorem Block.fillServe_answers (htable : b.table? ctx (keyTable key) = some d) (howner : b.rowOwner d (keyRow key) = some (o, j, true))
    (hread : readVa ⟨⟨0x052, ctx, none, none⟩, 0, 0, 10⟩ (b.recordVa ctx key false) d.recBytes b = (.ok bs, b'))
    (src g slot : Nat) :
    b.fillServe src ctx g slot key = b'.tell src 3 ctx (.fillReply g slot key (b'.sb i).version bs) := by
  unfold Block.fillServe
  simp only [htable, hfind, howner, hread]

section
variable (hfilling : (b.sb i).state = sbFilling) (hgroup : (b.sb i).group = g) (hslot : (b.sb i).slot = slot)
  (hempty : (b.sb i).filled = false)
include hfilling hgroup hslot hempty

/-- A non-owner asks the row's owner, as the group ranks it, for the record of an entry that is still to be filled. -/
theorem Block.fillAsk_asks {gs : GroupSt} (hranks : b.group? g = some gs) (htable : b.table? ctx (b.sb i).table = some d)
    (howner : b.rowOwner d (b.sb i).row = some (o, j, false)) :
    b.fillAsk ctx g slot key = b.tell (gs.ranks.getD o 0) 3 ctx (.fillRequest g slot key) := by
  have hasks : (b.sb i).state = sbFilling ∧ (b.sb i).group = g ∧ (b.sb i).slot = slot ∧ (!(b.sb i).filled) = true :=
    ⟨hfilling, hgroup, hslot, congrArg not hempty⟩
  unfold Block.fillAsk
  simp only [hfind, hranks, htable, Option.bind_some, howner, if_pos hasks]

/-- A reply whose record the write puts in the slot of an entry that awaits it sets FILLED and FILL_VER. -/
theorem Block.fillLand_fills (hreplica : (b.sb i).owner = false)
    (hwrite : writeVa ⟨⟨0x052, ctx, none, none⟩, 0, 0, 10⟩ (b.sbSlotVa ctx slot) bs b = (.ok (), b')) (version : Nat) :
    b.fillLand ctx g slot key version bs =
      b'.setSb i { b.sb i with filled := true, fillVer := version % 2 ^ 16, stepAt := b'.sbStep g } := by
  have hlands : (b.sb i).state = sbFilling ∧ (b.sb i).group = g ∧ (b.sb i).slot = slot ∧ (!(b.sb i).owner) = true ∧
      (!(b.sb i).filled) = true :=
    ⟨hfilling, hgroup, hslot, congrArg not hreplica, congrArg not hempty⟩
  unfold Block.fillLand
  simp only [hfind, if_pos hlands, hwrite]

end

end

end Sys2Proof.Machine
end

section
/-! The obligation on fills and the directory's window, settled. -/

namespace Sys2Proof.Machine

/-- Settles O13: each fill is a row guarded by engines that are not silent, and takes the branch that its hypotheses leave; the window's index
is a host write. -/
theorem fillResults : Obligations.FillResults := by
  refine ⟨?ask, ?serve, ?land, fun s value hl hw => (beaterSbPeekIdx_isHostWrite value).does s hl hw⟩
  case ask =>
    intro s ctx g slot key i o j gs d hl hsilent hfind hranks htable howner hfilling hgroup hslot hempty
    rw [(fillRequest_none_isGuarded ctx g slot key).does hl (congrArg not hsilent),
      Block.fillAsk_asks hfind hfilling hgroup hslot hempty hranks htable howner]
  case serve =>
    intro s src ctx g slot key i o j d bs b hl hsilent htable hfind howner hread
    rw [(fillRequest_some_isGuarded src ctx g slot key).does hl (congrArg not hsilent),
      Block.fillServe_answers hfind htable howner hread]
  case land =>
    intro s ctx g slot key version i record b hl hsilent hfind hfilling hgroup hslot hreplica hempty hwrite
    rw [(fillReply_isGuarded ctx g slot key version record).does hl (congrArg not hsilent),
      Block.fillLand_fills hfind hfilling hgroup hslot hempty hreplica hwrite]

end Sys2Proof.Machine
end

section
/-! SUPPORT. What a stopped module still does (R472): the clock ticks, its power inputs fall, and the sideband answers. -/

namespace Sys2Proof.Machine

/-- Block `b'` differs from `b` only in what may change once the module has stopped: the clock, the power inputs other than PG_AUX, and
what the sideband holds and answers (R472, R552). -/
structure Block.StaysStopped (b b' : Block) : Prop where
  stopped : b'.boot.stopped = true
  blk : b' = { b with clk := b'.clk, boot := b'.boot, out := b'.out }
  out : b'.out = { b.out with alert := b'.out.alert, sideband := b'.out.sideband }
  boot : b'.boot = { b.boot with pgMain := b'.boot.pgMain, pgStack := b'.boot.pgStack, pgOpt := b'.boot.pgOpt,
                                 sbAlert := b'.boot.sbAlert, sbMask := b'.boot.sbMask, sbAddr := b'.boot.sbAddr }

theorem BootSt.falls_stopped (p : BootSt) (pg : Nat) : (p.falls pg).stopped = p.stopped := by
  unfold BootSt.falls
  split
  · rfl
  · split <;> rfl

section
variable {b : Block} (h : b.boot.stopped = true)
include h

theorem Block.StaysStopped.refl : b.StaysStopped b := ⟨h, rfl, rfl, rfl⟩

theorem Block.StaysStopped.tick : b.StaysStopped b.tick := by
  unfold Block.tick
  split
  · exact ⟨h, rfl, rfl, rfl⟩
  · exact .refl h

/-- A power input that falls is lost, and nothing else follows. -/
theorem Block.StaysStopped.falls (pg : Nat) : b.StaysStopped { b with boot := b.boot.falls pg } := by
  unfold BootSt.falls
  split
  · exact ⟨h, rfl, rfl, rfl⟩
  · split <;> exact ⟨h, rfl, rfl, rfl⟩

theorem Block.StaysStopped.sideband (x : SbOp) : b.StaysStopped (b.sideband x) := by
  cases x with
  | read o => exact ⟨h, rfl, rfl, rfl⟩
  | write o v =>
    unfold Block.sideband
    dsimp only
    split
    · exact ⟨h, rfl, rfl, rfl⟩
    · split
      · exact ⟨h, rfl, rfl, rfl⟩
      · exact .refl h
  | setdasa a => exact ⟨h, rfl, rfl, rfl⟩
  | setaasa => exact ⟨h, rfl, rfl, rfl⟩

end

/-! ### Commands -/

section
variable {s t : State} (h : s.blk.boot.stopped = true)
include h

/-- The fall of an input other than PG_AUX. -/
theorem execPowerGoodFall_stopped {pg : Fin 4} (hpg : pg ≠ 0) (e : exec (.powerGoodFall pg) s = .next t) : s.blk.StaysStopped t.blk := by
  have hfalls : (s.blk.boot.falls pg).stopped = true := by rw [BootSt.falls_stopped, h]
  cases e
  simp only [if_neg hpg, if_pos hfalls]
  split
  · exact .refl h
  · exact .falls h pg

theorem execSidebandTransfer_stopped {x : SbOp} (e : exec (.sidebandTransfer x) s = .next t) : s.blk.StaysStopped t.blk := by
  cases e
  dsimp only
  split
  · exact .sideband h x
  · exact .refl h

/-- Every other command does nothing once the module has stopped: `State.run` lifts its meaning. -/
theorem exec_stopped {i : Instr} (hfall : ∀ pg, i ≠ .powerGoodFall pg) (hside : ∀ x, i ≠ .sidebandTransfer x) (e : exec i s = .next t) :
    t = s := by
  cases i
  case registerWrite off n v =>
    rcases Nat.lt_or_ge off 0x4000000 with hin | hout
    · rw [registerWrite_inside n v s hin, State.run_stopped h] at e
      exact (Host.Outcome.next.inj e).symm
    · rw [registerWrite_outside n v s hout] at e
      cases e
  case powerGoodFall pg => exact absurd rfl (hfall pg)
  case sidebandTransfer x => exact absurd rfl (hside x)
  all_goals
    cases e
    exact congrArg s.withBlk (if_pos h)

/-- A command of a stopped module, unless PG_AUX falls, leaves it stopped. -/
theorem exec_staysStopped {i : Instr} (haux : i ≠ .powerGoodFall 0) (e : exec i s = .next t) : s.blk.StaysStopped t.blk := by
  by_cases hfall : ∃ pg, i = .powerGoodFall pg
  · obtain ⟨pg, rfl⟩ := hfall
    exact execPowerGoodFall_stopped h (fun hpg => haux (hpg ▸ rfl)) e
  · by_cases hside : ∃ x, i = .sidebandTransfer x
    · obtain ⟨x, rfl⟩ := hside
      exact execSidebandTransfer_stopped h e
    · rw [exec_stopped h (fun pg hi => hfall ⟨pg, hi⟩) (fun x hi => hside ⟨x, hi⟩) e]
      exact .refl h

end

end Sys2Proof.Machine
end

section
/-! The obligation on a stopped module, settled. -/

namespace Sys2Proof.Machine

/-- Settles O41: a tick, the fall of an input other than PG_AUX and a sideband transfer are all that a stopped module still answers; every
other command is lifted by `State.run`, which does nothing once it has stopped. -/
theorem stoppedModuleStays : Obligations.StoppedModuleStays := by
  intro s t hstopped haux e
  suffices h : s.blk.StaysStopped t.blk from ⟨h.stopped, h.blk, h.out, h.boot⟩
  cases hq : s.pending with
  | nil =>
    rw [step_of_nil hq] at e
    cases e
    exact .tick hstopped
  | cons i rest =>
    rw [step_of_cons hq] at e
    exact exec_staysStopped (s := { s with pending := rest }) hstopped (fun hi => haux rest (hi ▸ hq)) e

end Sys2Proof.Machine
end

section
/-! SUPPORT. Writes of PERF_CTL (R518): counters set to 0 one by one. -/

namespace Sys2Proof.Machine

theorem perfCount_word (k : Nat) : Fld.PERF_CTR_COUNT.word k = k := Fld.word_one (by decide) (by decide) k

theorem perfCount_apart {j k : Nat} (h : j ≠ k) : Fld.PERF_CTR_COUNT.apart j .PERF_CTR_COUNT k := by
  refine .inl fun hkey => h ?_
  unfold RegId.key at hkey
  rw [perfCount_word, perfCount_word] at hkey
  exact Nat.add_left_cancel hkey

/-- Of counters set to 0 in turn, those of the list read 0 and the others hold. -/
theorem Block.rget_zeroCounters (l : List Nat) (b : Block) (k : Nat) :
    (l.foldl (fun b k => b.rset .PERF_CTR_COUNT k 0) b).rget .PERF_CTR_COUNT k = if k ∈ l then 0 else b.rget .PERF_CTR_COUNT k := by
  induction l generalizing b with
  | nil => simp
  | cons j l ih =>
    rw [List.foldl_cons, ih]
    by_cases hj : k = j
    · subst hj
      rw [Block.rget_rset_self b (by decide), Nat.zero_mod, ite_self, if_pos List.mem_cons_self]
    · rw [Block.rget_rset_ne b (by decide) (perfCount_apart (Ne.symm hj))]
      simp only [List.mem_cons, hj, false_or]

theorem Block.perfClear_count (b : Block) (v : Nat) (k : Fin 64) :
    (b.perfClear v).rget .PERF_CTR_COUNT k = if bitAt v k then 0 else b.rget .PERF_CTR_COUNT k := by
  unfold Block.perfClear bitAt
  rw [Block.rget_zeroCounters]
  simp only [setPositions_mem, k.isLt, true_and]

theorem Block.perfClear_only (b : Block) (v : Nat) : b.OnlyRegs [] (b.perfClear v) := by
  refine Block.OnlyRegs.foldl _ _ (fun k b hk => Block.sig_only (by decide) b ?_ 0) b
  rw [perfCount_word]
  exact Nat.lt_trans ((setPositions_mem 64 v k).1 hk).1 (by decide)

theorem Block.hostWrote_perfCount (b : Block) (k : Fin 64) : b.hostWrote.rget .PERF_CTR_COUNT k = b.rget .PERF_CTR_COUNT k :=
  Block.rget_count_ne b (by decide) (Fld.apart_of_reg (by decide) (by decide) (Fld.word_lt_64 _ k (by decide) (by decide)))

end Sys2Proof.Machine
end

section
/-! The obligation on PERF_CTL, settled. -/

namespace Sys2Proof.Machine

/-- Settles O56: PERF_CTL is a host write that sets the selected counters to 0, one by one. -/
theorem countersCleared : Obligations.CountersCleared := by
  intro v s hl hw
  refine ⟨_, (perfCtlClear_isHostWrite v).does s hl hw, fun k => ?_, ?_⟩
  · rw [State.withBlk_blk, Block.perfClear_count, Block.hostWrote_perfCount]
  · rw [State.withBlk_blk]
    exact (Block.hostWrote_only [] s.blk).trans (Block.perfClear_only s.blk.hostWrote v.toNat)

end Sys2Proof.Machine
end

section
/-! SUPPORT. What a module fault holds back (R501): the rows that start a command which waits, and the instructions of a kernel. -/

namespace Sys2Proof.Machine

/-- A meaning that leaves the block as it is leaves the state as it is, whether or not the module has stopped. -/
theorem State.run_idle {s : State} {f : Block → Block} (h : f s.blk = s.blk) : s.run f = .next s := by
  rw [State.run, h, ite_self]

/-! ### Commands that wait -/

/-- Command `id` waits at its engine after a module fault, and is none of the two that Ostler still serves. -/
structure Block.HeldByFault (b : Block) (id : Nat) (c : Cmd) : Prop where
  faulted : b.faulted = true
  found : b.findCmd id = some c
  waits : c.phase = .waiting
  unserved : ostlerServes c.opcode = false

/-- Meaning `f` leaves the block as it is while a module fault holds command `id`. -/
def KeepsHeld (id : Nat) (f : Block → Block) : Prop := ∀ (b : Block) (c : Cmd), b.HeldByFault id c → f b = b

theorem Block.HeldByFault.startable {b : Block} {id : Nat} {c : Cmd} (h : b.HeldByFault id c) (p : Params) : b.startable id p = none := by
  have hheld : ¬ (b.mayStart = true ∨ (b.faulted ∧ !b.boot.stopped ∧ ostlerServes c.opcode)) := by
    simp [Block.mayStart, h.faulted, h.unserved]
  unfold Block.startable
  rw [h.found]
  exact if_neg fun hstarts => hheld hstarts.2.2.1

theorem Block.HeldByFault.not_running {b : Block} {id : Nat} {c : Cmd} (h : b.HeldByFault id c) {q : Prop} :
    ¬ (c.phase = .running ∧ q) := fun hruns => by
  have hphase := h.waits.symm.trans hruns.1
  cases hphase

namespace KeepsHeld

section
variable (id : Nat) (p : Params) (ready : Cmd → Block → Bool) (go : Cmd → Block → Block)

theorem runCmd : KeepsHeld id (fun b => b.runCmd id p ready go) := by
  intro b c h
  simp only [Block.runCmd, h.startable p]

theorem tileCmd : KeepsHeld id (fun b => b.tileCmd id p go) := runCmd id p _ _

theorem ostlerCmd (m : Cmd → Act (Nat × Nat × Nat)) : KeepsHeld id (fun b => b.ostlerCmd id p m) := runCmd id p _ _

end

/-- A row that is not its packet's operation does nothing at all. -/
theorem ite {id : Nat} {q : Prop} [Decidable q] {f g : Block → Block} (hf : KeepsHeld id f) (hg : KeepsHeld id g) :
    KeepsHeld id (fun b => if q then f b else g b) := by
  intro b c h
  dsimp only
  rw [hf b c h, hg b c h, ite_self]

theorem rfl {id : Nat} : KeepsHeld id (fun b => b) := fun _ _ _ => Eq.refl _

theorem mbxAccess (id : Nat) (p : MbxAccessParams) (ok : Bool) (go : Nat → Block → Nat × Block) :
    KeepsHeld id (fun b => b.mbxAccess id p ok go) := ite (tileCmd _ _ _) rfl

theorem traceOp (id : Nat) (p : TraceParams) (ok : Bool) (go : Block → Block × Nat) : KeepsHeld id (fun b => b.traceOp id p ok go) :=
  runCmd _ _ _ _

theorem linkCmd (id : Nat) (p : LinkParams) (ok : Bool) (go : Block → Block) : KeepsHeld id (fun b => b.linkCmd id p ok go) :=
  runCmd _ _ _ _

end KeepsHeld

section
variable {i : Instr} {id : Nat} {c : Cmd} {s : State} (h : s.blk.HeldByFault id c)
include h

theorem KeepsHeld.exec {f : Block → Block} (hf : KeepsHeld id f) (hi : exec i s = s.run f) : exec i s = .next s :=
  hi.trans (State.run_idle (hf _ c h))

/-- FENCE and WAIT go on with their command once it runs, and start it as the others do. -/
theorem execFence_heldByFault (p : FenceParams) : execFence id p s = .next s := by
  refine State.run_idle ?_
  simp only [h.found, if_neg h.not_running]
  exact KeepsHeld.tileCmd _ _ _ _ c h

theorem execWait_heldByFault (p : WaitParams) : execWait id p s = .next s := by
  refine State.run_idle ?_
  simp only [h.found, if_neg h.not_running]
  exact KeepsHeld.tileCmd _ _ _ _ c h

/-- Every row that starts a command does nothing while a module fault holds the command. -/
theorem exec_heldByFault (hi : startOf i = some id) : exec i s = .next s := by
  cases i
  -- The other rows start no command.
  all_goals cases hi
  case fence p => exact execFence_heldByFault h p
  case wait p => exact execWait_heldByFault h p
  case load | store | matmul | vkern | accOpen | accClose | signal => exact KeepsHeld.exec h (.tileCmd _ _ _) rfl
  case mbxAccessLock | mbxAccessRelease | mbxAccessWrite | mbxAccessTake | mbxAccessAck | mbxAccessPeek =>
    exact KeepsHeld.exec h (.mbxAccess _ _ _ _) rfl
  case pageEditSet | pageEditTruncate | pageEditClear => exact KeepsHeld.exec h (.ite .rfl (.runCmd _ _ _ _)) rfl
  case contextCreate | configRead | errlogRead | tileRetire => exact KeepsHeld.exec h (.ostlerCmd _ _ _) rfl
  case traceStart | traceStop | traceTrigger | traceFlush => exact KeepsHeld.exec h (.traceOp _ _ _ _) rfl
  case linkRetrain | linkDown | linkUp | measure | forceB | returnA => exact KeepsHeld.exec h (.linkCmd _ _ _ _) rfl
  all_goals exact KeepsHeld.exec h (.runCmd _ _ _ _) rfl

end

/-! ### Kernels -/

section
variable {b : Block} (h : b.faulted = true)
include h

theorem Block.kernel_faulted (n : Nat) : b.kernel n = none := by
  unfold Block.kernel
  split
  · split
    · split
      · exact if_neg fun hruns => by simp [h] at hruns
      · rfl
    · rfl
  · rfl

theorem Block.vxRow_faulted (n : Nat) (op : BitVec 8) (f : VxFields) (stall : Nat) (body : VxBody) :
    b.vxRow n op f stall body = b := by
  unfold Block.vxRow
  rw [Block.kernel_faulted h]

end

theorem IsVx.faulted {i : Instr} {n : Fin 64} {op : BitVec 8} {f : VxFields} {stall : Nat} {body : VxBody}
    (hi : IsVx i n op f stall body) {s : State} (h : s.blk.faulted = true) : exec i s = .next s :=
  (hi s).trans (State.run_idle (Block.vxRow_faulted h _ _ _ _ _))

/-- No instruction of a kernel issues after a module fault. -/
theorem exec_vx_faulted {i : Instr} {n : Fin 64} {s : State} (hi : vxTileOf i = some n) (h : s.blk.faulted = true) :
    exec i s = .next s := by
  cases i
  -- The rows of other units name no tile of the vector engine.
  all_goals cases hi
  case halt f =>
    rw [halt_run]
    exact State.run_idle (by rw [Block.vxRow_faulted h, ite_self])
  all_goals exact IsVx.faulted (fun _ => rfl) h

end Sys2Proof.Machine
end

section
/-! The obligation on module faults, settled. -/

namespace Sys2Proof.Machine

/-- Settles O42: a row that starts a command finds none that it may start, and an instruction of a kernel finds no kernel that runs. -/
theorem moduleFaultStops : Obligations.ModuleFaultStops :=
  ⟨fun _ _ _ _ hi hfault hfound hwaits hunserved => exec_heldByFault ⟨hfault, hfound, hwaits, hunserved⟩ hi,
    fun _ _ _ hi hfault => exec_vx_faulted hi hfault⟩

end Sys2Proof.Machine
end

section
/-! SUPPORT. The Farrier's commands (R329, R340, R342, R344, R345, R347): each is the row of its engine, and its meaning goes, where nothing
refuses the command, the way that its shard, its list or its group leaves it. -/

namespace Sys2Proof.Machine

/-! ### The rows -/

theorem shardDefine_isEngineRow (id : Nat) (p : ShardParams) : IsEngineRow (.shardDefine id p) id (.shardDefine p) always2
    (fun c b => b.doShardDefine c p) := fun _ => rfl
theorem update_isEngineRow (id : Nat) (p : UpdateParams) : IsEngineRow (.update id p) id (.update p) Block.holdRoom
    (fun c b => b.doUpdate c p) := fun _ => rfl
theorem revert_isEngineRow (id : Nat) (p : RevertParams) (det : Fin 3) : IsEngineRow (.revert id p det) id (.revert p)
    (Block.revertReady p) (fun c b => b.doRevert c p det) := fun _ => rfl
theorem fetch_isEngineRow (id : Nat) (p : FetchParams) : IsEngineRow (.fetch id p) id (.fetch p) (Block.fetchReady p)
    (fun c b => b.startFetch c p) := fun _ => rfl
theorem normReduce_isEngineRow (id : Nat) (p : UpdateParams) : IsEngineRow (.normReduce id p) id (.normReduce p) collReady
    (fun c b => b.startNorm c p) := fun _ => rfl

section
variable {b b' : Block} {c : Cmd}

/-! ### SHARD_DEFINE -/

/-- An owned shard in range, mapped and without a seed, gets the header of version 0 (R329). -/
theorem Block.defineOwned_unseeded {p : ShardParams} (hseed : p.seed = false) (hrange : p.badOwned = false)
    (hmapped : b.mappedFor c.ctx p.baseVa ((p.depth + 1) * p.slotBytes) = true)
    (hheader : writeVa (c.req 0 0) ((⟨p, true, 0, 0⟩ : Shard).slotVa 0) (slotHeader 0 0 b.now 0 0) b = (.ok (), b')) :
    b.defineOwned c p = (b'.setShard c.ctx p.shard (some ⟨p, true, 0, 0⟩)).finish c.id 0 0 (p.slotBytes % 2 ^ 64) := by
  unfold Block.defineOwned
  simp only [hrange, hmapped, hseed, Bool.not_true, Bool.or_self, Bool.false_eq_true, if_false]
  exact Block.withAct_ok hheader _ _ _

section
variable {p : ShardParams} (hshard : p.shard ≤ 16383) (hidle : b.shardBusy c p.shard = false)
include hshard hidle

theorem Block.doShardDefine_removes (hundefine : p.undefine = true) (hdefined : (b.shard? c.ctx p.shard).isSome = true) :
    b.doShardDefine c p = (b.setShard c.ctx p.shard none).finish c.id 0 0 0 := by
  obtain ⟨x, hx⟩ := Option.isSome_iff_exists.1 hdefined
  unfold Block.doShardDefine
  rw [if_neg (by omega), if_neg (by simp [hidle]), if_pos hundefine, hx]

section
variable (hundefine : p.undefine = false) (hrange : p.bad = false)
include hundefine hrange

/-- A shard of this module alone is owned. -/
theorem Block.doShardDefine_local (hlocal : p.isLocal = true) : b.doShardDefine c p = b.defineOwned c p := by
  unfold Block.doShardDefine
  rw [if_neg (by omega), if_neg (by simp [hidle]), if_neg (by simp [hundefine]), if_neg (by simp [hrange]), if_pos hlocal]

section
variable {gs : GroupSt} (hmember : b.groupErr c.ctx p.group = none) (hgroup : b.group? p.group = some gs)
  (howner : p.owner < gs.ranks.length)
include hmember hgroup howner

/-- A shard of a group is owned by the member that OWNER names. -/
theorem Block.doShardDefine_owner (hself : gs.self = p.owner) : b.doShardDefine c p = b.defineOwned c p := by
  unfold Block.doShardDefine
  rw [if_neg (by omega), if_neg (by simp [hidle]), if_neg (by simp [hundefine]), if_neg (by simp [hrange]), hmember, hgroup]
  dsimp only
  rw [if_neg (Nat.not_le.2 howner), if_pos hself, ite_self]

/-- The other members only know the shard. -/
theorem Block.doShardDefine_other (hshared : p.isLocal = false) (hself : gs.self ≠ p.owner) : b.doShardDefine c p =
    (b.setShard c.ctx p.shard (some ⟨p, false, 0, 0⟩)).finish c.id 0 0 (p.slotBytes % 2 ^ 64) := by
  unfold Block.doShardDefine
  rw [if_neg (by omega), if_neg (by simp [hidle]), if_neg (by simp [hundefine]), if_neg (by simp [hrange]),
    if_neg (by simp [hshared]), hmember, hgroup]
  dsimp only
  rw [if_neg (Nat.not_le.2 howner), if_neg hself]

end

end

end

/-! ### UPDATE -/

/-- An UPDATE in range, whose list is read and names owned shards and whose tag is not fenced, is held (R342, R343). -/
theorem Block.doUpdate_holds {p : UpdateParams} {bs : List Byte} (hsome : p.count ≠ 0) (hfew : p.count ≤ 256) (hclip : p.clip ≤ 2)
    (hgroup : p.waitTag = true → b.groupErr c.ctx p.group = none)
    (hlist : readVa (c.req 0 0) p.listVa (16 * p.count) b = (.ok bs, b')) (hentries : b'.listErr c.ctx true (updEntries bs) = none)
    (hopen : b'.updFenced p = false) : b.doUpdate c p = Block.farrierRegs
      { b'.setRunning c.id with farrier := { b'.farrier with held := b'.farrier.held ++ [⟨c.id, c.ctx, updEntries bs, b'.clk.t⟩] } } := by
  have hrange : ¬ (p.count = 0 ∨ 256 < p.count ∨ 2 < p.clip) := by omega
  have hmember : (if p.waitTag then b.groupErr c.ctx p.group else none) = none := by
    split
    · next hwait => exact hgroup hwait
    · rfl
  unfold Block.doUpdate
  rw [if_neg hrange, hmember]
  dsimp only
  rw [Block.withAct_ok hlist]
  rw [hentries, hopen]
  rfl

/-! ### REVERT -/

/-- A REVERT to a retained version of an owned shard commits its copy, unless a second detection meets a chunk (R340, R357). -/
theorem Block.doRevert_commits {p : RevertParams} {x : Shard} {step det : Nat} (hshard : b.shard? c.ctx p.shard = some x)
    (howned : x.owned = true) (hretained : (x.version + 2 ^ 32 - p.version % 2 ^ 32) % 2 ^ 32 < x.p.depth)
    (hcopy : revertCopy c x p.version b.now b = (.ok step, b')) (hdet : det ≠ 2) : b.doRevert c p det =
      (((((if det = 1 then b'.chunkRerun c else b').setShard c.ctx p.shard (some { x with version := x.next, step := step })).monAfter
        c.ctx [p.shard] []).1.count .FARRIER_COMMITS_COUNT 0 1).finish c.id 0 0 (halves x.next p.version)).serveFetches c.ctx [p.shard] := by
  unfold Block.doRevert
  rw [hshard]
  dsimp only
  rw [if_neg (by simp [howned]), if_neg (Nat.not_le.2 hretained), Block.withAct_ok hcopy, if_neg hdet]

/-! ### FETCH -/

section
variable {p : FetchParams} {x : Shard} (hshard : b.shard? c.ctx p.shard = some x) (hparts : x.badParts p.parts = false)
  (hhint : p.hint = 3 → p.useCount ≠ 0)
include hshard hparts hhint

theorem Block.startFetch_remote (hother : x.owned = false) : b.startFetch c p = b.fetchRemote c p x := by
  unfold Block.startFetch
  rw [hshard]
  dsimp only
  rw [if_neg (by simpa [hparts] using hhint), if_neg (by simp [hother])]

theorem Block.startFetch_local (howned : x.owned = true) : b.startFetch c p = b.fetchLocal c p x := by
  unfold Block.startFetch
  rw [hshard]
  dsimp only
  rw [if_neg (by simpa [hparts] using hhint), if_pos howned]

end

theorem Block.fetchLocal_retained {p : FetchParams} {x : Shard} (h : b.retained c.ctx p.shard x (x.named p.version) = true) :
    b.fetchLocal c p x = b.fetchHere c p x (x.named p.version) := by
  unfold Block.fetchLocal
  rw [if_pos h]

/-- A FETCH of a later version waits for its commit, if its packet lets it (R345). -/
theorem Block.fetchLocal_waits {p : FetchParams} {x : Shard} (hgone : b.retained c.ctx p.shard x (x.named p.version) = false)
    (hwait : p.wait = true) (hlater : precedes 32 x.version (x.named p.version) = true) : b.fetchLocal c p x =
      { b.setRunning c.id with
        farrier := { b.farrier with fetches := b.farrier.fetches ++ [⟨some c.id, 0, 0, c.ctx, p.shard, p.parts, x.named p.version⟩] } } := by
  unfold Block.fetchLocal
  rw [if_neg (by simp [hgone]), if_pos (by simp [hwait, hlater])]

/-! ### NORM_REDUCE -/

theorem Block.startNorm_enters {p : UpdateParams} {gs : GroupSt} (hsome : p.count ≠ 0) (hfew : p.count ≤ 256)
    (henabled : b.flag .FARRIER_CLIP_CFG_ENABLE p.clipSlot = true) (hctx : b.rget .FARRIER_CLIP_CFG_CTX p.clipSlot = c.ctx)
    (henters : b.CollEnters c p.group p.epoch p.bucket gs) : b.startNorm c p = (b.unhold c.id).normGo c p gs := by
  have hslot : ¬ (p.count = 0 ∨ 256 < p.count ∨ (!b.flag .FARRIER_CLIP_CFG_ENABLE p.clipSlot) = true ∨
      b.rget .FARRIER_CLIP_CFG_CTX p.clipSlot ≠ c.ctx) := by
    simp [hsome, hfew, henabled, hctx]
  unfold Block.startNorm
  rw [if_neg hslot, Block.collStart_enters henters]

end

end Sys2Proof.Machine
end

section
/-! The obligation on the Farrier's commands, settled. -/

namespace Sys2Proof.Machine

/-- Settles O14: each command is its engine's row, and takes the branch that its hypotheses leave. -/
theorem farrierCommandResults : Obligations.FarrierCommandResults := by
  refine ⟨?shard, ?update, ?revert, ?fetch, ?norm⟩
  case shard =>
    intro s id p c hl h hshard b hidle
    rw [(shardDefine_isEngineRow id p).does hl h rfl]
    refine ⟨fun hundefine hdefined => ?removes, fun b' hundefine hrange hseed howned hown hmapped hheader => ?owned,
      fun gs hundefine hrange hshared hmember hgroup howner hself => ?other⟩
    case removes => rw [Block.doShardDefine_removes hshard hidle hundefine hdefined]
    case owned =>
      have hdefines : b.doShardDefine c p = b.defineOwned c p := by
        rcases hown with hlocal | ⟨gs, hmember, hgroup, hself, howner⟩
        · exact Block.doShardDefine_local hshard hidle hundefine hrange hlocal
        · exact Block.doShardDefine_owner hshard hidle hundefine hrange hmember hgroup howner hself
      rw [hdefines, Block.defineOwned_unseeded hseed howned hmapped hheader]
    case other => rw [Block.doShardDefine_other hshard hidle hundefine hrange hmember hgroup howner hshared hself]
  case update =>
    intro s id p c bs b hl h hroom hsome hfew hclip hgroup hlist hentries hopen
    rw [(update_isEngineRow id p).does hl h (decide_eq_true hroom),
      Block.doUpdate_holds hsome hfew hclip hgroup hlist hentries hopen]
  case revert =>
    intro s id p det c x step b hl h hready hshard howned hretained hcopy hdet b1 b2
    rw [(revert_isEngineRow id p det).does hl h hready, Block.doRevert_commits hshard howned hretained hcopy hdet]
  case fetch =>
    intro s id p c x hl h hready b hshard hparts hhint
    rw [(fetch_isEngineRow id p).does hl h hready]
    refine ⟨fun hother => ?remote, fun howned hretained => ?here, fun howned hgone hwait hlater => ?waits⟩
    case remote => rw [Block.startFetch_remote hshard hparts hhint hother]
    case here => rw [Block.startFetch_local hshard hparts hhint howned, Block.fetchLocal_retained hretained]
    case waits => rw [Block.startFetch_local hshard hparts hhint howned, Block.fetchLocal_waits hgone hwait hlater]
  case norm =>
    intro s id p c gs hl h hready hsome hfew b henabled hctx henters
    rw [(normReduce_isEngineRow id p).does hl h hready, Block.startNorm_enters hsome hfew henabled hctx henters]

end Sys2Proof.Machine
end

section
/-! SUPPORT. The Farrier's own events (R341, R342, R345, R348 to R350, R352): the start of a held UPDATE, the check of a lagged commit, the
ends of what has waited too long, and requests of FETCH. That the time-outs first advance the clock is log entry 11's, and that a FETCH's
time runs from its start log entry 49's. -/

namespace Sys2Proof.Machine

/-! ### The start of an UPDATE -/

/-- The block in which held UPDATE `h`, command `c`, has left the Farrier's queue and has its start time (R342). -/
def Block.unheldUpdate (b : Block) (h : HeldUpdate) (c : Cmd) : Block :=
  let b' := Block.farrierRegs { b with farrier :=
    { b.farrier with held := b.farrier.held.filter (fun x => !decide (x.cmd = h.cmd)) } }
  b'.updCmd c.id (fun x => { x with startT := b'.clk.t })

section
variable {b : Block} {h : HeldUpdate} {c : Cmd} {p : UpdateParams} (hfound : b.findCmd h.cmd = some c) (hparams : c.params = .update p)
include hfound hparams

/-- Without a clip condition the factor is 1, and the UPDATE commits (R348). -/
theorem Block.startUpdate_unclipped {lag : Bool} (hclip : (b.unheldUpdate h c).clipNorm c.ctx p = some (none, lag)) (det : Nat) :
    b.startUpdate h det =
      (b.unheldUpdate h c).updRun c p h.entries oneF32 det (fun w b => b.updCommit c p h.entries oneF32 w false) := by
  unfold Block.unheldUpdate at hclip ⊢
  unfold Block.startUpdate
  simp only [hfound, hparams, hclip]

section
variable {n : Nat} (hfinite : specialF32 n = false)
include hfinite

/-- With the norm of its own step the UPDATE commits (R348, R349). -/
theorem Block.startUpdate_clipped (hclip : (b.unheldUpdate h c).clipNorm c.ctx p = some (some n, false)) (det : Nat) :
    b.startUpdate h det = (b.unheldUpdate h c).updRun c p h.entries ((b.unheldUpdate h c).clipFactor p.clipSlot n) det
      (fun w b' => b'.updCommit c p h.entries ((b.unheldUpdate h c).clipFactor p.clipSlot n) w false) := by
  unfold Block.unheldUpdate at hclip ⊢
  unfold Block.startUpdate
  simp only [hfound, hparams, hclip, hfinite, Bool.false_eq_true, if_false]

/-- With the norm of the step before, its commit lags (R349, R350). -/
theorem Block.startUpdate_lagged (hclip : (b.unheldUpdate h c).clipNorm c.ctx p = some (some n, true)) (det : Nat) :
    b.startUpdate h det = (b.unheldUpdate h c).updRun c p h.entries ((b.unheldUpdate h c).clipFactor p.clipSlot n) det
      (fun w b' => { b' with farrier := { b'.farrier with lagged := b'.farrier.lagged ++
        [⟨c.id, c.ctx, h.entries, (b.unheldUpdate h c).clipFactor p.clipSlot n, w, b'.clk.t⟩] } }) := by
  unfold Block.unheldUpdate at hclip ⊢
  unfold Block.startUpdate
  simp only [hfound, hparams, hclip, hfinite, Bool.false_eq_true, if_false, if_true]

end

end

/-- A lagged commit whose norm keeps the limit commits what it has computed (R350). -/
theorem Block.lagCheck_commits {b : Block} {g : Lagged} {c : Cmd} {p : UpdateParams} {n : Nat} (hfound : b.findCmd g.cmd = some c)
    (hparams : c.params = .update p) (hnorm : b.normOf c.ctx p.clipSlot p.cstep = some n) :
    let b' : Block := { b with farrier := { b.farrier with lagged := b.farrier.lagged.filter (fun x => !decide (x.cmd = g.cmd)) } }
    leF32 n (b'.lagLimit p.clipSlot) = true → ∀ det, b.lagCheck g det = b'.updCommit c p g.entries g.factor g.done false := by
  intro b' hlimit det
  unfold Block.lagCheck
  simp only [hfound, hparams, hnorm]
  exact if_pos hlimit

/-! ### The events -/

section
variable {s : State} (hl : s.live)
include hl

/-- The earliest UPDATE that is ready starts (R342). -/
theorem execUpdateStart_next {h : HeldUpdate} (hfree : s.blk.mayStart = true) (hnext : s.blk.nextUpdate = some h) (det : Fin 3) :
    execUpdateStart h.cmd det s = .next (s.withBlk (s.blk.startUpdate h det)) := by
  rw [execUpdateStart, State.run_live hl]
  simp only [hnext, hfree, decide_true, Bool.and_self, if_true]

theorem execLaggedPostcheck_lagged {id : Nat} {g : Lagged} (hfree : s.blk.mayStart = true)
    (hlagged : s.blk.farrier.lagged.find? (fun g => decide (g.cmd = id)) = some g) (det : Fin 3) :
    execLaggedPostcheck id det s = .next (s.withBlk (s.blk.lagCheck g det)) := by
  rw [execLaggedPostcheck, State.run_live hl]
  simp only [hlagged, if_pos hfree]

/-- An UPDATE that has waited on its clip slot for CLIP_TIMEOUT_MS ends (R352). -/
theorem execClipTimeout_waits {id t : Nat} (hwaits : s.blk.clipWait id = some t) :
    let b := s.blk.advanceTo (t + s.blk.rget .FARRIER_CFG_CLIP_TIMEOUT_MS * msec)
    execClipTimeout id s = .next (s.withBlk ((Block.farrierRegs { b with
      farrier := { b.farrier with held := b.farrier.held.filter (fun h => !decide (h.cmd = id))
                                  lagged := b.farrier.lagged.filter (fun h => !decide (h.cmd = id)) } }).finish id 0x3006 0 0)) := by
  rw [execClipTimeout, State.run_live hl]
  simp only [hwaits]

/-- A FETCH that waits ends at TIMEOUT_US (R345). -/
theorem execFetchTimeout_waits {id : Nat} {c : Cmd} {p : FetchParams} (hfound : s.blk.findCmd id = some c) (hparams : c.params = .fetch p)
    (hruns : c.phase = .running) (hwait : p.wait = true) :
    let b := s.blk.advanceTo (c.startT + p.timeoutUs * usec)
    execFetchTimeout id s = .next (s.withBlk (Block.finish { b with
      farrier := { b.farrier with fetches := b.farrier.fetches.filter (fun x => !decide (x.cmd = some id)) } } id 0x3004 0 0)) := by
  rw [execFetchTimeout, State.run_live hl]
  simp only [hfound, hparams, if_pos (And.intro hruns hwait)]

end

/-! ### Requests of other members -/

theorem fetchRequest_isGuarded (src ctx tag shard parts version : Nat) (wait : Bool) :
    IsGuarded (.fetchRequest src ctx tag shard parts version wait) (fun b => !b.net.silent)
      (fun b => b.fetchAsked src ctx tag shard parts version wait) := .of_unless fun _ => rfl

section
variable {b : Block} {ctx shard parts version : Nat} {x : Shard} (hshard : b.shard? ctx shard = some x) (howned : x.owned = true)
  (hparts : x.badParts parts = false)
include hshard howned hparts

/-- The owner serves a version that it retains (R344). -/
theorem Block.fetchAsked_serves (hretained : b.retained ctx shard x (x.named version) = true) (src tag : Nat) (wait : Bool) :
    b.fetchAsked src ctx tag shard parts version wait = b.fetchServe src tag ctx parts x (x.named version) := by
  unfold Block.fetchAsked
  simp only [hshard, howned, hparts, hretained, Bool.not_true, Bool.false_eq_true, if_false, if_true]

/-- A request of a later version waits for its commit (R345). -/
theorem Block.fetchAsked_waits (hgone : b.retained ctx shard x (x.named version) = false)
    (hlater : precedes 32 x.version (x.named version) = true) (src tag : Nat) :
    b.fetchAsked src ctx tag shard parts version true = { b with farrier :=
      { b.farrier with fetches := b.farrier.fetches ++ [⟨none, src, tag, ctx, shard, parts, x.named version⟩] } } := by
  unfold Block.fetchAsked
  simp only [hshard, howned, hparts, hgone, hlater, Bool.not_true, Bool.false_eq_true, Bool.and_self, if_false, if_true]

end

end Sys2Proof.Machine
end

section
/-! The obligation on the Farrier's own events, settled. -/

namespace Sys2Proof.Machine

/-- Settles O15: each event acts where its condition holds, and takes the branch that its hypotheses leave. That the time-outs first advance
the clock is log entry 11's, and that a FETCH's time runs from its start log entry 49's. -/
theorem farrierEventResults : Obligations.FarrierEventResults := by
  refine ⟨?start, ?lagged, fun s id t hl hwaits => execClipTimeout_waits hl hwaits,
    fun s id c p hl hfound hparams hruns hwait => execFetchTimeout_waits hl hfound hparams hruns hwait, ?request⟩
  case start =>
    intro s det h c p hl hfree hnext hfound hparams f b b1
    have hstarts : exec (.updateStart h.cmd det) s = .next (s.withBlk (s.blk.startUpdate h det)) := execUpdateStart_next hl hfree hnext det
    rw [hstarts]
    exact ⟨fun lag hclip => by rw [Block.startUpdate_unclipped hfound hparams hclip]; rfl,
      fun n hclip hfinite => by rw [Block.startUpdate_clipped hfound hparams hfinite hclip]; rfl,
      fun n hclip hfinite => by rw [Block.startUpdate_lagged hfound hparams hfinite hclip]; rfl⟩
  case lagged =>
    intro s id det g c p n hl hfree hlagged hfound hparams hnorm f b hlimit
    rw [← Block.lagCheck_commits hfound hparams hnorm hlimit det]
    exact execLaggedPostcheck_lagged hl hfree hlagged det
  case request =>
    intro s src ctx tag shard parts version wait x hl hsilent hshard howned hparts
    rw [(fetchRequest_isGuarded src ctx tag shard parts version wait).does hl (congrArg not hsilent)]
    refine ⟨fun hretained => ?serves, fun hgone hwait hlater => ?waits⟩
    case serves => rw [Block.fetchAsked_serves hshard howned hparts hretained]
    case waits => rw [hwait, Block.fetchAsked_waits hshard howned hparts hgone hlater]

end Sys2Proof.Machine
end

section
/-! SUPPORT. GROUP_DEFINE and BUCKET_CANCEL (R361, R362, R389): each is the row of its engine, and goes, where nothing refuses it, the way
that the group's entry and its members leave it. -/

namespace Sys2Proof.Machine

/-! ### The rows -/

theorem groupDefine_isEngineRow (id : Nat) (p : GroupParams) : IsEngineRow (.groupDefine id p) id (.groupDefine p) always2
    (fun c b => b.doGroupDefine c p) := fun _ => rfl
theorem bucketCancel_isEngineRow (id : Nat) (p : CancelParams) : IsEngineRow (.bucketCancel id p) id (.bucketCancel p) always2
    (fun c b => b.doCancel c p) := fun _ => rfl

section
variable {b b' : Block} {c : Cmd}

/-! ### GROUP_DEFINE -/

theorem Block.doGroupDefine_removes {p : GroupParams} (hundefine : p.undefine = true) (hmine : b.groupErr c.ctx p.group = none)
    (hidle : b.groupBusy p.group = false) : b.doGroupDefine c p = (b.undefineGroup p.group).finish c.id 0 0 0 := by
  unfold Block.doGroupDefine
  rw [if_pos hundefine, hmine]
  exact if_neg (by simp [hidle])

theorem Block.doGroupDefine_reads {p : GroupParams} {bs : List Byte} (hdefine : p.undefine = false) (hsome : p.members ≠ 0)
    (hfew : p.members ≤ 16384) (hlist : readVa (c.req 0 0) p.listVa (2 * p.members) b = (.ok bs, b')) :
    b.doGroupDefine c p = b'.defineGroup c p ((List.range p.members).map (fun i => field bs (2 * i) 2)) := by
  unfold Block.doGroupDefine
  rw [if_neg (by simp [hdefine]), if_neg (by omega), Block.withAct_ok hlist]

/-- Entry `slot` of RELAY_GROUP takes the definition of group `g` for a context: the group's own entry, if the group is the context's, or
the first free one (R361). -/
def Block.TakesGroup (b : Block) (ctx g slot : Nat) : Prop :=
  b.groupSlot g = some slot ∧ (∀ x, b.group? g = some x → x.ctx = ctx) ∨
    b.groupSlot g = none ∧ b.group? g = none ∧
      (List.range 64).find? (fun i => decide (Sparse.get (always none) b.relay.groups i = none)) = some slot

/-- A group of different ranks, this module among them, is defined in the entry that takes it (R361, R362). -/
theorem Block.defineGroup_defines {p : GroupParams} {ranks : List Nat} {slot member : Nat} (hslot : b.TakesGroup c.ctx p.group slot)
    (hself : ranks.findIdx? (fun r => decide (r = b.rank)) = some member) (hdistinct : ranks.Nodup) (hranks : ∀ r ∈ ranks, r < 2 ^ 14)
    (hidle : b.groupBusy p.group = false) : b.defineGroup c p ranks =
      (((((if (b.group? p.group).isSome then b.sbDropGroup p.group false else b).setGroupSlot slot
        (some ⟨p.group, c.ctx, p.epoch, ranks, member⟩)).rset .RELAY_GROUP_STATE slot 0).setEpoch p.group p.epoch).finish c.id 0 0
        (halves member ranks.length)) := by
  have haccepts : ¬ (!decide ranks.Nodup || ranks.any (fun r => decide (2 ^ 14 ≤ r)) || false) = true := by
    simpa [hdistinct] using hranks
  have hfree : ¬ b.groupBusy p.group = true := by simp [hidle]
  unfold Block.defineGroup
  rcases hslot with ⟨hentry, hctx⟩ | ⟨hentry, hnone, hnext⟩
  · cases hgroup : b.group? p.group with
    | none => simp only [hentry, hself, if_neg haccepts, if_neg hfree]
    | some x => simp only [hentry, hself, hctx x hgroup, ne_eq, not_true, decide_false, if_neg haccepts, if_neg hfree]
  · simp only [hentry, hnone, hnext, hself, if_neg haccepts, if_neg hfree]

/-! ### BUCKET_CANCEL -/

section
variable {p : CancelParams} {gs : GroupSt} (hmine : b.groupErr c.ctx p.group = none) (hgroup : b.group? p.group = some gs)
  (hroom : b.relay.cancels.length < 1024)
include hmine hgroup hroom

/-- A cancel that every other member can be told waits for their acknowledgements (R389, R390). -/
theorem Block.doCancel_tells (hothers : gs.ranks.filter (fun x => !decide (x = b.rank)) ≠ []) (htold : (b.cancelTold c p gs).2.2 = true) :
    b.doCancel c p = (b.cancelTold c p gs).2.1 := by
  unfold Block.doCancel
  rw [hmine, hgroup]
  dsimp only
  rw [if_neg (Nat.not_le.2 hroom), if_neg (by simp [htold]), if_neg hothers]

/-- A cancel with nobody else to tell completes at once. -/
theorem Block.doCancel_alone (hothers : gs.ranks.filter (fun x => !decide (x = b.rank)) = []) : b.doCancel c p =
    (b.cancelTold c p gs).2.1.finish c.id 0 0 (halves (b.cancelTold c p gs).1 0) := by
  have htold : (b.cancelTold c p gs).2.2 = true := by
    unfold Block.cancelTold
    simp only [hothers, Block.tellAll, List.foldl_nil]
  unfold Block.doCancel
  rw [hmine, hgroup]
  dsimp only
  rw [if_neg (Nat.not_le.2 hroom), if_neg (by simp [htold]), if_pos hothers]

end

end

end Sys2Proof.Machine
end

section
/-! The obligation on GROUP_DEFINE and BUCKET_CANCEL, settled. -/

namespace Sys2Proof.Machine

/-- Settles O16: each command is its engine's row, and takes the branch that its hypotheses leave. -/
theorem relayGroupResults : Obligations.RelayGroupResults := by
  refine ⟨?group, ?cancel⟩
  case group =>
    intro s id p c hl h b
    rw [(groupDefine_isEngineRow id p).does hl h rfl]
    refine ⟨fun hundefine hmine hidle => ?removes,
      fun bs b' slot member hdefine hsome hfew hlist hdistinct hranks hself hslot hidle => ?defines⟩
    case removes => rw [Block.doGroupDefine_removes hundefine hmine hidle]
    case defines =>
      rw [Block.doGroupDefine_reads hdefine hsome hfew hlist, Block.defineGroup_defines hslot hself hdistinct hranks hidle]
  case cancel =>
    intro s id p c gs hl h b hmine hgroup hroom r
    rw [(bucketCancel_isEngineRow id p).does hl h rfl]
    exact ⟨fun hothers htold => by rw [Block.doCancel_tells hmine hgroup hroom hothers htold],
      fun hothers => by rw [Block.doCancel_alone hmine hgroup hroom hothers]⟩

end Sys2Proof.Machine
end

section
/-! SUPPORT. The Relay's collectives (R371, R373, R382, R383, R384, R386): each is the row of its engine, and one that enters flight goes on
with its group. -/

namespace Sys2Proof.Machine

/-! ### The rows -/

theorem reduction_isEngineRow (id : Nat) (p : CollParams) (scatter : Bool) :
    IsEngineRow (if scatter then .reduceScatter id p else .allReduce id p) id (if scatter then .reduceScatter p else .allReduce p)
      collReady (fun c b => b.startRed c p scatter) := by
  cases scatter
  · exact fun _ => rfl
  · exact fun _ => rfl
theorem allGather_isEngineRow (id : Nat) (p : CollParams) : IsEngineRow (.allGather id p) id (.allGather p) collReady
    (fun c b => b.startGather c p) := fun _ => rfl
theorem broadcast_isEngineRow (id : Nat) (p : CollParams) : IsEngineRow (.broadcast id p) id (.broadcast p) collReady
    (fun c b => b.startBcast c p) := fun _ => rfl
theorem allToAllV_isEngineRow (id : Nat) (p : A2aParams) : IsEngineRow (.allToAllV id p) id (.allToAllV p) collReady
    (fun c b => b.startA2a c p) := fun _ => rfl
theorem permute_isEngineRow (id : Nat) (p : PermuteParams) : IsEngineRow (.permute id p) id (.permute p) collReady
    (fun c b => b.startPermute c p) := fun _ => rfl

section
variable {b b' : Block} {c : Cmd} {gs : GroupSt}

/-! ### Reductions -/

/-- A reduction in range goes on with its group: it enters flight at pass 0, and is open for a later pass (R373). -/
theorem Block.startRed_goes {p : CollParams} {scatter : Bool} (hrange : p.badRed scatter = false)
    (henters : p.pass = 0 → b.CollEnters c p.group p.epoch p.bucket gs) (hopen : p.pass ≠ 0 → b.CollOpen c p.group p.epoch p.bucket gs) :
    b.startRed c p scatter = (b.unhold c.id).redGo c p scatter gs := by
  unfold Block.startRed
  rw [if_neg (by simp [hrange])]
  by_cases hpass : p.pass = 0
  · rw [decide_eq_false (not_not_intro hpass), Block.collStart_enters (henters hpass)]
  · rw [decide_eq_true hpass, Block.collStart_open (hopen hpass)]

theorem Block.redGo_enters {p : CollParams} {scatter : Bool}
    (h : b.redEnter c p scatter gs (b.redAlgo p scatter gs.ranks.length) = some b') :
    b.redGo c p scatter gs = b'.redRun c p scatter gs (b.redAlgo p scatter gs.ranks.length) := by
  unfold Block.redGo
  simp only [h]

/-! ### Gathers and broadcasts -/

section
variable {p : CollParams} (hrange : badGather p = false) (henters : b.CollEnters c p.group p.epoch p.bucket gs)
include hrange henters

theorem Block.startGather_enters {va : Nat} (hsrc : (b.unhold c.id).gatherSrc c p = .ok va) :
    b.startGather c p = (b.unhold c.id).gatherRun c p gs va := by
  unfold Block.startGather
  rw [if_neg (by simp [hrange]), Block.collStart_enters henters, Block.gatherGo, hsrc]

theorem Block.startBcast_enters (hroot : p.root < gs.ranks.length) : b.startBcast c p = (b.unhold c.id).bcastRun c p gs := by
  unfold Block.startBcast
  rw [if_neg (by simp [hrange]), Block.collStart_enters henters, Block.bcastGo, if_neg (Nat.not_le.2 hroot)]

end

/-! ### Exchanges with a list -/

/-- No entry of a list breaks a rule that `bad` states. -/
theorem not_any_of_forall {α : Type} {l : List α} {bad : α → Bool} (h : ∀ x ∈ l, bad x = false) : ¬ l.any bad = true := by
  simpa using h

theorem Block.startA2a_enters {p : A2aParams} {bs : List Byte} (henters : b.CollEnters c p.group p.epoch p.bucket gs)
    (hlist : readVa (c.req 0 0) p.sendCountsVa (8 * gs.ranks.length) (b.unhold c.id) = (.ok bs, b'))
    (hcounts : ∀ k ∈ a2aCounts gs.ranks.length bs, k ≤ 67108864) : b.startA2a c p = b'.a2aRun c p gs bs := by
  have hfew := not_any_of_forall fun k hk => decide_eq_false (Nat.not_lt.2 (hcounts k hk))
  unfold Block.startA2a Block.a2aGo
  rw [Block.collStart_enters henters]
  dsimp only
  rw [Block.withAct_ok hlist, if_neg hfew]

/-- A PERMUTE of the next epoch, in a group that no entry of the Stud Book names, begins its moves (R386, R535). -/
theorem Block.startPermute_enters {p : PermuteParams} {bs : List Byte} (hsome : p.moves ≠ 0) (hfew : p.moves ≤ 1048576)
    (henters : b.CollEnters c p.group p.epoch 0xFFFF gs) (hepoch : p.epoch = (gs.epoch + 1) % 256)
    (hbook : (b.unhold c.id).sbWhere (fun e => e.ofGroup p.group) = [])
    (hlist : readVa (c.req 0 0) p.movesVa (32 * p.moves) (b.unhold c.id) = (.ok bs, b'))
    (hmoves : ∀ m ∈ movesOf bs, m.bad gs.ranks.length = false) : b.startPermute c p = b'.permuteRun c p gs bs := by
  unfold Block.startPermute Block.permuteGo
  rw [if_neg (by omega), Block.collStart_enters henters]
  rw [if_neg (not_not_intro hepoch), if_neg (not_not_intro hbook), Block.withAct_ok hlist, if_neg (not_any_of_forall hmoves)]

end

end Sys2Proof.Machine
end

section
/-! The obligation on the Relay's collectives, settled. -/

namespace Sys2Proof.Machine

/-- Settles O17: each collective is its engine's row, and nothing keeps it from entering flight. -/
theorem collectiveResults : Obligations.CollectiveResults := by
  refine ⟨?reduction, ?gather, ?broadcast, ?exchange, ?permute⟩
  case reduction =>
    intro s id p scatter c gs b' hl h hready hrange b algo henters hopen hgoes
    rw [(reduction_isEngineRow id p scatter).does hl h hready, Block.startRed_goes hrange henters hopen, Block.redGo_enters hgoes]
  case gather =>
    intro s id p c gs va hl h hready hrange henters hsrc
    rw [(allGather_isEngineRow id p).does hl h hready, Block.startGather_enters hrange henters hsrc]
  case broadcast =>
    intro s id p c gs hl h hready hrange henters hroot
    rw [(broadcast_isEngineRow id p).does hl h hready, Block.startBcast_enters hrange henters hroot]
  case exchange =>
    intro s id p c gs bs b hl h hready henters hlist hcounts
    rw [(allToAllV_isEngineRow id p).does hl h hready, Block.startA2a_enters henters hlist hcounts]
  case permute =>
    intro s id p c gs bs b hl h hready hsome hfew henters hepoch hbook hlist hmoves
    rw [(permute_isEngineRow id p).does hl h hready, Block.startPermute_enters hsome hfew henters hepoch hbook hlist hmoves]

end Sys2Proof.Machine
end

section
/-! SUPPORT. What arrives at the Relay (R368 to R370, R386, R389, R390, R392), which does nothing once the engines have fallen silent (R501).
That a refused credit's retry first advances the clock is log entry 11's, and what it sends then log entry 44's. -/

namespace Sys2Proof.Machine

/-! ### The rows -/

theorem relayUnitArrival_isGuarded (src tag leg index : Nat) (last : Bool) (body : List Byte) (det : Bool) :
    IsGuarded (.relayUnitArrival src tag leg index last body det) (fun b => !b.net.silent)
      (fun b => (b.unitArrives src tag leg index last body det).beaterRegs) := .of_unless fun _ => rfl
theorem creditGrant_isGuarded (src tag digest units : Nat) : IsGuarded (.creditGrant src tag digest units) (fun b => !b.net.silent)
    (fun b => (b.creditArrives src tag digest units).beaterRegs) := .of_unless fun _ => rfl
theorem cancelArrival_isGuarded (group epoch bucket : Nat) (all : Bool) : IsGuarded (.cancelArrival group epoch bucket all)
    (fun b => !b.net.silent) (fun b => (b.cancelHere group epoch (if all then none else some bucket)).2) := .of_unless fun _ => rfl

/-! ### Units and credits -/

section
variable {b : Block} {src tag : Nat}

/-- The unit that comes next in its member's stream, under a credit, is taken, or discarded for a detection (R368, R392). -/
theorem Block.unitArrives_next {leg index i : Nat} {x : Coll} (hcoll : b.coll tag = some x)
    (hmember : x.ranks.findIdx? (fun r => decide (r = src)) = some i) (hnext : index = Sparse.get (always 0) x.units (streamKey leg i))
    (hcredit : Sparse.get (always 0) x.grants i ≠ 0) (hopen : x.got leg i = false) (last : Bool) (body : List Byte) (det : Bool) :
    b.unitArrives src tag leg index last body det =
      if det then b.unitDetected x i (streamKey leg i) index leg else b.unitTaken x i (streamKey leg i) leg last body := by
  have hdue : ¬ (index ≠ Sparse.get (always 0) x.units (streamKey leg i) ∨ Sparse.get (always 0) x.grants i = 0 ∨ x.got leg i = true) := by
    simp [← hnext, hcredit, hopen]
  unfold Block.unitArrives
  simp only [hcoll, hmember, if_neg hdue]

/-- A credit for a collective in flight is used (R369). -/
theorem Block.creditArrives_used {x : Coll} (hcoll : b.coll tag = some x) (digest units : Nat) :
    b.creditArrives src tag digest units = (b.takeCredit tag src digest units).advanceColl tag := by
  unfold Block.creditArrives
  rw [hcoll]

/-- A credit for a collective that has not started is kept, while there is room (R370). -/
theorem Block.creditArrives_kept (hcoll : b.coll tag = none) (hroom : b.relay.pending.length < 4096) (digest units : Nat) :
    b.creditArrives src tag digest units =
      { b with relay := { b.relay with pending := b.relay.pending ++ [(src, tag, digest, units)] } } := by
  unfold Block.creditArrives
  rw [hcoll]
  exact if_pos hroom

end

section
variable {s : State} (hl : s.live)
include hl

/-- A refused credit goes again 10 µs after its refusal, with what its member then holds (R370). -/
theorem execCreditRetry_again {dst tag i : Nat} {r : Nat × Nat × Nat} {x : Coll}
    (hrefused : s.blk.relay.refusals.find? (fun r => decide (r.1 = dst) && decide (r.2.1 = tag)) = some r) :
    let b := s.blk.advanceTo (r.2.2 + 10 * usec)
    let b := { b with relay := { b.relay with refusals := b.relay.refusals.filter (fun y => !decide (y = r)) } }
    b.coll tag = some x → x.ranks.findIdx? (fun k => decide (k = dst)) = some i →
    execCreditRetry dst tag s =
      .next (s.withBlk (b.tell dst x.cls x.ctx (.credit tag x.digest (Sparse.get (always 0) x.grants i)))) := by
  intro d b hcoll hmember
  unfold b d at *
  rw [execCreditRetry, State.run_live hl]
  simp only [hrefused, hcoll, hmember]

/-! ### PERMUTE's messages -/

section
variable {src group epoch : Nat} (hanswers : s.blk.net.silent = false)
include hanswers

theorem execDrained_counts {x : Coll} {i : Nat} (hcoll : s.blk.permuteOf src group epoch = some (x, i)) (small : Bool) :
    execDrained src group epoch small s = .next (s.withBlk
      ((s.blk.setColl { x with drained := if x.drained.contains i then x.drained else x.drained ++ [i]
                               small := x.small || small }).advanceColl x.tag)) := by
  rw [execDrained, State.run_live hl]
  simp only [hanswers, Bool.false_eq_true, if_false, hcoll]

/-- A DRAINED message that comes before its PERMUTE is kept (R386). -/
theorem execDrained_early (hcoll : s.blk.permuteOf src group epoch = none) (small : Bool) :
    execDrained src group epoch small s = .next (s.withBlk
      { s.blk with relay := { s.blk.relay with early := s.blk.relay.early ++ [(src, group, epoch, small)] } }) := by
  rw [execDrained, State.run_live hl]
  simp only [hanswers, Bool.false_eq_true, if_false, hcoll]

theorem execMovesComplete_counts {x : Coll} {i : Nat} (hcoll : s.blk.permuteOf src group epoch = some (x, i)) :
    execMovesComplete src group epoch s = .next (s.withBlk
      ((s.blk.setColl { x with moved := if x.moved.contains i then x.moved else x.moved ++ [i] }).advanceColl x.tag)) := by
  rw [execMovesComplete, State.run_live hl]
  simp only [hanswers, Bool.false_eq_true, if_false, hcoll]

end

end

end Sys2Proof.Machine
end

section
/-! The obligation on what arrives at the Relay, settled. -/

namespace Sys2Proof.Machine

/-- Settles O18: each message is a row guarded by engines that are not silent, and takes the branch that its hypotheses leave. That a refused
credit's retry first advances the clock is log entry 11's, and what it sends then log entry 44's. -/
theorem relayMessageResults : Obligations.RelayMessageResults := by
  refine ⟨?unit, ?credit, fun s dst tag i r x hl hrefused => execCreditRetry_again hl hrefused,
    fun s src group epoch small hl hanswers => ⟨fun x i hcoll => execDrained_counts hl hanswers hcoll small,
      fun hcoll => execDrained_early hl hanswers hcoll small⟩,
    fun s src group epoch i x hl hanswers hcoll => execMovesComplete_counts hl hanswers hcoll,
    fun s group epoch bucket all hl hanswers => (cancelArrival_isGuarded group epoch bucket all).does hl (congrArg not hanswers)⟩
  case unit =>
    intro s src tag leg index last body det x i hl hanswers hcoll hmember hnext hcredit hopen
    rw [(relayUnitArrival_isGuarded src tag leg index last body det).does hl (congrArg not hanswers),
      Block.unitArrives_next hcoll hmember hnext hcredit hopen]
  case credit =>
    intro s src tag digest units hl hanswers
    rw [(creditGrant_isGuarded src tag digest units).does hl (congrArg not hanswers)]
    exact ⟨fun x hcoll => by rw [Block.creditArrives_used hcoll], fun hcoll hroom => by rw [Block.creditArrives_kept hcoll hroom]⟩

end Sys2Proof.Machine
end

section
/-! SUPPORT. The Blink's commands and jobs (R397 to R405, R412): PAGE_EDIT is three rows of one meaning, one for each OP; ATTEND is the row of its
engine; its latch and its jobs are events of their own. -/

namespace Sys2Proof.Machine

/-! ### The rows -/

theorem pageEditSet_isEngineRow (id : Nat) {p : PageEditParams} (hop : p.op = 0) :
    IsEngineRow (.pageEditSet id p) id (.pageEdit p) editReady (fun c b => b.doEdit c p) := fun s => by
  show execPageEditSet id p s = _
  simp [execPageEditSet, hop]
theorem pageEditTruncate_isEngineRow (id : Nat) {p : PageEditParams} (hop : p.op = 1) :
    IsEngineRow (.pageEditTruncate id p) id (.pageEdit p) editReady (fun c b => b.doEdit c p) := fun s => by
  show execPageEditTruncate id p s = _
  simp [execPageEditTruncate, hop]
theorem pageEditClear_isEngineRow (id : Nat) {p : PageEditParams} (hop : p.op = 2) :
    IsEngineRow (.pageEditClear id p) id (.pageEdit p) editReady (fun c b => b.doEdit c p) := fun s => by
  show execPageEditClear id p s = _
  simp [execPageEditClear, hop]
theorem attend_isEngineRow (id : Nat) (p : AttendParams) : IsEngineRow (.attend id p) id (.attend p) attendReady
    (fun c b => (b.startAttend c p).blinkRegs) := fun _ => rfl
theorem latchEnd_isUnguarded (id : Nat) : IsUnguarded (.latchEnd id)
    (fun b => (b.onAttend id (fun a => { a with latching := false })).blinkRegs) := fun _ => rfl

/-! ### Their meanings -/

section
variable {b b' : Block} {c : Cmd}

/-- A command whose action on its addresses succeeds ends with what the action answers. -/
theorem Block.concludeVa_ok {m : Act (Nat × Nat × Nat)} {status detail engine : Nat} (h : m b = (.ok (status, detail, engine), b'))
    (id unm : Nat) : b.concludeVa id unm m = b'.finish id status detail engine := by
  unfold Block.concludeVa
  rw [h]

/-- A PAGE_EDIT of a slot of the directory whose edit succeeds ends with the slot's new header (R401, R402). -/
theorem Block.doEdit_ok {p : PageEditParams} {e : Nat} (hslot : p.slot < b.rget .BLINK_PTAB_SLOTS c.ctx)
    (hedit : pageEdit c p (b.slotAt c.ctx p.slot) (b.setRunning c.id) = (.ok (0, 0, e), b')) :
    b.doEdit c p = (b'.finish c.id 0 0 e).blinkRegs := by
  rw [Block.doEdit, if_neg (by omega), Block.concludeVa_ok hedit]

/-- An ATTEND in range, whose tiles serve its context, places its jobs once its lists are latched (R397, R404). -/
theorem Block.startAttend_latched {p : AttendParams} {l : List SeqSt} (hrange : p.bad = false) (htiles : b.attendTiles p ≠ [])
    (hserve : ∀ n ∈ b.attendTiles p, b.rget .TILE_CFG_CTX n = c.ctx)
    (hlatch : attendLatch c p (b.rget .BLINK_PTAB_SLOTS c.ctx) b = (.ok l, b')) :
    b.startAttend c p = b'.attendBegin c p (b.attendTiles p) l := by
  unfold Block.startAttend
  rw [if_neg (by simpa [hrange, htiles] using hserve)]
  exact Block.withAct_ok hlatch _ _ _

end

/-- The job of an ATTEND whose turn it is on its tile computes its units, and ends when none remains (R397 to R400). -/
theorem execAttentionJob_ready {s : State} (hl : s.live) {id : Nat} {tile : Fin 64} {c : Cmd} {p : AttendParams}
    (hfound : s.blk.findCmd id = some c) (hparams : c.params = .attend p) (hready : s.blk.jobReady id tile = true) (units : Nat)
    (det : Fin 3) : execAttentionJob id tile units det s = .next (s.withBlk
      (((List.range units).foldl (fun b k => b.runUnit c p tile (if k = 0 then det.val else 0)) s.blk).jobEnd c p tile).blinkRegs) := by
  rw [execAttentionJob, State.run_live hl]
  simp only [hfound, hparams, hready, if_true]

end Sys2Proof.Machine
end

section
/-! The obligation on the Blink's commands and jobs, settled. -/

namespace Sys2Proof.Machine

/-- Settles O20: an edit and an ATTEND whose reads succeed go on with what they read, and a job runs when its tile's turn comes. -/
theorem blinkResults : Obligations.BlinkResults := by
  refine ⟨?edit, ?attend, fun s id hl => (latchEnd_isUnguarded id).does hl,
    fun s id tile units det c p hl hfound hparams hready => execAttentionJob_ready hl hfound hparams hready units det⟩
  case edit =>
    intro s id p c e b hl h hready hslot hedit
    have hdone := Block.doEdit_ok hslot hedit
    exact ⟨fun hop => ((pageEditSet_isEngineRow id hop).does hl h hready).trans (by rw [hdone]),
      fun hop => ((pageEditTruncate_isEngineRow id hop).does hl h hready).trans (by rw [hdone]),
      fun hop => ((pageEditClear_isEngineRow id hop).does hl h hready).trans (by rw [hdone])⟩
  case attend =>
    intro s id p c l b hl h hready hrange tiles htiles hserve hlatch
    rw [(attend_isEngineRow id p).does hl h hready, Block.startAttend_latched hrange htiles hserve hlatch]

end Sys2Proof.Machine
end

section
/-! SUPPORT. The commands of class 0x08 (R426, R434, R441 to R443, R454, R467, R469). LINK_CONTROL is six rows of one way, which refuses the
same parameters for each (R444). That FORCE_B and RETURN_A complete at once is log entry 56's. -/

namespace Sys2Proof.Machine

/-! ### The rows -/

theorem send_isEngineRow (id : Nat) (p : SendParams) : IsEngineRow (.send id p) id (.send p) (sendTurn p) (fun c b => b.doSend c p) :=
  fun _ => rfl
theorem recvPost_isEngineRow (id : Nat) (p : RecvParams) : IsEngineRow (.recvPost id p) id (.recvPost p) always2 (fun c b =>
    if p.bufBytes = 0 ∨ 67108864 < p.bufBytes ∨ (p.src ≠ 0xFFFF ∧ 16384 ≤ p.src) then b.finish c.id 0x0100 0 0 else b.setRunning c.id) :=
  fun _ => rfl

/-- Command `i` is LINK_CONTROL's row for the operation that `op` decides, with meaning `go`. -/
def IsLinkRow (i : Instr) (id : Nat) (p : LinkParams) (op : Bool) (go : Block → Block) : Prop :=
  ∀ s : State, exec i s = s.run (fun b => b.linkCmd id p op go)

section
variable (id : Nat) (p : LinkParams)

theorem linkRetrain_isLinkRow : IsLinkRow (.linkRetrain id p) id p (decide (p.op = 0 ∨ 5 < p.op)) (fun b =>
    if b.linkState p.engine ≠ 0 ∧ b.mayTrain p.engine then (b.enterTrain p.engine).linkEnd id p 0 0 else b.linkEnd id p 0x8004 0) :=
  fun _ => rfl
theorem linkDown_isLinkRow : IsLinkRow (.linkDown id p) id p (decide (p.op = 1)) (fun b =>
    (((b.rset .OE_STATUS_WIDTH p.engine 0).setLink p.engine
      { b.link p.engine with adminDown := true, replay := [], waiting := [], dead := [] }).setLinkState p.engine 0).linkEnd id p 0 0) :=
  fun _ => rfl
theorem linkUp_isLinkRow : IsLinkRow (.linkUp id p) id p (decide (p.op = 2)) (fun b =>
    let b := b.setLink p.engine { b.link p.engine with adminDown := false }
    (if b.linkState p.engine = 0 ∧ (b.link p.engine).light ∧ b.mayTrain p.engine then b.enterTrain p.engine else b).linkEnd id p 0 0) :=
  fun _ => rfl
theorem measure_isLinkRow (ex : List Exchange) : IsLinkRow (.measure id p ex) id p (decide (p.op = 3)) (fun b =>
    if !b.hokuke p.engine || !b.linkOpen p.engine then b.linkEnd id p 0x8004 0
    else if ex.length ≠ 64 then (b.advanceTo (b.clk.t + 10 * msec)).linkEnd id p 0x8004 0
    else (b.measureLink p.engine ex).linkEnd id p 0 ((b.measureLink p.engine ex).rget .OE_PEER_OFFSET_VALUE p.engine)) := fun _ => rfl
theorem forceB_isLinkRow : IsLinkRow (.forceB id p) id p (decide (p.op = 4)) (fun b => b.forceInput id p true) := fun _ => rfl
theorem returnA_isLinkRow : IsLinkRow (.returnA id p) id p (decide (p.op = 5)) (fun b => b.forceInput id p false) := fun _ => rfl

end

/-- A LINK_CONTROL that may start, with parameters in range, does its operation. -/
theorem IsLinkRow.does {i : Instr} {id : Nat} {p : LinkParams} {op : Bool} {go : Block → Block} {s : State} {c : Cmd}
    (hi : IsLinkRow i id p op go) (hl : s.live) (h : s.blk.Starts id (.linkControl p) c)
    (hrange : (s.blk.launched id).linkRange c p = false) (hop : op = true) :
    exec i s = .next (s.withBlk (go (s.blk.launched id))) := by
  rw [hi s, State.run_live hl, Block.linkCmd, Block.runCmd_starts h hop, if_neg (by simp [hrange])]

/-! ### Their meanings -/

section
variable {b b' : Block} {c : Cmd}

/-- A SEND whose bytes can be read and whose rank is reachable leaves its message with the transport (R441, R442). -/
theorem Block.doSend_leaves {p : SendParams} {bs : List (BitVec 8)} (hbytes : p.bytes ≠ 0) (hmost : p.bytes ≤ 67108864)
    (hread : readVa (c.req p.hint 0) p.srcVa p.bytes b = (.ok bs, b')) (hreach : (b'.sendRecipe c p bs).2 = true) :
    b.doSend c p = (b'.sendRecipe c p bs).1 := by
  unfold Block.doSend
  rw [if_neg (by omega)]
  simp only [hread, hreach, if_true]

/-- A switch to an input that has light completes at once (R425, log entry 56). -/
theorem Block.forceInput_lit {id : Nat} {p : LinkParams} {i : Bool} (hok : b.flag (inputOk i) p.engine = true) :
    b.forceInput id p i =
      (if b.rget .OE_STATUS_INPUT p.engine = b2n i then b else b.switchTo p.engine i false).linkEnd id p 0 0 := by
  unfold Block.forceInput
  rw [if_neg (by simp [hok])]
  split <;> rfl

end

end Sys2Proof.Machine
end

section
/-! The obligation on the commands of class 0x08, settled. -/

namespace Sys2Proof.Machine

/-- Settles O25: SEND and RECV_POST are rows of their engine, LINK_CONTROL's operations rows of one way, and the others conclude with their
action. That FORCE_B and RETURN_A complete at once is log entry 56's. -/
theorem networkCommandResults : Obligations.NetworkCommandResults := by
  refine ⟨?send, ?recvPost, ?linkControl, fun id p => concludes_of_conclude true (fun _ => rfl),
    fun id p => concludes_of_conclude true (fun _ => rfl), fun id p => concludes_of_conclude true (fun _ => rfl)⟩
  case send =>
    intro s id p c bs b hl h hturn hbytes hmost hread hreach
    rw [(send_isEngineRow id p).does hl h hturn, Block.doSend_leaves hbytes hmost hread hreach]
  case recvPost =>
    intro s id p c hl h hbytes hmost hsrc
    rw [(recvPost_isEngineRow id p).does hl h rfl, if_neg (by omega)]
  case linkControl =>
    intro s id p c hl h b hrange
    refine ⟨?retrain, fun hop => (linkDown_isLinkRow id p).does hl h hrange (decide_eq_true hop),
      fun hop => (linkUp_isLinkRow id p).does hl h hrange (decide_eq_true hop), ?measure, ?forceB, ?returnA⟩
    case retrain =>
      intro hop hstate htrain
      rw [(linkRetrain_isLinkRow id p).does hl h hrange (decide_eq_true (.inl hop)), if_pos ⟨hstate, htrain⟩]
    case measure =>
      intro ex hop hrole hopen hall
      rw [(measure_isLinkRow id p ex).does hl h hrange (decide_eq_true hop), if_neg (by simp [b, hrole, hopen]),
        if_neg (not_not_intro hall)]
    case forceB =>
      intro hop hok
      rw [(forceB_isLinkRow id p).does hl h hrange (decide_eq_true hop), Block.forceInput_lit (i := true) hok]
      rfl
    case returnA =>
      intro hop hok
      rw [(returnA_isLinkRow id p).does hl h hrange (decide_eq_true hop), Block.forceInput_lit (i := false) hok]
      rfl

end Sys2Proof.Machine
end

section
/-! SUPPORT. The engines' link events (R426 to R435, R443, and chapter 15's link states). That the end of a hold, of a training or of the time
between measurements first advances the clock is log entry 11's, and the corners of the link states are log entry 56's. -/

namespace Sys2Proof.Machine

/-! ### The rows -/

theorem laneDrop_isUnguarded (engine lane : Fin 8) : IsUnguarded (.laneDrop engine lane) (fun b => b.doLaneDrop engine lane) := fun _ => rfl
theorem lossOfSignal_isGuarded (engine : Fin 8) : IsGuarded (.lossOfSignal engine) (fun b => b.hokuke engine)
    (fun b => (b.setLink engine { b.link engine with light := false }).enterHold engine) := fun _ => rfl
theorem holdTimeout_isGuarded (engine : Fin 8) : IsGuarded (.holdTimeout engine) (fun b => decide (b.linkState engine = 4))
    (fun b => (b.advanceTo ((b.link engine).since + 50 * usec)).enterTrain engine) := .of_prop fun _ => rfl
theorem laserInputLoss_isUnguarded (engine : Fin 8) (input : Bool) (power : BitVec 16) : IsUnguarded (.laserInputLoss engine input power)
    (fun b => b.laserLoss engine input power.toNat) := fun _ => rfl
theorem laserInputReturn_isGuarded (engine : Fin 8) (input : Bool) (power : BitVec 16) : IsGuarded (.laserInputReturn engine input power)
    (fun b => decide (b.flag .CAPS_OE_PRESENT engine ∧ ((b.rget .OE_CFG_LOSS_DBM engine : Nat) : Int) * 100 ≤ power.toInt))
    (fun b => (b.rset (inputOk input) engine 1).rset (inputPwr input) engine power.toNat) := .of_prop fun _ => rfl
theorem laserSwitchDone_isUnguarded (engine : Fin 8) : IsUnguarded (.laserSwitchDone engine) (fun b => b.switchDone engine) := fun _ => rfl
theorem trainingDone_isUnguarded (engine : Fin 8) (t : Trained) : IsUnguarded (.trainingDone engine t) (fun b => b.trained engine t) :=
  fun _ => rfl
theorem trainingTimeout_isGuarded (engine : Fin 8) : IsGuarded (.trainingTimeout engine) (fun b => decide (b.linkState engine = 1))
    (fun b => (b.advanceTo ((b.link engine).since + 150 * msec)).failLink engine) := .of_prop fun _ => rfl
theorem lightPresent_isUnguarded (engine : Fin 8) : IsUnguarded (.lightPresent engine) (fun b =>
    let b := b.setLink engine { b.link engine with light := true }
    if b.linkState engine = 0 ∧ b.mayTrain engine ∧ b.flag .OSTLER_BOOT_STATUS_READY then b.enterTrain engine else b) := fun _ => rfl
theorem flitReceive_isGuarded (engine : Fin 8) (f : Flit) : IsGuarded (.flitReceive engine f)
    (fun b => b.hokuke engine && b.linkOpen engine && !b.net.silent) (fun b => b.flitArrives engine f) := fun _ => rfl
theorem nak_isGuarded (engine : Fin 8) (seq : BitVec 24) (bad : List (Fin 8)) : IsGuarded (.nak engine seq bad)
    (fun b => b.hokuke engine && b.linkOpen engine && !b.net.silent) (fun b => b.nakArrives engine seq.toNat (bad.map Fin.val)) :=
  fun _ => rfl

/-! ### Lanes, lasers and training -/

section
variable {b : Block} {n : Nat}

/-- A link of an engine's own that is open to traffic takes flits and NAKs while the module is not silent. -/
theorem Block.linkHears_of (hrole : b.hokuke n = true) (hopen : b.linkOpen n = true) (hanswers : b.net.silent = false) :
    (b.hokuke n && b.linkOpen n && !b.net.silent) = true := by
  simp [hrole, hopen, hanswers]

/-- An open link drops a lane of its mask at once (R433). -/
theorem Block.doLaneDrop_open {l : Nat} (hrole : b.hokuke n = true) (hlane : bitAt (b.rget .CAPS_OE_LANE_MASK n) l = true)
    (hopen : b.linkOpen n = true) : b.doLaneDrop n l = b.dropLane n l := by
  unfold Block.doLaneDrop
  rw [if_neg (by simp [hrole, hlane]), if_pos hopen]

/-- A laser input that was good is recorded low (R424); what follows turns on the other input. -/
theorem Block.laserLoss_falls {i : Bool} (hpresent : b.flag .CAPS_OE_PRESENT n = true) (hok : b.flag (inputOk i) n = true) (pwr : Nat) :
    b.laserLoss n i pwr =
      let b := (b.rset (inputOk i) n 0).rset (inputPwr i) n pwr
      if !b.flag (inputOk (!i)) n then b.loseEngine n
      else if b.rget .OE_STATUS_INPUT n = b2n i then b.switchTo n (!i) true
      else b := by
  unfold Block.laserLoss
  exact if_neg (by simp [hpresent, hok])

/-- A switch-over that no loss began ends without an entry, and a lit link leaves its hold (R425). -/
theorem Block.switchDone_ordered {t : Nat} (hswitching : (b.link n).switching = some (t, false)) :
    b.switchDone n =
      let b' := b.setLink n { b.link n with switching := none }
      if b'.linkState n = 4 ∧ (b.link n).light then b'.leaveHold n else b' := by
  unfold Block.switchDone
  simp only [hswitching, Bool.false_eq_true, if_false]

/-- Training that locks at least four lanes with a peer whose rank does not clash opens the link (R431 to R433). -/
theorem Block.trained_opens {t : Trained} (hrole : b.hokuke n = true) (hstate : b.linkState n = 1) :
    let lanes := (List.range 8).filter (fun l => t.lanes.getLsbD l && bitAt (b.rget .CAPS_OE_LANE_MASK n) l)
    4 ≤ lanes.length → b.clash n t = false →
    b.trained n t =
      let b := (b.rset .OE_PEER_RANK n t.rank).rset .OE_PEER_ENGINE n t.engine
      let b := b.setLink n { b.link n with serial := t.serial, light := true }
      let b := lanes.foldl (fun b l => b.rset .OE_LANE_LOCK (n * 8 + l) 1) b
      let b := ((b.rset .OE_PEER_VALID n 1).rset .OE_STATUS_WIDTH n lanes.length).setLinkState n (if lanes.length = 8 then 2 else 3)
      if t.exchanges.length = 64 then b.measureLink n t.exchanges else b := by
  intro lanes hlanes hclash
  have hlocks : ¬ (!b.hokuke n || decide (b.linkState n ≠ 1) || decide (lanes.length < 4)) = true := by
    simpa [hrole, hstate] using hlanes
  unfold Block.trained
  exact (if_neg hlocks).trans (if_neg (by simp [hclash]))

end

section
variable {s : State} (hl : s.live)
include hl

/-- A signal that comes back in time ends the hold, unless a switch-over is still under way (chapter 15's link states). -/
theorem execSignalBack_inTime {engine : Fin 8} (hstate : s.blk.linkState engine = 4)
    (htime : s.blk.clk.t ≤ (s.blk.link engine).since + 50 * usec) (hswitching : (s.blk.link engine).switching = none) :
    execSignalBack engine s =
      .next (s.withBlk ((s.blk.setLink engine { s.blk.link engine with light := true }).leaveHold engine)) := by
  rw [execSignalBack, State.run_live hl]
  simp only [if_pos (And.intro hstate htime), hswitching, Option.isSome_none, Bool.false_eq_true, if_false]

/-- Links are measured again MEASURE_MS after their last measurement, unless that is 0 (R443). -/
theorem execTimeRemeasure_enabled (hms : s.blk.rget .GTIME_CFG_MEASURE_MS ≠ 0) (links : List (Fin 8 × List Exchange)) :
    execTimeRemeasure links s =
      let b := (s.blk.advanceTo (s.blk.net.measureT + s.blk.rget .GTIME_CFG_MEASURE_MS * msec)).remeasured
      .next (s.withBlk (links.foldl (fun b x =>
        if b.hokuke x.1 && b.linkOpen x.1 && decide (x.2.length = 64) then b.measureLink x.1 x.2 else b) b)) := by
  rw [execTimeRemeasure, State.run_live hl]
  exact congrArg (Host.Outcome.next <| s.withBlk ·) (if_neg hms)

end

end Sys2Proof.Machine
end

section
/-! The obligation on the engines' link events, settled. -/

namespace Sys2Proof.Machine

/-- Settles O36: each event is its row, and takes the branch that the link's state, its lanes and its lasers leave. That the end of a hold, of a
training or of the time between measurements first advances the clock is log entry 11's, and the corners of the link states are log entry
56's. -/
theorem linkResults : Obligations.LinkResults := by
  refine ⟨?laneDrop, fun s engine hl hrole _ => (lossOfSignal_isGuarded engine).does hl hrole,
    fun s engine hl hstate => ⟨fun htime hswitching => execSignalBack_inTime hl hstate htime hswitching,
      (holdTimeout_isGuarded engine).does hl (decide_eq_true hstate)⟩,
    fun s engine input power hl hpresent => ⟨?loss, fun hpower =>
      (laserInputReturn_isGuarded engine input power).does hl (decide_eq_true ⟨hpresent, hpower⟩)⟩,
    ?switchDone, ?trained, fun s engine hl hstate => (trainingTimeout_isGuarded engine).does hl (decide_eq_true hstate),
    fun s engine hl => (lightPresent_isUnguarded engine).does hl,
    fun s engine f hl hrole hopen hanswers => (flitReceive_isGuarded engine f).does hl (Block.linkHears_of hrole hopen hanswers),
    fun s engine seq bad hl hrole hopen hanswers => (nak_isGuarded engine seq bad).does hl (Block.linkHears_of hrole hopen hanswers),
    fun s links hl hms => execTimeRemeasure_enabled hl hms links⟩
  case laneDrop =>
    intro s engine lane hl hrole hlane hopen
    rw [(laneDrop_isUnguarded engine lane).does hl, Block.doLaneDrop_open hrole hlane hopen]
  case loss =>
    intro hok b
    rw [(laserInputLoss_isUnguarded engine input power).does hl, Block.laserLoss_falls hpresent hok]
    refine ⟨fun hother => ?_, fun hother hinput => ?_, fun hother hinput => ?_⟩
    · exact congrArg (Host.Outcome.next <| s.withBlk ·) (if_pos (congrArg not hother))
    · exact congrArg (Host.Outcome.next <| s.withBlk ·) ((if_neg (by simp [b, hother])).trans (if_pos hinput))
    · exact congrArg (Host.Outcome.next <| s.withBlk ·) ((if_neg (by simp [b, hother])).trans (if_neg hinput))
  case switchDone =>
    intro s engine t hl hswitching
    rw [(laserSwitchDone_isUnguarded engine).does hl, Block.switchDone_ordered hswitching]
  case trained =>
    intro s engine t hl hrole hstate lanes hlanes hclash
    rw [(trainingDone_isUnguarded engine t).does hl, Block.trained_opens hrole hstate hlanes hclash]

end Sys2Proof.Machine
end

section
/-! SUPPORT. The transport's events (R438 to R442, R456). That a timer's end first advances the clock is log entry 11's, and the transport's corners
are log entries 53's and 54's. -/

namespace Sys2Proof.Machine

/-! ### The rows -/

theorem ack_isGuarded (via : Option (Fin 16)) (src apsn : Nat) (ecn : Bool) (short : List (Nat × Option Nat)) :
    IsGuarded (.ack via src apsn ecn short) (fun b => !b.net.silent) (fun b => b.ackArrives via src apsn ecn short) :=
  .of_unless fun _ => rfl
theorem sack_isGuarded (mac : Fin 16) (src apsn : Nat) (marks : List (Fin 256)) (ecn : Bool) : IsGuarded (.sack mac src apsn marks ecn)
    (fun b => !b.net.silent) (fun b => b.sackArrives mac src apsn (marks.map Fin.val) ecn) := .of_unless fun _ => rfl

/-! ### Flights -/

section
variable {b : Block} {f : Flight}

/-- A message without answer to a reachable rank goes again, or fails after the last of its tries (R439, R440). -/
theorem Block.rto_again (hcount : f.count ≠ 0) (hreach : b.reachable f.out.dst = true) (hunacked : f.unacked ≠ []) :
    b.rto f =
      let b := b.advanceTo (f.sentT + b.rget .HOKUKE_CFG_RTO_US * usec)
      if b.rget .HOKUKE_CFG_RETRIES ≤ f.tries then b.flightFails f else b.resend f f.unacked (f.tries + 1) := by
  unfold Block.rto
  rw [if_neg hcount, if_neg (by simp [hreach]), if_neg hunacked]

/-- A refused SEND whose time is not up goes again to a rank that is reachable (R442). -/
theorem Block.retry_again {t0 id : Nat} (hrnr : f.rnr = some t0) (hcmd : f.cmd = some id) :
    let b' := b.advanceTo (f.rnrLast + 10 * usec)
    b'.clk.t < t0 + b'.rget .HOKUKE_CFG_RNR_US * usec → b'.reachable f.out.dst = true → b.retry f = b'.sendAgain f := by
  intro b' htime hreach
  unfold Block.retry
  rw [hrnr, hcmd]
  exact (if_neg (Nat.not_le.2 htime)).trans (if_neg (by simp [hreach, b']))

/-- The next segment of a message leaves by its port while its priority is not paused (R455, R459). -/
theorem Block.sendSegment_leaves {m : Nat} (hmac : f.mac = some m) (hcut : f.cut < f.count) (hanswers : b.net.silent = false)
    (hunpaused : b.notPaused m (b.framePri m f.out) = true) (cuts : Nat) : b.sendSegment f cuts = b.segmentSent f m cuts := by
  have hmay : ¬ (f.count ≤ f.cut ∨ b.net.silent = true ∨ (!b.notPaused m (b.framePri m f.out)) = true) := by
    simp [hanswers, hunpaused, hcut]
  unfold Block.sendSegment
  simp only [hmac, if_neg hmay]

end

section
variable {s : State} (hl : s.live)
include hl

/-! ### Packets and acknowledgement timers -/

/-- A packet whose PSN is taken is delivered, and brings its acknowledgements about (R439). -/
theorem execTransportReceive_takes {via : Option (Fin 16)} {p : Packet} {b : Block} (hanswers : s.blk.net.silent = false)
    (htakes : s.blk.takePsn via p.src p.psn = (b, true)) :
    execTransportReceive via p s = .next (s.withBlk ((b.deliver p).ackDue via p.src p.psn)) := by
  rw [execTransportReceive, State.run_live hl]
  simp only [hanswers, Bool.false_eq_true, if_false, htakes, if_true]

theorem execAckTimer_due {src : Nat} (hunacked : (s.blk.peer src).unacked ≠ 0) :
    execAckTimer src s = .next (s.withBlk ((s.blk.advanceTo ((s.blk.peer src).firstT + 2 * usec)).sendAck src)) := by
  rw [execAckTimer, State.run_live hl, if_neg hunacked]

theorem execSackRepeat_due {src t : Nat} (hsack : (s.blk.peer src).sackT = some t) (hgap : (s.blk.peer src).rxAhead ≠ []) :
    execSackRepeat src s = .next (s.withBlk ((s.blk.advanceTo (t + 2 * usec)).sendSack src)) := by
  rw [execSackRepeat, State.run_live hl]
  simp only [hsack, if_neg hgap]

/-! ### The rows of a flight -/

section
variable {flight : Nat} {f : Flight} (hfound : s.blk.net.flights.find? (fun f => decide (f.id = flight)) = some f)
include hfound

theorem execRtoExpiry_found : execRtoExpiry flight s = .next (s.withBlk (s.blk.rto f)) := by
  rw [execRtoExpiry, State.run_live hl]
  simp only [hfound]

theorem execRnrRetry_found (hrefused : f.refused = true) (hwhole : f.whole = true) :
    execRnrRetry flight s = .next (s.withBlk (s.blk.retry f)) := by
  rw [execRnrRetry, State.run_live hl]
  simp only [hfound, if_pos (And.intro hrefused hwhole)]

theorem execTransportSegmentSend_found (cuts : Nat) :
    execTransportSegmentSend flight cuts s = .next (s.withBlk (s.blk.sendSegment f cuts)) := by
  rw [execTransportSegmentSend, State.run_live hl]
  simp only [hfound]

end

end

end Sys2Proof.Machine
end

section
/-! The obligation on the transport's events, settled. -/

namespace Sys2Proof.Machine

/-- Settles O37: acknowledgements are guarded rows, a timer's row takes its branch once its time is due, and a row of a flight finds it and goes
on with it. That a timer's end first advances the clock is log entry 11's, and the transport's corners are log entries 53's and 54's. -/
theorem transportResults : Obligations.TransportResults := by
  refine ⟨fun s via p b hl hanswers htakes => execTransportReceive_takes hl hanswers htakes,
    fun s via src apsn ecn short hl hanswers => (ack_isGuarded via src apsn ecn short).does hl (congrArg not hanswers),
    fun s mac src apsn marks ecn hl hanswers => (sack_isGuarded mac src apsn marks ecn).does hl (congrArg not hanswers),
    fun s src hl hunacked => execAckTimer_due hl hunacked, fun s src t hl hsack hgap => execSackRepeat_due hl hsack hgap, ?flight⟩
  intro s flight f hl hfound
  refine ⟨?rto, ?rnr, ?segment⟩
  case rto =>
    intro hcount hreach hunacked
    exact (execRtoExpiry_found hl hfound).trans (by rw [Block.rto_again hcount hreach hunacked])
  case rnr =>
    intro t0 id hrefused hwhole hrnr hcmd b htime hreach
    exact (execRnrRetry_found hl hfound hrefused hwhole).trans (by rw [Block.retry_again hrnr hcmd htime hreach])
  case segment =>
    intro cuts m hmac hcut hanswers hunpaused
    exact (execTransportSegmentSend_found hl hfound cuts).trans
      (by rw [Block.sendSegment_leaves hmac hcut hanswers hunpaused])

end Sys2Proof.Machine
end

section
/-! SUPPORT. The Ethernet ports' events (R447 to R465). That a timer's end first advances the clock is log entry 11's, and the MAC's corners are
log entry 52's. -/

namespace Sys2Proof.Machine

section
variable {s : State} (hl : s.live) {mac : Fin 16}
include hl

/-! ### The port and its frames -/

section
variable (hused : s.blk.macUsed mac = true)
include hused

theorem execPortLinkChange_changes {up : Bool} (hchanges : s.blk.flag .MAC_STATUS_LINK mac ≠ up) :
    execPortLinkChange mac up s = .next (s.withBlk (s.blk.portChanged mac up)) := by
  rw [execPortLinkChange, State.run_live hl, if_neg (by simp [hused, hchanges])]

/-- A running port takes what a frame says of verification; a frame then is counted, and classified where its counts let it go on. -/
theorem execFrameReceive_running (hlink : s.blk.flag .MAC_STATUS_LINK mac = true) (hen : s.blk.flag .MAC_CFG_RX_EN mac = true)
    (f : FrameIn) :
    execFrameReceive mac f s =
      let b := s.blk.takeVerify mac f.verify
      .next (s.withBlk (if f.bytes = [] ∧ !f.asmErr then b
        else if (b.frameCounts mac f).2 then (b.frameCounts mac f).1.classify mac f.bytes f.drained else (b.frameCounts mac f).1)) := by
  rw [execFrameReceive, State.run_live hl, if_neg (by simp [hused, hlink, hen])]

end

/-! ### Pauses received -/

section
variable {pri : Fin 8} {p : Pause} (hfound : (s.blk.mac mac).pauses.find? (fun p => decide (p.pri = pri.val)) = some p)
include hfound

theorem execPauseExpiry_found :
    execPauseExpiry mac pri s = .next (s.withBlk ((s.blk.advanceTo p.until_).takePause mac pri 0)) := by
  rw [execPauseExpiry, State.run_live hl]
  simp only [hfound]

/-- A pause that lasts for the watchdog's period trips it, and ends (R462). -/
theorem execPauseWatchdog_paused (htime : p.since + s.blk.wdTime mac ≤ max s.blk.clk.t p.until_) :
    execPauseWatchdog mac pri true s =
      .next (s.withBlk (((s.blk.advanceTo (p.since + s.blk.wdTime mac)).trip mac pri true).takePause mac pri 0)) := by
  rw [execPauseWatchdog, State.run_live hl, if_pos rfl]
  simp only [hfound, if_pos htime]

end

/-! ### Pauses sent -/

section
variable {pri : Fin 8} {x : Xoff} (hfound : (s.blk.mac mac).xoffs.find? (fun x => decide (x.pri = pri.val)) = some x)
include hfound

theorem execPauseRefresh_found : execPauseRefresh mac pri s = .next (s.withBlk
    ((s.blk.advanceTo (x.last + s.blk.quanta mac (s.blk.rget .MAC_FLOW_PAUSE_QUANTA mac) / 2)).pauseAgain mac pri)) := by
  rw [execPauseRefresh, State.run_live hl]
  simp only [hfound]

/-- An XOFF that lasts for the watchdog's period trips it, and ends (R462). -/
theorem execPauseWatchdog_pausing : execPauseWatchdog mac pri false s =
    .next (s.withBlk (((s.blk.advanceTo (x.since + s.blk.wdTime mac)).trip mac pri false).xoffEnds mac pri)) := by
  rw [execPauseWatchdog, State.run_live hl, if_neg Bool.false_ne_true]
  simp only [hfound]

end

/-- Pause handling resumes when the watchdog's hold-off ends (R462). -/
theorem execWatchdogHoldoffEnd_found {pri : Fin 8} {tx : Bool} {h : Holdoff}
    (hfound : (s.blk.mac mac).holdoffs.find? (fun h => decide (h.pri = pri.val) && decide (h.tx = tx)) = some h) :
    execWatchdogHoldoffEnd mac pri tx s =
      let b := ((s.blk.advanceTo h.until_).onMac mac (fun x => { x with holdoffs := x.holdoffs.filter (fun y => !decide (y = h)) })).pauseRegs mac
      .next (s.withBlk (if tx then b else b.checkXoff mac pri)) := by
  rw [execWatchdogHoldoffEnd, State.run_live hl]
  simp only [hfound]

/-- A sender's rate rises RC_INC_US after its last change (R457). -/
theorem execRateIncrease_found {rank : Nat} {r : Rate}
    (hfound : (s.blk.mac mac).rates.find? (fun r => decide (r.rank = rank)) = some r) :
    execRateIncrease mac rank s =
      .next (s.withBlk ((s.blk.advanceTo (r.incT + s.blk.rget .MAC_RC_CFG_RC_INC_US mac * usec)).rateUp mac r)) := by
  rw [execRateIncrease, State.run_live hl]
  simp only [hfound]

end

/-! ### Rows with a condition -/

theorem xon_isGuarded (mac : Fin 16) (pri : Fin 8) : IsGuarded (.xon mac pri)
    (fun b => (b.mac mac).xoffs.any (fun x => decide (x.pri = pri.val))) (fun b => (b.xonAt mac pri).sendPause mac pri 0) := fun _ => rfl
theorem verifyTimeout_isGuarded (mac : Fin 16) : IsGuarded (.verifyTimeout mac) (fun b => b.verifying mac) (fun b =>
    let x := b.mac mac
    let b := b.advanceTo (x.verifyT + b.rget .MAC_PREEMPT_VERIFY_MS mac * msec)
    if 3 ≤ x.verifyN then (b.rset .MAC_STATUS_VERIFY_FAIL mac 1).preemptRegs mac else b.verifyAgain mac) := fun _ => rfl

end Sys2Proof.Machine
end

section
/-! The obligation on the Ethernet ports' events, settled. -/

namespace Sys2Proof.Machine

/-- Settles O38: each event finds what it is of, a pause, an XOFF, a hold-off or a rate, and takes effect once its time is due. That it first
advances the clock is log entry 11's, and the MAC's corners are log entry 52's. -/
theorem portResults : Obligations.PortResults := by
  refine ⟨fun s mac up hl hused hchanges => execPortLinkChange_changes hl hused hchanges, ?frame,
    fun s mac pri p hl hfound => ⟨execPauseExpiry_found hl hfound, fun htime => execPauseWatchdog_paused hl hfound htime⟩,
    fun s mac pri x hl hfound => ⟨execPauseRefresh_found hl hfound, execPauseWatchdog_pausing hl hfound⟩,
    fun s mac pri hl hpaused => (xon_isGuarded mac pri).does hl hpaused,
    fun s mac pri tx h hl hfound => execWatchdogHoldoffEnd_found hl hfound,
    fun s mac hl hverifying => (verifyTimeout_isGuarded mac).does hl hverifying,
    fun s mac rank r hl hfound => execRateIncrease_found hl hfound⟩
  intro s mac f hl hused hlink hen b
  have htaken := execFrameReceive_running hl hused hlink hen f
  refine ⟨fun hempty herr => htaken.trans ?_, fun hframe => htaken.trans ?_⟩
  · exact congrArg (Host.Outcome.next <| s.withBlk ·) (if_pos ⟨hempty, by simp [herr]⟩)
  · exact congrArg (Host.Outcome.next <| s.withBlk ·) (if_neg (by rcases hframe with h | h <;> simp [h]))

end Sys2Proof.Machine
end

section
/-! SUPPORT. Power-up and trust (R470 to R487, R500, R552, R553). The answers of SPDM are log entry 13's, what a power-off keeps log entry 24's, the
corners of the boot stages log entry 25's, and the sideband of a stopped module log entry 59's. -/

namespace Sys2Proof.Machine

/-! ### The rows that act while the module does -/

theorem pgAuxAssert_isGuarded : IsGuarded .pgAuxAssert (fun b => !b.boot.pgAux) Block.auxUp := .of_unless fun _ => rfl
theorem pgMainAssert_isGuarded : IsGuarded .pgMainAssert (fun b => b.boot.pgAux)
    (fun b => { b with boot := { b.boot with pgMain := true }, clk := { b.clk with running := true } }) := fun _ => rfl
theorem pgStackAssert_isGuarded : IsGuarded .pgStackAssert (fun b => b.boot.pgMain)
    (fun b => { b with boot := { b.boot with pgStack := true } }) := fun _ => rfl
theorem pgOptAssert_isGuarded : IsGuarded .pgOptAssert (fun b => b.boot.pgStack)
    (fun b => { b with boot := { b.boot with pgOpt := true } }) := fun _ => rfl
theorem initDone_isGuarded (r : InitReport) : IsGuarded (.initDone r)
    (fun b => decide (b.stage = 4 ∧ b.boot.pgStack ∧ b.boot.pgOpt)) (fun b => b.initDone r) := .of_prop fun _ => rfl
theorem tokenVerifyDone_isGuarded : IsGuarded .tokenVerifyDone (fun b => b.flag .OSTLER_DEBUG_STATUS_BUSY) Block.tokenDone := fun _ => rfl
theorem spdmRequest_isGuarded (req : List (BitVec 8)) : IsGuarded (.spdmRequest req)
    (fun b => decide (b.flag .HITCH_STATUS_LINK_UP ∧ (b.stage = 4 ∨ b.stage = 5))) (fun b =>
      { b with boot := { b.boot with spdmLog := b.boot.spdmLog ++ [req] }
               out := { b.out with reads := b.out.reads ++ [Config.spdmAnswer req b.boot.spdmLog.length] } }) := .of_prop fun _ => rfl
theorem ostlerWatchdog_isGuarded (core : Fin 4) : IsGuarded (.ostlerWatchdog core) (fun b => decide (b.stage = 4 ∨ b.stage = 5))
    (fun b => b.moduleFault 0x16 (0x058 + core.val)) := .of_prop fun _ => rfl

section
variable {s : State} (hl : s.live)
include hl

/-- The boot ROM's tests pass, or fail with a module fault (R475, R500). -/
theorem execRomTestDone_stage (hstage : s.blk.stage = 1) (pass : Bool) :
    execRomTestDone pass s = .next (s.withBlk (if pass then s.blk.romPassed
      else ((s.blk.rset .OSTLER_BOOT_STATUS_ERROR 0 7).setStage 15).moduleFault 0x16 0x058)) := by
  rw [execRomTestDone, State.run_live hl, if_neg (not_not_intro hstage)]

/-- VERIFY starts the image, or returns to WAIT_IMAGE with its first error (R476). -/
theorem execVerifyDone_stage (hstage : s.blk.stage = 3) :
    execVerifyDone s = .next (s.withBlk (if s.blk.verifyError = 0 then s.blk.imageRuns
      else Block.setStage { s.blk.rset .OSTLER_BOOT_STATUS_ERROR 0 s.blk.verifyError with
        boot := { s.blk.boot with stagingRO := false } } 2)) := by
  rw [execVerifyDone, State.run_live hl, if_neg (not_not_intro hstage)]
  exact congrArg (Host.Outcome.next <| s.withBlk ·) (ite_not ..)

end

/-! ### The rows that a stopped module keeps -/

theorem State.always_withBlk (s : State) (f : Block → Block) : s.always f = .next (s.withBlk (f s.blk)) := rfl

section
variable {s : State}

theorem execPowerGoodFall_aux (hpower : s.blk.boot.pgAux = true) : execPowerGoodFall 0 s = .next (s.withBlk s.blk.powerOff) := by
  rw [execPowerGoodFall, State.always_withBlk, if_pos rfl, if_pos hpower]

/-- The fall of another power-good input stops the module (R472). -/
theorem execPowerGoodFall_stops {pg : Fin 4} (hpg : pg ≠ 0) (hgood : s.blk.boot.good pg = true) (hacts : s.blk.boot.stopped = false) :
    execPowerGoodFall pg s = .next (s.withBlk
      ((Block.sbAlert { s.blk with boot := s.blk.boot.falls pg } 4).emergency pg.val)) := by
  rw [execPowerGoodFall, State.always_withBlk, if_neg hpg, if_neg (by simp [hgood])]
  exact congrArg (Host.Outcome.next <| s.withBlk ·) (if_neg (by simp [BootSt.falls_stopped, hacts]))

theorem execSidebandTransfer_powered (hpower : s.blk.boot.pgAux = true) (x : SbOp) :
    execSidebandTransfer x s = .next (s.withBlk (s.blk.sideband x)) := by
  rw [execSidebandTransfer, State.always_withBlk, if_pos hpower]

end

/-! ### The host's requests to Ostler -/

theorem go_isHostWrite : IsHostWrite .go 0x10008 Block.go := fun _ => rfl
theorem submit_isHostWrite : IsHostWrite .submit 0x10060 Block.submit := fun _ => rfl

end Sys2Proof.Machine
end

section
/-! The obligation on power-up and trust, settled. -/

namespace Sys2Proof.Machine

/-- Settles O32: each input and each stage's end is a row that acts under the condition that its hypothesis states, the falls and the sideband also
once the module has stopped, and the host's requests are writes of their registers. The answers of SPDM are log entry 13's, what a power-off
keeps log entry 24's, the corners of the boot stages log entry 25's, and the sideband of a stopped module log entry 59's. -/
theorem bootResults : Obligations.BootResults := by
  refine ⟨fun s hl => ⟨fun hpg => pgAuxAssert_isGuarded.does hl (congrArg not hpg), fun hpg => pgMainAssert_isGuarded.does hl hpg,
      fun hpg => pgStackAssert_isGuarded.does hl hpg, fun hpg => pgOptAssert_isGuarded.does hl hpg,
      fun hstage => ⟨execRomTestDone_stage hl hstage true, execRomTestDone_stage hl hstage false⟩,
      fun hstage => execVerifyDone_stage hl hstage,
      fun r hstage hstack hopt => (initDone_isGuarded r).does hl (decide_eq_true ⟨hstage, hstack, hopt⟩),
      fun hbusy => tokenVerifyDone_isGuarded.does hl hbusy,
      fun req hlink hstage => (spdmRequest_isGuarded req).does hl (decide_eq_true ⟨hlink, hstage⟩),
      fun core hstage => (ostlerWatchdog_isGuarded core).does hl (decide_eq_true hstage)⟩,
    fun s hpower => ⟨execPowerGoodFall_aux hpower, fun pg hpg hgood hacts => execPowerGoodFall_stops hpg hgood hacts,
      fun x => execSidebandTransfer_powered hpower x⟩,
    go_isHostWrite.does, submit_isHostWrite.does, fun o bs hfits => (stagingWrite_isHostWrite hfits).does⟩

end Sys2Proof.Machine
end

section
/-! SUPPORT. Trace control and the writing of quires (R526, R529 to R532). That TRACE_MARK's record bears source 0x058 and rank 6 is log entry
35's. -/

namespace Sys2Proof.Machine

/-! ### The rows -/

/-- Command `i` is TRACE_CONTROL's row for the operation that `op` decides, which context 0 alone may order, with meaning `go`. -/
def IsTraceRow (i : Instr) (id : Nat) (p : TraceParams) (op : Bool) (go : Block → Block × Nat) : Prop :=
  ∀ s : State, exec i s = s.run (fun b => b.traceOp id p op go)

section
variable (id : Nat) (p : TraceParams)

theorem traceStart_isTraceRow : IsTraceRow (.traceStart id p) id p (decide (p.op = 0 ∨ 4 < p.op)) (fun b =>
    if 4 < p.op then (b, 0x0100)
    else if b.rget .TRACE_BUF_CFG_SIZE = 0 then (b, 0x7006)
    else if b.flag .TRACE_STATUS_RUNNING then (b, 0)
    else (b.traceBegin, 0)) := fun _ => rfl
theorem traceStop_isTraceRow : IsTraceRow (.traceStop id p) id p (decide (p.op = 1)) (fun b => (b.traceSettle.traceHalt, 0)) := fun _ => rfl
theorem traceTrigger_isTraceRow : IsTraceRow (.traceTrigger id p) id p (decide (p.op = 2)) (fun b => (b.trigger 1, 0)) := fun _ => rfl
theorem traceFlush_isTraceRow : IsTraceRow (.traceFlush id p) id p (decide (p.op = 4)) (fun b => (b.traceSettle.traceFlush, 0)) :=
  fun _ => rfl
theorem traceMark_isEngineRow : IsEngineRow (.traceMark id p) id (.traceControl p) (fun _ _ => decide (p.op = 3)) (fun c b =>
    (b.traceRec 0x058 7 6 c.ctx p.marker p.value 0).traceEnd id 0) := fun _ => rfl

end

/-- A TRACE_CONTROL of context 0 that may start does its operation. -/
theorem IsTraceRow.does {i : Instr} {id : Nat} {p : TraceParams} {op : Bool} {go : Block → Block × Nat} {s : State} {c : Cmd}
    (hi : IsTraceRow i id p op go) (hl : s.live) (h : s.blk.Starts id (.traceControl p) c) (hctx : c.ctx = 0) (hop : op = true) :
    exec i s = .next (s.withBlk ((go (s.blk.launched id)).1.traceEnd id (go (s.blk.launched id)).2)) := by
  rw [hi s, State.run_live hl, Block.traceOp, Block.runCmd_starts h hop, if_neg (not_not_intro hctx)]

/-! ### Quires -/

section
variable {s : State} (hl : s.live) {q : Quire} {rest : List Quire} (hstaged : s.blk.trace.staged = q :: rest)
  (hsize : s.blk.rget .TRACE_BUF_CFG_SIZE ≠ 0)
include hl hstaged hsize

/-- Outside a cut the oldest staged quire goes to its slot of a buffer in host memory (R529). -/
theorem execQuireWrite_host (hloc : s.blk.flag .TRACE_BUF_BASE_LOC = true) (hcut : s.blk.cutActive = false) :
    execQuireWrite s = .next (s.withBlk
      ((Block.hostWrite { s.blk with trace := { s.blk.trace with staged := rest } }
        (s.blk.rget .TRACE_BUF_BASE_ADDR * 4096 + q.num % s.blk.rget .TRACE_BUF_CFG_SIZE * 2048) (q.encode s.blk.now)).quireDone q)) := by
  rw [execQuireWrite, State.run_live hl]
  simp only [hstaged, if_neg hsize, hloc, if_true, hcut, Bool.false_eq_true, if_false]

/-- The oldest staged quire goes to its slot of a buffer in device memory that takes it (R529). -/
theorem execQuireWrite_device {b : Block} (hloc : s.blk.flag .TRACE_BUF_BASE_LOC = false)
    (hwrite : writeVa quireReq (s.blk.rget .TRACE_BUF_BASE_ADDR * 4096 + q.num % s.blk.rget .TRACE_BUF_CFG_SIZE * 2048)
      (q.encode s.blk.now) { s.blk with trace := { s.blk.trace with staged := rest } } = (.ok (), b)) :
    execQuireWrite s = .next (s.withBlk (b.quireDone q)) := by
  rw [execQuireWrite, State.run_live hl]
  simp only [hstaged, if_neg hsize, hloc, Bool.false_eq_true, if_false, hwrite]

end

end Sys2Proof.Machine
end

section
/-! The obligation on trace control and a staged quire, settled. -/

namespace Sys2Proof.Machine

/-- Settles O24: TRACE_CONTROL's operations are rows of one way, save TRACE_MARK, which every context may order, and a staged quire goes where its
buffer is. That TRACE_MARK's record bears source 0x058 and rank 6 is log entry 35's. -/
theorem traceResults : Obligations.TraceResults := by
  refine ⟨?control, fun s id p c hl h hop => (traceMark_isEngineRow id p).does hl h (decide_eq_true hop),
    fun s q rest hl hstaged hsize => ⟨fun hloc hcut => execQuireWrite_host hl hstaged hsize hloc hcut,
      fun b hloc hwrite => execQuireWrite_device hl hstaged hsize hloc hwrite⟩⟩
  intro s id p c hl h hctx b
  refine ⟨?start, fun hop => (traceStop_isTraceRow id p).does hl h hctx (decide_eq_true hop),
    fun hop => (traceTrigger_isTraceRow id p).does hl h hctx (decide_eq_true hop),
    fun hop => (traceFlush_isTraceRow id p).does hl h hctx (decide_eq_true hop)⟩
  intro hop hsize
  rw [(traceStart_isTraceRow id p).does hl h hctx (decide_eq_true (.inl hop)), if_neg (by omega), if_neg hsize]
  unfold b
  split <;> rfl

end Sys2Proof.Machine
end
